-- ==== Sys2Proof/Word.lean ====
section
/-!
DEFINITION. The plain data types every other file is written in: bytes, 32-bit control words and
sparse tables. Nothing here computes anything of the hardware.
-/
namespace Sys2Proof

/-- A byte of memory or of a packet. -/
abbrev Byte := BitVec 8

/-- A word of control space or a stoker register (00_scope.md, Notation). -/
abbrev Word := BitVec 32

/-- A sparse table: key and value pairs with strictly rising keys. -/
abbrev Tab (α : Type) := List (Nat × α)

end Sys2Proof
end

