-- ==== Sys2Proof/Syntax.lean ====
section
/-!
DEFINITION. The commands of the block: who may send one, and one constructor of Instr per row of the
opcode table, with its operands.
-/
namespace Sys2Proof

/-- Who makes a control-space access (R48, R501). `engine` numbers the units of the device that read
control space: 0 kindling loader, 1 kiln, 2 recorder export engine. `posted` is a store of stoker n that the fabric accepted while the
stoker ran in the given world (R26, R424). -/
inductive Initiator where
  | stoker (n : Nat)
  | bar0
  | mailbox
  | jtag
  | engine (n : Nat)
  | posted (n : Nat) (secure : Bool)
  deriving DecidableEq, Repr

/-- Where an HBM request comes from, which fixes its world (R361): a data-path block or the loader, a job of a ring, a stoker, or the PCIe
host through BAR0 or the BAR2 mailbox. -/
inductive ReqSrc where
  | block
  | ring (r : Nat)
  | stoker (n : Nat)
  | bar0
  | mailbox
  deriving DecidableEq, Repr

/-- The readings and results of the kiln boot (R556): the residual of CAL_RES, the worst bias error, the die temperatures, the monitor
voltages, and for each port group its termination error and the codes it settles on. -/
structure KilnReadings where
  res : Int
  bias : Int
  temps : List Int
  mons : List Int
  groups : List (Int × Int × Int)
  deriving DecidableEq, Repr, Inhabited

/-- What a STATUS meets: whether it answers a KEEPALIVE (R258), and whether a forward packet of its port is in progress (R267). -/
structure StatusCircs where
  toKeepalive : Bool
  inPacket : Bool
  deriving DecidableEq, Repr, Inhabited

/-- What a device-level reset meets: the fuse bits already programmed of an OTP command under way (R522, R562); the words already
stored of a record write under way where the supply fails (R539); whether the newest journal entry was still being written then, and is
torn (R65); and the readings of the kiln boot (R556). -/
structure BootCircs where
  fuses : Nat
  torn : Option Nat
  tornEntry : Bool
  kiln : KilnReadings
  deriving DecidableEq, Repr, Inhabited

/-- The commands of the block: one constructor per row of the table, in its order. -/
inductive Instr where
  /-- REGISTER_WRITE (R26): A posted write takes effect in the target block of a register that has no row of its own. -/
  | registerWrite (who : Initiator) (a v : Nat)
  /-- WIDE_FIELD_READ (R48): A read of the lowest word of a wide counter or time field latches the higher words for that initiator. -/
  | wideFieldRead (who : Initiator) (a : Nat)
  /-- EVENT_ENABLE_WRITE (R38): A write to an event enable register enables events, and a message is sent for each newly enabled event whose status is already 1. -/
  | eventEnableWrite (who : Initiator) (a v : Nat)
  /-- EVENT_STATUS_CLEAR (R40): A W1C write clears event status bits, with a coinciding event winning and sending a new message. -/
  | eventStatusClear (who : Initiator) (a v : Nat) (events : List Nat)
  /-- COUNTER_CLEAR (R44): A W1C write clears counter bits and the sticky sat bit, resuming counting only once sat is 0. -/
  | counterClear (who : Initiator) (a v : Nat) (coincide : Bool)
  /-- LINE_START (R212): The wall group's line clock reaches t(k, l) and the generator starts the next line, acting on every mark that falls at that line. -/
  | lineStart (g : Nat)
  /-- FRAME_PACKET (R102): Ingest receives a FRAME datagram carrying the presentation time and layer table and checks it. -/
  | framePacket (e udp : Nat) (p : List Byte)
  /-- DATA_PACKET (R107): Ingest receives a DATA datagram and writes its span of the frame area into the slot. -/
  | dataPacket (e udp : Nat) (p : List Byte)
  /-- PARITY_PACKET (R109): Ingest receives a PARITY datagram covering one parity group. -/
  | parityPacket (e udp : Nat) (p : List Byte)
  /-- LTABLE_COMMIT (R127): A write of ING_LTABLE_CTRL.commit submits a loaded Linor table shadow for checking. -/
  | ltableCommit (who : Initiator) (v : Nat)
  /-- BAND_ROW_FETCH (R151): A fetch stream's plane row arrives from HBM, is decoded and is broadcast to its subscribers' bands. -/
  | bandRowFetch (g u vr : Nat) (row : Int)
  /-- SLICE_FAILURE (R161): A slice detects an uncorrectable ECC error, residue mismatch or slot-sequence error and fails. -/
  | sliceFailure (sl cause : Nat) (inPacket : Bool)
  /-- SLICE_FORCE_FAIL (R161): A secure write of RAY_SPARE_CTRL.force_fail fails the named slice. -/
  | sliceForceFail (who : Initiator) (v : Nat) (inPacket : Bool)
  /-- SLICE_TAKEOVER_CMD (R165): A secure write of RAY_SPARE_CTRL.takeover schedules a manual spare takeover for a failed slice. -/
  | sliceTakeoverCmd (who : Initiator) (v : Nat)
  /-- BELLOWS_WM_WRITE (R169): A write of the bellows watermarks is applied, or dropped when high is not above low. -/
  | bellowsWmWrite (who : Initiator) (v : Nat)
  /-- LOW_MARK_READ (R6): A read of RAY_SLICE_LEAD returns the lowest lead since the last read and resets low_mark. -/
  | lowMarkRead (who : Initiator) (sl : Nat)
  /-- PENDING_XFER_WRITE (R179): A write of CMP_PORT_SEL.pending_xfer is stored, or dropped when not below the transfer-set count. -/
  | pendingXferWrite (who : Initiator) (n v : Nat)
  /-- DITHER_OFF_WRITE (R199): A write of dither_off applies from the next line whose composition begins afterwards. -/
  | ditherOffWrite (who : Initiator) (n v : Nat)
  /-- PALETTE_WRITE (R183): A write to an overlay palette entry of the bank in force lands at once. -/
  | paletteWrite (who : Initiator) (bank e : Nat) (high : Bool) (v : Nat)
  /-- MAP_COMMIT (R189): A write of CMP_MAP_CTRL.commit starts the map check of the named buffer or refuses it. -/
  | mapCommit (who : Initiator) (n v : Nat)
  /-- MAP_CHECK_DONE (R190): A running map check finishes reading and the map passes as pending or is rejected. -/
  | mapCheckDone (n : Nat)
  /-- EXTENSION_END (R233): A realign extension ends 9 new line periods before the target and line N_total minus 9 begins. -/
  | extensionEnd (g : Nat)
  /-- COMMIT (R224): A write of SCN_COMMIT.commit arms a commit for the next or following frame. -/
  | commit (who : Initiator) (g v : Nat)
  /-- CANCEL (R229): A write of SCN_COMMIT.cancel disarms an armed commit not yet latched. -/
  | cancel (who : Initiator) (g v : Nat)
  /-- IDLE_ENABLE_WRITE (R239): A write of SCN_IDLE_CFG.enable takes effect at the next line L_swap plus 1. -/
  | idleEnableWrite (who : Initiator) (g v : Nat)
  /-- SWAP_SECOND_COPY (R255): The second copy of each SWAP command leaves at least 2 µs after the first. -/
  | swapSecondCopy (n : Nat)
  /-- TRAIN_WRITE (R259): A write of TLK_PORT_CTRL.train starts or restarts training of a port. -/
  | trainWrite (who : Initiator) (n v : Nat)
  /-- PORT_DOWN_WRITE (R259): A write of TLK_PORT_CTRL.down takes the port to DOWN until a train write. -/
  | portDownWrite (who : Initiator) (n v : Nat)
  /-- DETECT_DONE (R260): All four far-end terminations are found and training moves to TS1. -/
  | detectDone (n : Nat)
  /-- TRAIN_REPORT (R260): A TRAIN report arrives on the back-channel and advances the training phase. -/
  | trainReport (n : Nat) (rx : List Nat) (slips : Nat) (deskewed : Bool)
  /-- TRAIN_PHASE_TIMEOUT (R260): A training phase does not end within its timeout. -/
  | trainPhaseTimeout (n opens shorts : Nat)
  /-- TRAIN_RETRY (R265): One second after TRAIN_FAIL the port retries training within its retry limit. -/
  | trainRetry (n : Nat)
  /-- ECHO_RECEIVE (R276): An ECHO arrives and the device computes the tile arrival time of the exchange. -/
  | echoReceive (n : Nat) (rx : List Nat) (slips : Nat) (t4 : Int)
  /-- ECHO_TIMEOUT (R277): An exchange's ECHO does not arrive within 10 µs and the exchange is discarded. -/
  | echoTimeout (n : Nat)
  /-- STATUS_RECEIVE (R258): A tile STATUS packet arrives and its counts and swap report are checked. -/
  | statusReceive (n : Nat) (rx : List Nat) (slips : Nat) (at_ : StatusCircs)
  /-- CHECKSUM_RECEIVE (R297): A tile CHECKSUM report arrives and is held for the deadline decision. -/
  | checksumReceive (n : Nat) (rx : List Nat) (slips : Nat)
  /-- TELEMETRY_RECEIVE (R313): A TELEMETRY packet arrives and the port's temperature band is evaluated. -/
  | telemetryReceive (n : Nat) (rx : List Nat) (slips : Nat)
  /-- BC_LOCK_LOST (R266): The back-channel loses symbol lock for more than 10 µs and the link goes down. -/
  | bcLockLost (n : Nat) (inPacket : Bool)
  /-- BC_SILENT (R266): No good back-channel packet arrives for 50 ms and the link goes down. -/
  | bcSilent (n : Nat) (inPacket : Bool)
  /-- LANE_MONITOR_FAULT (R269): A forward driver's monitor finds an open or short, limits and disables the driver. -/
  | laneMonitorFault (n lane : Nat) (short inPacket : Bool)
  /-- KEEPALIVE_TIMER (R256): The keep-alive interval passes and the device sends a KEEPALIVE, waking idle lanes if needed. -/
  | keepaliveTimer (n : Nat)
  /-- TEST_START (R281): A write of TLK_TEST.start sends LINK_TEST and puts an UP port in TEST. -/
  | testStart (who : Initiator) (n v : Nat)
  /-- TEST_END (R282): The test duration ends and the port is trained again from TS1. -/
  | testEnd (n errors : Nat)
  /-- MGMT_REPLY (R300): A tile's management reply arrives on the bus or in a MGMT_REPLY packet. -/
  | mgmtReply (ch : Nat) (rx : List Nat) (slips : Nat)
  /-- MGMT_REPLY_TIMEOUT (R301): A reply has not started within 100 µs or fails its CRC, and the request is retried. -/
  | mgmtReplyTimeout (ch : Nat)
  /-- BUS_AB_SWAP (R304): An inverted idle level or start bit is detected and the bus driver and receiver are inverted. -/
  | busAbSwap (m : Nat)
  /-- BUS_SHORT (R304): A bus short is detected and the driver current-limited. -/
  | busShort (m : Nat)
  /-- BUS_OPEN (R304): Loss of bias on an idle bus with silent tiles is detected as an open. -/
  | busOpen (m : Nat)
  /-- BUS_RETRY (R304): Every 1 s a shorted bus is retried. -/
  | busRetry (m : Nat) (short : Bool)
  /-- RESCAN (R305): A write of TCT_CTRL.rescan runs discovery on every bus. -/
  | rescan (who : Initiator) (v : Nat)
  /-- STATUS_POLL (R306): The poll interval passes and a discovered tile is sent STATUS. -/
  | statusPoll (n : Nat)
  /-- POWER_UP (R307): A write of TCT_PORT_CTRL.power_up starts the power-up sequence of a port. -/
  | powerUp (who : Initiator) (n v : Nat)
  /-- BIAS_POLL (R307): Every 2 ms during power-up step 1 the tile is polled for bias_ok. -/
  | biasPoll (n : Nat)
  /-- POWER_UP_TIMEOUT (R307): A power-up step exceeds its limit and the power-up fails. -/
  | powerUpTimeout (n : Nat)
  /-- WALL_UP (R308): A secure write of TCT_CTRL.wall_up reports supervisor ready and powers up every active port. -/
  | wallUp (who : Initiator) (v : Nat)
  /-- POWER_DOWN (R309): A write of TCT_PORT_CTRL.power_down sends DISCHARGE and starts a power-down. -/
  | powerDown (who : Initiator) (n v : Nat)
  /-- DISCHARGE_POLL (R309): Every 2 ms during a discharge the tile is polled until discharged reads 1. -/
  | dischargePoll (n : Nat)
  /-- DISCHARGE_TIMEOUT (R309): A tile has not reported discharged within 100 ms and BIAS_OFF is sent anyway. -/
  | dischargeTimeout (n : Nat)
  /-- FREEZE_WRITE (R322): A write of TCT_PORT_CTRL.freeze takes effect at the port's next deadline. -/
  | freezeWrite (who : Initiator) (n v : Nat)
  /-- PARTIAL_WRITE_JOB (R323): The tile control engine takes a partial-write job and checks its region. -/
  | partialWriteJob (ring : Nat)
  /-- PARTIAL_WRITE_PACKET (R324): A PARTIAL_WRITE packet of a job is sent in free columns, limited by the firescreen and power bound. -/
  | partialWritePacket (ring slot : Nat)
  /-- PARTIAL_WRITE_RESUME (R326): A job held at the flash rate limit resumes as rays leave the 1 s window. -/
  | partialWriteResume (ring slot : Nat)
  /-- HEARTBEAT_REFRESH (R347): A secure write of FSC_HEARTBEAT.refresh resets the heartbeat age. -/
  | heartbeatRefresh (who : Initiator) (v : Nat)
  /-- HEARTBEAT_EXPIRY (R348): No refresh arrives for T_hb and every LIT port starts fading. -/
  | heartbeatExpiry
  /-- HOLD_TIMEOUT (R349): A LIT port has skipped every swap for hold_timeout and starts fading. -/
  | holdTimeout (n : Nat)
  /-- FADE_STEP (R350): Every 10 ms a fading port is sent scaled drive references. -/
  | fadeStep (n : Nat)
  /-- LEVEL_WRITE (R337): A write of FSC_PORT_LEVEL.pending_level selects a ceiling level for the next frame. -/
  | levelWrite (who : Initiator) (n v : Nat)
  /-- HBM_REQUEST (R384): A requester issues an HBM or doorbell transaction into its pending queue at an arbiter instance; `stream` is the
  fetch stream it reads for, numbered 128 × wall group + index in the group's table (R156, R386, log entry 137). -/
  | hbmRequest (req : Nat) (src : ReqSrc) (write : Bool) (addr len : Nat) (data : List Byte) (stream : Option Nat) (door : Option Initiator)
  /-- ARBITER_DECISION (R387): A free target's instance grants the highest-ranked candidate. -/
  | arbiterDecision (a clocks : Nat)
  /-- ARB_WINDOW_START (R388): An arbiter window starts, refilling credits and clearing quota counts. -/
  | arbWindowStart (a : Nat)
  /-- ARB_CONFIG_WRITE (R392): A write of arbiter weight, quota, class, mode or window takes effect at the next decision or window. -/
  | arbConfigWrite (who : Initiator) (a : Nat) (r : Option Nat) (v : Nat)
  /-- HBM_READ_RETURN (R363): A read's data returns from the DRAM and its tag is freed. -/
  | hbmReadReturn (p k err : Nat)
  /-- HBM_WRITE_RETIRE (R363): A write's data is written to the DRAM and its tag is freed. -/
  | hbmWriteRetire (p err : Nat)
  /-- CORD_END (R368): A cord drains the write queue to the low watermark and reads resume. -/
  | cordEnd (p : Nat)
  /-- CORD_WM_WRITE (R370): A write of MEM_CORD_WM takes effect at the next cord start or is dropped. -/
  | cordWmWrite (who : Initiator) (v : Nat)
  /-- REFRESH_DUE (R371): A bank's per-bank refresh comes due and is issued or postponed. -/
  | refreshDue (p bank : Nat)
  /-- HBM_TEMP_CHANGE (R373): A stack reports a temperature range requiring a raised refresh rate. -/
  | hbmTempChange (stack : Nat) (raised : Bool)
  /-- PERIODIC_TRAINING_DUE (R375): A pseudo-channel's periodic training interval passes. -/
  | periodicTrainingDue (p : Nat)
  /-- TRAINING_RUN_START (R376): A due training run starts in a training window. -/
  | trainingRunStart (p : Nat)
  /-- TRAINING_RUN_END (R378): A training run ends and its settings and margin take effect. -/
  | trainingRunEnd (p margin : Nat)
  /-- TRAINING_DEFER (R377): A run due for 10 s without a window is deferred. -/
  | trainingDefer (p : Nat)
  /-- HBM_BOOT_TRAINING_DONE (R374): Boot training of both stacks ends and the boot choice follows. -/
  | hbmBootTrainingDone (fails : List Nat)
  /-- COMPRESS (R398): The codec engine starts a COMPRESS job writing one Linor component section. -/
  | compress (ring : Nat)
  /-- DECOMPRESS (R408): The codec engine starts a DECOMPRESS job decoding a component section into rows. -/
  | decompress (ring : Nat)
  /-- COMPARE (R410): The codec engine starts a COMPARE job decoding a section against reference rows. -/
  | compare (ring : Nat)
  /-- CODEC_BLOCK_ROW_DONE (R450): A codec job completes a block row and updates its progress. -/
  | codecBlockRowDone (ring slot : Nat)
  /-- TWD_COPY (R413): The 2-D engine starts a COPY job. -/
  | twdCopy (ring : Nat)
  /-- TWD_FILL (R413): The 2-D engine starts a FILL job. -/
  | twdFill (ring : Nat)
  /-- KEY_COPY (R413): The 2-D engine starts a KEY_COPY job. -/
  | keyCopy (ring : Nat)
  /-- GLYPH (R413): The 2-D engine starts a GLYPH expansion job. -/
  | glyph (ring : Nat)
  /-- TWD_ROW_DONE (R421): A 2-D job completes a row in walk order and updates its progress. -/
  | twdRowDone (ring slot : Nat)
  /-- TWD_CONFLICT_CLEAR (R418): An earlier conflicting job completes and a waiting 2-D job may start. -/
  | twdConflictClear (ring slot : Nat)
  /-- DMA_COPY (R446): The DMA engine starts a COPY job. -/
  | dmaCopy (ring : Nat)
  /-- DMA_FILL (R446): The DMA engine starts a FILL job. -/
  | dmaFill (ring : Nat)
  /-- DMA_PROGRESS (R447): Another 4,096 bytes of a DMA job have completed. -/
  | dmaProgress (ring slot : Nat)
  /-- EXPORT (R546): The recorder export engine starts an EXPORT job with an authenticated tag. -/
  | exportJob (r : Nat)
  /-- DESCRIPTOR_FETCH (R443): An engine fetches a descriptor from a job ring into its in-flight table. -/
  | descriptorFetch (ring : Nat)
  /-- COMPLETION_WRITE (R448): An engine writes a job's completion and then advances the completion ring's PI. -/
  | completionWrite (ring slot : Nat)
  /-- COMPLETION_RESUME (R448): Room appears in a full completion ring and held completions are written. -/
  | completionResume (ring : Nat)
  /-- PI_WRITE (R440): A producer writes a ring's producer index, which is accepted or dropped. -/
  | piWrite (who : Initiator) (ring value : Nat)
  /-- CI_WRITE (R440): A consumer writes a ring's consumer index, optionally arming notification. -/
  | ciWrite (who : Initiator) (ring value : Nat)
  /-- RING_PARK (R453): A secure write of STK_RING_CTRL.park parks a ring. -/
  | ringPark (who : Initiator) (ring : Nat)
  /-- RING_UNPARK (R455): A secure write of STK_RING_CTRL.unpark resumes a ring. -/
  | ringUnpark (who : Initiator) (ring : Nat)
  /-- RING_REASSIGN (R454): A secure write of STK_RING_CTRL.reassign replaces failed endpoints with alternates. -/
  | ringReassign (who : Initiator) (ring : Nat)
  /-- CLEAR_INFLIGHT (R452): A write of clear_inflight clears every ABORTED in-flight entry of a ring. -/
  | clearInflight (who : Initiator) (ring : Nat)
  /-- IF_SEL_WRITE (R449): A write of STK_IF_SEL latches a job ring's 8 in-flight entries for reading. -/
  | ifSelWrite (who : Initiator) (value : Nat)
  /-- LOCK_ACQUIRE (R457): A read of STK_LOCK_ACQ attempts to acquire a hearth lock. -/
  | lockAcquire (who : Initiator) (lock : Nat)
  /-- LOCK_RELEASE (R458): A write of STK_LOCK_REL.release frees a lock owned by the writer. -/
  | lockRelease (who : Initiator) (lock value : Nat)
  /-- STOKER_INSTRUCTION (R423): A stoker executes one RV32IMAC instruction. -/
  | stokerInstruction (n : Nat)
  /-- STOKER_FENCE (R427): A FENCE waits until every earlier store of the stoker has completed. -/
  | stokerFence (n : Nat)
  /-- CLAIM_READ (R428): A read of the claim CSR removes and returns the oldest claim queue entry. -/
  | claimRead (n rd : Nat)
  /-- CLAIMCTL_WRITE (R429): A write of claimctl clears the claim queue overflow flag. -/
  | claimctlWrite (n v : Nat)
  /-- WDKICK_WRITE (R431): A write of wdkick restarts the stoker's watchdog. -/
  | wdkickWrite (n : Nat)
  /-- HBMWIN_WRITE (R425): A write of an hbmwin CSR sets the base of an HBM window. -/
  | hbmwinWrite (n w v : Nat)
  /-- STOKER_WATCHDOG_EXPIRY (R431): A stoker's watchdog period passes without wdkick and the stoker fails. -/
  | stokerWatchdogExpiry (n fuses : Nat)
  /-- STOKER_ECC_ERROR (R431): An uncorrectable local memory ECC error fails the stoker. -/
  | stokerEccError (n : Nat) (corrected : Bool) (fuses : Nat)
  /-- STOKER_FORCE_FAIL (R431): A secure write of STK_STOKER_CTRL.force_fail fails the named stoker. -/
  | stokerForceFail (who : Initiator) (n v fuses : Nat)
  /-- STOKER_RESET (R436): A secure write of STK_STOKER_CTRL.reset restarts a stoker that has not failed. -/
  | stokerReset (who : Initiator) (n v fuses : Nat)
  /-- PCIE_LINK_LOSS (R453): The PCIe link is lost, parking host rings and freeing host locks. -/
  | pcieLinkLoss
  /-- PCIE_FLR (R459): A PCIe function-level reset frees host locks and closes the mailbox session. -/
  | pcieFlr
  /-- ETH_LINK_UP (R463): An Ethernet port gains block lock and FEC alignment and is up. -/
  | ethLinkUp (e : Nat)
  /-- ETH_LINK_DOWN (R463): An Ethernet port loses lock or alignment and renegotiates. -/
  | ethLinkDown (e : Nat)
  /-- AN_RESTART (R463): A write of NET_ETH_CTRL.restart restarts auto-negotiation. -/
  | anRestart (who : Initiator) (e v : Nat)
  /-- ETH_FRAME_RECEIVE (R465): An Ethernet frame arrives and is filtered, stamped and classified to PTP, control queue, ingest or drop. -/
  | ethFrameReceive (e : Nat) (bytes : List Byte) (pcsErr macErr : Int)
  /-- CONTROL_QUEUE_DELIVER (R469): A received frame's slot completes and the receive queue head advances. -/
  | controlQueueDeliver (q : Nat)
  /-- TRANSMIT_FRAME (R470): The device takes the next frame from a transmit queue and sends it. -/
  | transmitFrame (q : Nat)
  /-- TRANSMIT_COMPLETE (R470): A transmitted frame's stamps are written and the transmit queue tail advances. -/
  | transmitComplete (q : Nat) (pcsErr macErr : Int)
  /-- QUEUE_INDEX_WRITE (R468): The owner stoker writes a control queue head or tail under the ring rules. -/
  | queueIndexWrite (who : Initiator) (q : Nat) (head : Bool) (v : Nat)
  /-- TB_RATE_WRITE (R472): A write of NET_TB_RATE changes the time base rate from the next tick. -/
  | tbRateWrite (who : Initiator) (b v : Nat)
  /-- TB_STEP_GO (R473): A write of NET_TB_STEP_CTRL.go steps the time base by the programmed offset. -/
  | tbStepGo (who : Initiator) (b v : Nat)
  /-- TB_SET (R473): A write of NET_TB_CTRL.set loads the time base or is refused. -/
  | tbSet (who : Initiator) (b v : Nat)
  /-- TB_DISCIPLINE_WRITE (R477): A write of the discipline applies at once, entering or leaving GENLOCK. -/
  | tbDisciplineWrite (who : Initiator) (b v : Nat)
  /-- SNAPSHOT_TAKE (R476): A write of NET_SNAP_CTRL.take latches all four time bases at one instant. -/
  | snapshotTake (who : Initiator) (v : Nat)
  /-- GENLOCK_LOST (R478): No edge falls near 4 consecutive grid points and the genlock enters holdover. -/
  | genlockLost (b : Nat)
  /-- TPO_ARM (R487): A write of NET_TPO_CTRL.arm arms a timed pulse output or is refused. -/
  | tpoArm (who : Initiator) (o v : Nat)
  /-- TPO_DISARM (R489): A write of NET_TPO_CTRL.disarm stops the output after any pulse in progress. -/
  | tpoDisarm (who : Initiator) (o v : Nat)
  /-- TPO_EDGE (R485): An armed output's timing source reaches a pulse edge time. -/
  | tpoEdge (o : Nat)
  /-- CAPTURE_EDGE (R492): An enabled capture input recognises an edge and stamps it. -/
  | captureEdge (c : Nat) (rising : Bool)
  /-- CAPTURE_OVERVOLT (R494): A capture input exceeds 5.8 V. -/
  | captureOvervolt (c : Nat) (exceeds : Bool)
  /-- CAPTURE_STAMP_READ (R493): A read of NET_CAP_STAMP0 removes the oldest stamp and latches its time words. -/
  | captureStampRead (who : Initiator) (c : Nat)
  /-- NONCE_DRAW (R515): A write of SEC_NONCE_CTRL.new draws a new 128-bit nonce. -/
  | nonceDraw (who : Initiator)
  /-- NONCE_EXPIRY (R515): The nonce expires 60 s after it was drawn. -/
  | nonceExpiry
  /-- TOKEN_CHECK (R516): A write of SEC_TOKEN_CTRL.check starts a token check. -/
  | tokenCheck (who : Initiator)
  /-- TOKEN_CHECK_DONE (R516): A token check ends, holding the checked token or failing. -/
  | tokenCheckDone
  /-- MBX_CHECK (R518): A write of SEC_MBX_CTRL.check checks the mailbox token to open a session. -/
  | mbxCheck (v : Nat)
  /-- MBX_CLOSE (R518): A write of SEC_MBX_CTRL.close closes the mailbox session. -/
  | mbxClose (v : Nat)
  /-- MBX_NEW_NONCE (R515): A write of SEC_MBX_CTRL.new_nonce draws a nonce for the mailbox. -/
  | mbxNewNonce (v : Nat)
  /-- PROGRAM_KEY (R522): The OTP command PROGRAM_KEY programs a key slot in two phases. -/
  | programKey (who : Initiator) (v : Nat)
  /-- REVOKE_KEY (R511): The OTP command REVOKE_KEY revokes a key slot unless guarded. -/
  | revokeKey (who : Initiator) (v : Nat)
  /-- PROGRAM_IMAGE_KEY (R512): The OTP command PROGRAM_IMAGE_KEY programs the 256-bit image key. -/
  | programImageKey (who : Initiator) (v : Nat)
  /-- PROGRAM_CLASS (R523): The OTP command PROGRAM_CLASS programs a tile class record. -/
  | programClass (who : Initiator) (v : Nat)
  /-- PROGRAM_WALL (R523): The OTP command PROGRAM_WALL programs the wall record. -/
  | programWall (who : Initiator) (v : Nat)
  /-- RAISE (R526): The OTP command RAISE programs a raise slot under a matching checked token. -/
  | raise (who : Initiator) (v : Nat)
  /-- DISABLE_PORT (R528): The OTP command DISABLE_PORT permanently disables a port. -/
  | disablePort (who : Initiator) (v : Nat)
  /-- ADVANCE_ROLLBACK (R513): The OTP command ADVANCE_ROLLBACK raises the anti-rollback counter unless guarded. -/
  | advanceRollback (who : Initiator) (v : Nat)
  /-- ADVANCE_LIFECYCLE (R507): The OTP command ADVANCE_LIFECYCLE moves the lifecycle state forward. -/
  | advanceLifecycle (who : Initiator) (v : Nat)
  /-- OTP_COMMAND_COMPLETE (R525): An OTP command finishes programming and its read-back decides the outcome. -/
  | otpCommandComplete (failed : List Nat)
  /-- RECORD_WRITE (R539): The recorder writes the next queued record into the peat store. -/
  | recordWrite
  /-- RECORD_REWRITE (R540): A due rewrite of the newest record is made once 60 s have passed since its last write. -/
  | recordRewrite
  /-- RECORDER_CLEAR (R547): A secure write of EVR_CLEAR_CTRL.go clears the log under a matching token. -/
  | recorderClear (who : Initiator) (v : Nat)
  /-- KILN_MEASUREMENT (R549): An item's calibration interval passes and its measurement starts. -/
  | kilnMeasurement (item inst : Nat)
  /-- KILN_MEASUREMENT_DONE (R551): A kiln measurement completes and its readout and correction are updated. -/
  | kilnMeasurementDone (item inst : Nat) (vals codes : List Int)
  /-- KILN_CORRECTION_APPLY (R552): A pending correction moves one code within a kiln boundary of its resource. -/
  | kilnCorrectionApply (item inst : Nat)
  /-- KILN_DEFERRED (R553): A correction not fully in force within 10 s is reported as deferred. -/
  | kilnDeferred (item inst : Nat)
  /-- POWER_ON_RESET (R558): The supplies rise into range and the device performs a power-on reset and boot. -/
  | powerOnReset (b : BootCircs)
  /-- BROWN_OUT (R558): A core or always-on supply stays below its threshold for 10 µs and a brown-out reset follows. -/
  | brownOut (b : BootCircs)
  /-- COLD_PIN_RESET (R558): RESET_N low for at least 1 µs causes a cold pin reset. -/
  | coldPinReset (b : BootCircs)
  /-- COLD_REGISTER_RESET (R558): A secure keyed write of GLB_RESET_CTRL.cold causes a cold reset. -/
  | coldRegisterReset (who : Initiator) (v : Nat) (b : BootCircs)
  /-- WARM_RESET (R561): A secure keyed write of GLB_RESET_CTRL.warm causes a warm reset. -/
  | warmReset (who : Initiator) (v : Nat) (b : BootCircs)
  /-- THERMAL_TRIP (R574): A die sensor reaches 125 °C and the device holds itself in thermal reset. -/
  | thermalTrip (fuses : Nat)
  /-- THERMAL_RELEASE (R574): Every sensor reads below 100 °C for 1 s and the thermal reset is released. -/
  | thermalRelease (k : KilnReadings)
  /-- CLOCK_FAULT (R575): A reference clock is absent or off frequency for 10 µs and declared lost. -/
  | clockFault (r fuses : Nat)
  /-- CLOCK_RESTORED (R575): A lost reference is in range for 10 ms and declared back. -/
  | clockRestored (r : Nat) (k : KilnReadings)
  /-- BLOCK_RESET (R564): A secure write of GLB_BLOCK_RESET resets a block. -/
  | blockReset (who : Initiator) (v : Nat) (inPacket : List Nat)
  /-- BLOCK_RESET_DONE (R564): A block or port reset completes. -/
  | blockResetDone (port : Bool) (n : Nat)
  /-- PORT_RESET (R565): A write of GLB_PORT_RESET resets one port's TLK, CMP and FSC state. -/
  | portReset (who : Initiator) (m v : Nat) (inPacket : List Nat)
  /-- SMOULDER_ENTER (R568): A secure write of GLB_SMOULDER_CTRL.enter starts smoulder entry. -/
  | smoulderEnter (who : Initiator) (v : Nat)
  /-- WAKE_PIN (R570): WAKE_N held low for 1 ms ends smoulder. -/
  | wakePin (b : BootCircs)
  /-- SMOULDER_WAKE_TIMER (R570): The wake_s timer expires and smoulder ends. -/
  | smoulderWakeTimer (b : BootCircs)
  /-- POWER_FAIL_WARNING (R572): POWER_FAIL_N low for 1 µs starts the power-fail sequence. -/
  | powerFailWarning
  /-- POWER_RESTORED (R573): 100 ms after the warning with supplies in range, power is reported restored. -/
  | powerRestored
  /-- LOAD_VERIFY_DONE (R71): Verification of a boot image ends, accepted or rejected. -/
  | loadVerifyDone
  /-- LOAD_APPLY_DONE (R72): Section application completes and the stokers are released supervisor first. -/
  | loadApplyDone (fails : List Nat)
  /-- RELIGHT_START (R83): A secure write of KIN_CTRL.relight_start starts a relight into slot_select or is refused. -/
  | relightStart (who : Initiator) (v : Nat)
  /-- ABORT_RELIGHT (R85): A write of KIN_CTRL.abort_relight stops a relight in VERIFY or is ignored and counted. -/
  | abortRelight (who : Initiator) (v : Nat)
  /-- CONFIRM_GOOD (R70): A secure write of KIN_CTRL.confirm_good marks the running TRIAL slot GOOD. -/
  | confirmGood (who : Initiator) (v : Nat)
  /-- RELIGHT_VERIFY_DONE (R84): Relight verification succeeds, RELIGHT_BEGIN is journaled and admission stops. -/
  | relightVerifyDone
  /-- RELIGHT_APPLY_DONE (R89): The new image's sections are applied and stokers released during a relight. -/
  | relightApplyDone (fails : List Nat)
  /-- SUPERVISOR_READY_TIMEOUT (R94): The supervisor does not report ready within 5 s of release, or HBM training fails, and the device falls back. -/
  | supervisorReadyTimeout
  /-- LIVE_PATCH_SUBMIT (R76): A live patch arrives through a secure ring or the mailbox and its verification starts. -/
  | livePatchSubmit (who : Initiator) (b : List Byte)
  /-- LIVE_PATCH_VERIFIED (R77): A live patch finishes verification and is staged or rejected. -/
  | livePatchVerified
  /-- FLASH_SLOT_WRITE (R69): The secure world starts writing a flash slot, which is journaled EMPTY or refused. -/
  | flashSlotWrite (who : Initiator) (slot : Nat) (b : List Byte)
  /-- FLASH_WRITE_DONE (R563): A flash slot write completes and verifies and the slot is marked TRIAL. -/
  | flashWriteDone (ok : Bool)
  /-- REGISTER_READ (R28): A register read from an initiator completes after that initiator's earlier writes to the block, and may be blocked, unmapped or domain-off with its own return value, event or status bit. -/
  | registerRead (who : Initiator) (a : Nat)
  /-- PCIE_LINK_UP (R454): The PCIe link comes up again after a loss, so the host stops counting as a failed endpoint. -/
  | pcieLinkUp
  /-- POWER_FAIL_N_RETURNS_HIGH (R586): POWER_FAIL_N returns high, ending the warning so that a waiting smoulder exit, OTP commands and recorder clears may proceed. -/
  | powerFailNReturnsHigh (b : BootCircs)
  /-- BUS_BIAS_RESTORED (R304): The bias of an open management bus returns, ending the open fault shown in TCT_STATUS.bus_fault. -/
  | busBiasRestored (m : Nat)
  /-- MACHINE_TIMER_INTERRUPT (R423): A stoker's time reaches mtimecmp and its machine timer interrupt becomes pending, waking a stoker that waits for interrupt. -/
  | machineTimerInterrupt (n : Nat)
  deriving DecidableEq, Repr

end Sys2Proof
end

