-- ==== Sys2Proof/Config.lean ====
section
/-!
DEFINITION. What the manual leaves open, as constants with no body: nothing can compute them, so every claim
holds whatever they are. The crypto algorithms the manual only names stand here too (log entry 4).
-/
namespace Sys2Proof.Config

/-- A value that the manual does not state, one fresh one for each counter value (`Dev.free`). -/
opaque freeValue : Nat → Nat

/-- SHA-384 of a byte string, as a number whose most significant byte is the first digest byte. -/
opaque sha384 : List Byte → Nat

/-- ECDSA P-384 verification: x-coordinate, parity of y, message, signature (r then s, 48 bytes each). -/
opaque ecdsaOk : Nat → Nat → List Byte → List Byte → Bool

/-- AES-256-GCM decryption: key, iv, additional data, ciphertext, tag; none on a tag mismatch. -/
opaque gcmOpen : Nat → Nat → List Byte → List Byte → Nat → Option (List Byte)

/-- The AES-256-GCM tag of an empty plaintext: key, iv, additional data. -/
opaque gcmTag : Nat → List Byte → List Byte → List Byte

/-- AES-256 of one 16-byte block under a 256-bit key. -/
opaque aesBlock : Nat → List Byte → List Byte

/-- A 128-bit number drawn from the on-die random source at the counter's value (R515). -/
opaque randomNonce : Nat → Nat

/-- R477: what a phase error adds to the rate through the proportional path of the genlock's second-order loop, and what it adds to the
loop's integral part, both in units of NET_TB_RATE: the manual gives the loop its bandwidth (a fraction of Hz), its damping (7/10) and the
grid's period (a fraction of seconds), and no gains. The last argument is the phase error in units of 2⁻¹⁶ ns, times p_den. -/
opaque genlockProportional : Nat × Nat → Nat × Nat → Nat × Nat → Int → Int
opaque genlockIntegral : Nat × Nat → Nat × Nat → Nat × Nat → Int → Int

/-- R556: the code that the kiln's boot settles on for a setting, from the factory trims in OTP words 232 to 255, the item, the
resource, the setting and the readings (log entry 122). -/
opaque kilnTrimmed : List Nat → Nat → Nat → Nat → List Int → Int

end Sys2Proof.Config
end

