-- ==== Sys2Proof/Machine/Data.lean ====
section
/-!
DEFINITION. Operations on plain data: sparse tables, bit fields, signed fields, byte order, the
rounding and clamping of 00_scope.md R5, and the two CRCs the chapters name.
-/
namespace Sys2Proof.Machine

/-! ### Sparse tables -/

/-- The value listed at key `k`, if any. -/
def tfind {α : Type} : Tab α → Nat → Option α
  | [], _ => none
  | (k', v) :: t, k => if k' = k then some v else tfind t k

/-- The value at key `k`, or `d` when none is listed. -/
def tget {α : Type} (t : Tab α) (k : Nat) (d : α) : α := (tfind t k).getD d

/-- List `v` at key `k`, replacing what stood there. -/
def tput {α : Type} : Tab α → Nat → α → Tab α
  | [], k, v => [(k, v)]
  | (k', v') :: t, k, v =>
    if k' = k then (k, v) :: t
    else if k < k' then (k, v) :: (k', v') :: t
    else (k', v') :: tput t k v

/-- Remove key `k`. -/
def tdel {α : Type} : Tab α → Nat → Tab α
  | [], _ => []
  | (k', v) :: t, k => if k' = k then tdel t k else (k', v) :: tdel t k

/-- Apply `f` to the value at `k` (`d` when none is listed). -/
def tmod {α : Type} (t : Tab α) (k : Nat) (d : α) (f : α → α) : Tab α := tput t k (f (tget t k d))

/-- The keys of a table rise strictly. -/
def Tab.sorted {α : Type} : Tab α → Bool
  | [] => true
  | [_] => true
  | (k, _) :: (k', v') :: t => decide (k < k') && Tab.sorted ((k', v') :: t)

/-! ### Lists -/

/-- Element `i` of a list, or `d` past its end. -/
def lget {α : Type} (l : List α) (i : Nat) (d : α) : α := l.getD i d

/-- The list with element `i` replaced (unchanged past the end). -/
def lset {α : Type} (l : List α) (i : Nat) (v : α) : List α := l.set i v

/-- Fold over 0, …, n − 1 in rising order. -/
def forUp {σ : Type} (n : Nat) (f : Nat → σ → σ) (s : σ) : σ := (List.range n).foldl (fun s i => f i s) s

/-- Fold over a list of indices in order. -/
def forEach {α σ : Type} (l : List α) (f : α → σ → σ) (s : σ) : σ := l.foldl (fun s i => f i s) s

/-- The sum of `f i` for i < n. -/
def sumUp (n : Nat) (f : Nat → Nat) : Nat := forUp n (fun i a => a + f i) 0

/-- The integer sum of `f i` for i < n. -/
def sumUpI (n : Nat) (f : Nat → Int) : Int := forUp n (fun i a => a + f i) 0

/-- The number whose bit i is `f i`, for i < n. -/
def maskUp (n : Nat) (f : Nat → Bool) : Nat := forUp n (fun i a => if f i then a + 2 ^ i else a) 0

/-! ### Bits and signs -/

/-- Bits [hi:lo] of a number. -/
def bits (v hi lo : Nat) : Nat := v / 2 ^ lo % 2 ^ (hi - lo + 1)

/-- Bit n of a number as a truth value. -/
def bit (v n : Nat) : Bool := v.testBit n

/-- 1 for true, 0 for false. -/
def b2n (b : Bool) : Nat := if b then 1 else 0

/-- A w-bit field read as two's complement. -/
def toS (w v : Nat) : Int := if v % 2 ^ w < 2 ^ (w - 1) then (v % 2 ^ w : Nat) else (v % 2 ^ w : Nat) - (2 ^ w : Nat)

/-- An integer stored in w bits, two's complement, wrapping. -/
def ofS (w : Nat) (x : Int) : Nat := (x % ((2 ^ w : Nat) : Int)).toNat

/-- `clamp(x, lo, hi)` of 00_scope.md, Notation. -/
def clampI (x lo hi : Int) : Int := if x < lo then lo else if hi < x then hi else x

/-- R5: x saturated to a field of w bits, signed in two's complement and unsigned. -/
def satS (w : Nat) (x : Int) : Nat := ofS w (clampI x (-((2 ^ (w - 1) : Nat) : Int)) ((2 ^ (w - 1) : Nat) - 1))
def satU (w : Nat) (x : Int) : Nat := (clampI x 0 ((2 ^ w : Nat) - 1)).toNat

/-- The same on natural numbers. -/
def clampN (x lo hi : Nat) : Nat := if x < lo then lo else if hi < x then hi else x

/-- `>>` on a signed value: an arithmetic shift (00_scope.md, Notation). -/
def sarI (x : Int) (n : Nat) : Int := x / ((2 ^ n : Nat) : Int)

/-- R5: round half up on the removal of n fraction bits. -/
def rhu (x : Int) (n : Nat) : Int := if n = 0 then x else sarI (x + ((2 ^ (n - 1) : Nat) : Int)) n

/-- R5 on a natural number. -/
def rhuN (x n : Nat) : Nat := if n = 0 then x else (x + 2 ^ (n - 1)) / 2 ^ n

/-- Saturating addition to the top of a w-bit field (R43, R47). -/
def satAdd (w x n : Nat) : Nat := if x + n < 2 ^ w then x + n else 2 ^ w - 1

/-! ### Byte order -/

/-- Little-endian bytes as a number. -/
def leNat : List Byte → Nat
  | [] => 0
  | b :: t => b.toNat + 256 * leNat t

/-- Big-endian bytes as a number. -/
def beNat (l : List Byte) : Nat := l.foldl (fun a b => a * 256 + b.toNat) 0

/-- A number as n little-endian bytes. -/
def leBytes : Nat → Nat → List Byte
  | 0, _ => []
  | n + 1, v => BitVec.ofNat 8 v :: leBytes n (v / 256)

/-- A number as n big-endian bytes. -/
def beBytes (n v : Nat) : List Byte := (leBytes n v).reverse

/-- `n` bytes of a byte string from offset `o` (shorter past its end). -/
def slice (l : List Byte) (o n : Nat) : List Byte := (l.drop o).take n

/-- The big-endian field of n bytes at offset o. -/
def beAt (l : List Byte) (o n : Nat) : Nat := beNat (slice l o n)

/-- The little-endian field of n bytes at offset o. -/
def leAt (l : List Byte) (o n : Nat) : Nat := leNat (slice l o n)

/-- The little-endian 32-bit words of a byte string. -/
def leWords (n : Nat) (l : List Byte) : List Nat := (List.range n).map (fun i => leAt l (4 * i) 4)

/-! ### CRCs -/

/-- One bit of the reflected CRC-32 of IEEE 802.3. -/
def crc32Bit (c : Nat) : Nat := if c % 2 = 1 then (c / 2) ^^^ 0xEDB88320 else c / 2

/-- One byte of CRC-32. -/
def crc32Byte (c : Nat) (b : Nat) : Nat := forUp 8 (fun _ c => crc32Bit c) (c ^^^ b)

/-- CRC-32 of a byte string as IEEE 802.3 defines the frame check sequence. -/
def crc32 (l : List Nat) : Nat := (l.foldl crc32Byte 0xFFFFFFFF) ^^^ 0xFFFFFFFF

/-- One bit of the CRC-16 with polynomial 0x1021, most significant bit first. -/
def crc16Bit (c : Nat) : Nat := if 0x8000 ≤ c then (2 * c % 0x10000) ^^^ 0x1021 else 2 * c

/-- CRC-16 with polynomial 0x1021 and initial value 0xFFFF. -/
def crc16 (l : List Nat) : Nat :=
  l.foldl (fun c b => forUp 8 (fun _ c => crc16Bit c) (c ^^^ (b * 256))) 0xFFFF

/-- The integer square root is not used; the floor of a rational n / d, 0 for d = 0. -/
def divFloor (n : Int) (d : Nat) : Int := if d = 0 then 0 else n / (d : Int)

end Sys2Proof.Machine
end

