-- ==== Sys2Proof/Machine/RegFile.lean ====
section
/-!
DEFINITION. The register file: one cell per register field that has left its reset value, keyed by
the field's control-space address and lowest bit, with the access codes of 00_scope.md R6 to R11.
-/
namespace Sys2Proof.Machine

/-- A register field: the byte address of instance [0][0], the two index strides, the lowest bit, the
width and the Reset column's number (0 where the column says img, otp or gives none: log entry 1). -/
structure Fld where
  addr : Nat
  s1 : Nat
  s2 : Nat
  lo : Nat
  w : Nat
  rst : Nat
  deriving DecidableEq, Repr

/-- The access codes of R6. -/
inductive Acc where
  | rw | ro | wo | w1c | w1s | rc
  deriving DecidableEq, Repr

/-- A field with its access code; `secMask` marks the bits whose code has the suffix -S. -/
structure FldAcc where
  f : Fld
  acc : Acc
  secMask : Nat
  deriving DecidableEq, Repr

/-- A register or an array of registers, with its fields. -/
structure RegEnt where
  addr : Nat
  n1 : Nat
  s1 : Nat
  n2 : Nat
  s2 : Nat
  fields : List FldAcc
  deriving DecidableEq, Repr

/-- The cells of every register field that does not hold its reset value's default. -/
abbrev RegFile := Tab Nat

/-- The cell key of field `f` of instance [i][j]. -/
def Fld.key (f : Fld) (i j : Nat) : Nat := (f.addr + i * f.s1 + j * f.s2) * 32 + f.lo

/-- The value of a field: what its cell holds, or the Reset column's number. -/
def rget (r : RegFile) (f : Fld) (i : Nat := 0) (j : Nat := 0) : Nat := tget r (f.key i j) f.rst

/-- A field read as a truth value. -/
def rbit (r : RegFile) (f : Fld) (i : Nat := 0) (j : Nat := 0) : Bool := rget r f i j != 0

/-- Give a field a value; it keeps as many bits as the field has. -/
def rset (r : RegFile) (f : Fld) (v : Nat) (i : Nat := 0) (j : Nat := 0) : RegFile :=
  tput r (f.key i j) (v % 2 ^ f.w)

/-- Set a one-bit field from a truth value. -/
def rsetb (r : RegFile) (f : Fld) (b : Bool) (i : Nat := 0) (j : Nat := 0) : RegFile := rset r f (b2n b) i j

/-- Set one bit of a field. -/
def rsetBit (r : RegFile) (f : Fld) (k : Nat) (i : Nat := 0) (j : Nat := 0) : RegFile :=
  rset r f (rget r f i j ||| 2 ^ k) i j

/-- Clear one bit of a field. -/
def rclrBit (r : RegFile) (f : Fld) (k : Nat) (i : Nat := 0) (j : Nat := 0) : RegFile :=
  if (rget r f i j).testBit k then rset r f (rget r f i j - 2 ^ k) i j else r

/-- Clear the bits of `m` in `v` (the W1C write of R6). -/
def clearBits (v m : Nat) : Nat := v ^^^ (v &&& m)

/-- The instance of `e` that control-space address `a` names. -/
def RegEnt.locate (e : RegEnt) (a : Nat) : Option (Nat × Nat) :=
  if a < e.addr then none
  else
    let d := a - e.addr
    let i := if e.s1 = 0 then 0 else d / e.s1
    let r := d - i * e.s1
    let j := if e.s2 = 0 then 0 else r / e.s2
    let r' := r - j * e.s2
    if i < e.n1 ∧ j < e.n2 ∧ r' = 0 then some (i, j) else none

/-- The first entry of a table that holds address `a`, with its indices. -/
def lookupReg (t : List RegEnt) (a : Nat) : Option (RegEnt × Nat × Nat) :=
  match t with
  | [] => none
  | e :: t' => match e.locate a with
    | some (i, j) => some (e, i, j)
    | none => lookupReg t' a

/-- Every bit of every field is secure-only (R8). -/
def RegEnt.allSecure (e : RegEnt) : Bool := e.fields.all (fun f => f.secMask == 2 ^ f.f.w - 1)

/-- The value a read of the register shows (R6, R9, R10); `sec` is the reader's world. -/
def regValue (r : RegFile) (sec : Bool) (e : RegEnt) (i j : Nat) : Nat :=
  e.fields.foldl (fun a f =>
    match f.acc with
    | .wo => a
    | _ => a + (if sec then rget r f.f i j else clearBits (rget r f.f i j) f.secMask) * 2 ^ f.f.lo) 0

/-- What one write does to one field by its access code (R6); `v` is the field's written value. -/
def fieldWrite (acc : Acc) (old v : Nat) : Nat :=
  match acc with
  | .rw => v
  | .w1c => clearBits old v
  | .w1s => old ||| v
  | .ro | .wo | .rc => old

/-- A write by the access codes alone: RW, W1C and W1S fields, with R9 for a non-secure writer. -/
def regStore (r : RegFile) (sec : Bool) (e : RegEnt) (i j v : Nat) : RegFile :=
  e.fields.foldl (fun r f =>
    match f.acc with
    | .ro | .wo | .rc => r
    | acc =>
      let old := rget r f.f i j
      let new := fieldWrite acc old (v / 2 ^ f.f.lo % 2 ^ f.f.w)
      rset r f.f (if sec then new else clearBits new f.secMask + (old &&& f.secMask)) i j) r

/-- Remove every cell whose address lies in [a, a + n): the fields take their Reset entries (R11). -/
def rclear (r : RegFile) (a n : Nat) : RegFile := r.filter (fun c => ! (decide (a ≤ c.1 / 32) && decide (c.1 / 32 < a + n)))

end Sys2Proof.Machine
end

