-- ==== Sys2Proof/Machine/RegsA.lean ====
section
/-!
DEFINITION. The register map, blocks GLB to TCT: every register and field of the register tables of chapters 1 to 8, with its address, strides, position, width and reset value.
-/
namespace Sys2Proof.Machine

/-! ### Block GLB at 0x00000000 (01_architecture.md) -/

/-- GLB_ID (01_architecture.md, R34): address and field constants. -/
def GLB_ID.baseAddr : Nat := 0x00000000
def GLB_ID.block_code : Fld := ⟨0x00000000, 0, 0, 24, 8, 0⟩
def GLB_ID.major : Fld := ⟨0x00000000, 0, 0, 16, 8, 1⟩
def GLB_ID.minor : Fld := ⟨0x00000000, 0, 0, 8, 8, 0⟩
def GLB_ID.ent : RegEnt := ⟨0x00000000, 1, 0, 1, 0, [⟨GLB_ID.block_code, .ro, 0⟩, ⟨GLB_ID.major, .ro, 0⟩, ⟨GLB_ID.minor, .ro, 0⟩]⟩

/-- GLB_SYNC (01_architecture.md, R29,R34): address and field constants. -/
def GLB_SYNC.baseAddr : Nat := 0x00000004
def GLB_SYNC.sync_pending : Fld := ⟨0x00000004, 0, 0, 0, 1, 0⟩
def GLB_SYNC.ent : RegEnt := ⟨0x00000004, 1, 0, 1, 0, [⟨GLB_SYNC.sync_pending, .ro, 0⟩]⟩

/-- GLB_IDENTITY (01_architecture.md, R1,R34): address and field constants. -/
def GLB_IDENTITY.baseAddr : Nat := 0x00000100
def GLB_IDENTITY.part_number : Fld := ⟨0x00000100, 0, 0, 16, 16, 0x9600⟩
def GLB_IDENTITY.stepping : Fld := ⟨0x00000100, 0, 0, 0, 16, 0x00B0⟩
def GLB_IDENTITY.ent : RegEnt := ⟨0x00000100, 1, 0, 1, 0, [⟨GLB_IDENTITY.part_number, .ro, 0⟩, ⟨GLB_IDENTITY.stepping, .ro, 0⟩]⟩

/-- GLB_SYNC_SUMMARY (01_architecture.md, R29,R34): address and field constants. -/
def GLB_SYNC_SUMMARY.baseAddr : Nat := 0x00000104
def GLB_SYNC_SUMMARY.pending : Fld := ⟨0x00000104, 0, 0, 0, 18, 0⟩
def GLB_SYNC_SUMMARY.ent : RegEnt := ⟨0x00000104, 1, 0, 1, 0, [⟨GLB_SYNC_SUMMARY.pending, .ro, 0⟩]⟩

/-- GLB_ERR_STATUS (01_architecture.md, R30,R31): address and field constants. -/
def GLB_ERR_STATUS.baseAddr : Nat := 0x00000108
def GLB_ERR_STATUS.unmapped : Fld := ⟨0x00000108, 0, 0, 1, 1, 0⟩
def GLB_ERR_STATUS.domain_off : Fld := ⟨0x00000108, 0, 0, 0, 1, 0⟩
def GLB_ERR_STATUS.ent : RegEnt := ⟨0x00000108, 1, 0, 1, 0, [⟨GLB_ERR_STATUS.unmapped, .w1c, 0⟩, ⟨GLB_ERR_STATUS.domain_off, .w1c, 0⟩]⟩

/-- GLB_EVT_ROUTE[i] (01_architecture.md, R35-R38): address and field constants. -/
def GLB_EVT_ROUTE.baseAddr : Nat := 0x00004000
def GLB_EVT_ROUTE.secure : Fld := ⟨0x00004000, 4, 0, 31, 1, 0⟩
def GLB_EVT_ROUTE.toRec : Fld := ⟨0x00004000, 4, 0, 30, 1, 0⟩
def GLB_EVT_ROUTE.target : Fld := ⟨0x00004000, 4, 0, 28, 2, 0⟩
def GLB_EVT_ROUTE.dest : Fld := ⟨0x00004000, 4, 0, 0, 11, 0⟩
def GLB_EVT_ROUTE.ent : RegEnt := ⟨0x00004000, 4096, 4, 1, 0, [⟨GLB_EVT_ROUTE.secure, .ro, 0⟩, ⟨GLB_EVT_ROUTE.toRec, .rw, 0⟩, ⟨GLB_EVT_ROUTE.target, .rw, 0⟩, ⟨GLB_EVT_ROUTE.dest, .rw, 0⟩]⟩

/-- GLB_EVT_STATUS (15_reset_power_faults.md, R38,R572-R575): address and field constants. -/
def GLB_EVT_STATUS.baseAddr : Nat := 0x00000080
def GLB_EVT_STATUS.status : Fld := ⟨0x00000080, 0, 0, 0, 5, 0⟩
def GLB_EVT_STATUS.ent : RegEnt := ⟨0x00000080, 1, 0, 1, 0, [⟨GLB_EVT_STATUS.status, .w1c, 0⟩]⟩

/-- GLB_EVT_ENABLE (15_reset_power_faults.md, R38): address and field constants. -/
def GLB_EVT_ENABLE.baseAddr : Nat := 0x00000084
def GLB_EVT_ENABLE.enable : Fld := ⟨0x00000084, 0, 0, 0, 5, 0x0F⟩
def GLB_EVT_ENABLE.ent : RegEnt := ⟨0x00000084, 1, 0, 1, 0, [⟨GLB_EVT_ENABLE.enable, .rw, 0⟩]⟩

/-- GLB_RESET_CTRL (15_reset_power_faults.md, R558,R578): address and field constants. -/
def GLB_RESET_CTRL.baseAddr : Nat := 0x00000200
def GLB_RESET_CTRL.cold : Fld := ⟨0x00000200, 0, 0, 31, 1, 0⟩
def GLB_RESET_CTRL.warm : Fld := ⟨0x00000200, 0, 0, 30, 1, 0⟩
def GLB_RESET_CTRL.key : Fld := ⟨0x00000200, 0, 0, 0, 16, 0⟩
def GLB_RESET_CTRL.ent : RegEnt := ⟨0x00000200, 1, 0, 1, 0, [⟨GLB_RESET_CTRL.cold, .wo, 1⟩, ⟨GLB_RESET_CTRL.warm, .wo, 1⟩, ⟨GLB_RESET_CTRL.key, .wo, 65535⟩]⟩

/-- GLB_RESET_STATUS (15_reset_power_faults.md, R562): address and field constants. -/
def GLB_RESET_STATUS.baseAddr : Nat := 0x00000204
def GLB_RESET_STATUS.in_otp : Fld := ⟨0x00000204, 0, 0, 9, 1, 0⟩
def GLB_RESET_STATUS.in_relight : Fld := ⟨0x00000204, 0, 0, 8, 1, 0⟩
def GLB_RESET_STATUS.kind : Fld := ⟨0x00000204, 0, 0, 0, 4, 0⟩
def GLB_RESET_STATUS.ent : RegEnt := ⟨0x00000204, 1, 0, 1, 0, [⟨GLB_RESET_STATUS.in_otp, .ro, 0⟩, ⟨GLB_RESET_STATUS.in_relight, .ro, 0⟩, ⟨GLB_RESET_STATUS.kind, .ro, 0⟩]⟩

/-- GLB_BLOCK_RESET (15_reset_power_faults.md, R564): address and field constants. -/
def GLB_BLOCK_RESET.baseAddr : Nat := 0x00000208
def GLB_BLOCK_RESET.reset : Fld := ⟨0x00000208, 0, 0, 0, 18, 0⟩
def GLB_BLOCK_RESET.ent : RegEnt := ⟨0x00000208, 1, 0, 1, 0, [⟨GLB_BLOCK_RESET.reset, .w1s, 262143⟩]⟩

/-- GLB_PORT_RESET[i] (15_reset_power_faults.md, R565): address and field constants. -/
def GLB_PORT_RESET.baseAddr : Nat := 0x00000210
def GLB_PORT_RESET.reset : Fld := ⟨0x00000210, 4, 0, 0, 32, 0⟩
def GLB_PORT_RESET.ent : RegEnt := ⟨0x00000210, 3, 4, 1, 0, [⟨GLB_PORT_RESET.reset, .w1s, 0⟩]⟩

/-- GLB_PWR_STATUS (15_reset_power_faults.md, R567): address and field constants. -/
def GLB_PWR_STATUS.baseAddr : Nat := 0x00000220
def GLB_PWR_STATUS.pcie : Fld := ⟨0x00000220, 0, 0, 7, 1, 0⟩
def GLB_PWR_STATUS.ethernet : Fld := ⟨0x00000220, 0, 0, 6, 1, 0⟩
def GLB_PWR_STATUS.hbm : Fld := ⟨0x00000220, 0, 0, 5, 1, 0⟩
def GLB_PWR_STATUS.quarters : Fld := ⟨0x00000220, 0, 0, 1, 4, 0⟩
def GLB_PWR_STATUS.core : Fld := ⟨0x00000220, 0, 0, 0, 1, 1⟩
def GLB_PWR_STATUS.ent : RegEnt := ⟨0x00000220, 1, 0, 1, 0, [⟨GLB_PWR_STATUS.pcie, .ro, 0⟩, ⟨GLB_PWR_STATUS.ethernet, .ro, 0⟩, ⟨GLB_PWR_STATUS.hbm, .ro, 0⟩, ⟨GLB_PWR_STATUS.quarters, .ro, 0⟩, ⟨GLB_PWR_STATUS.core, .ro, 0⟩]⟩

/-- GLB_PG_PWR (15_reset_power_faults.md, R567): address and field constants. -/
def GLB_PG_PWR.baseAddr : Nat := 0x00000224
def GLB_PG_PWR.groups : Fld := ⟨0x00000224, 0, 0, 0, 24, 0⟩
def GLB_PG_PWR.ent : RegEnt := ⟨0x00000224, 1, 0, 1, 0, [⟨GLB_PG_PWR.groups, .ro, 0⟩]⟩

/-- GLB_SMOULDER_CTRL (15_reset_power_faults.md, R568,R570): address and field constants. -/
def GLB_SMOULDER_CTRL.baseAddr : Nat := 0x00000230
def GLB_SMOULDER_CTRL.enter : Fld := ⟨0x00000230, 0, 0, 31, 1, 0⟩
def GLB_SMOULDER_CTRL.wake_s : Fld := ⟨0x00000230, 0, 0, 0, 16, 0⟩
def GLB_SMOULDER_CTRL.ent : RegEnt := ⟨0x00000230, 1, 0, 1, 0, [⟨GLB_SMOULDER_CTRL.enter, .wo, 1⟩, ⟨GLB_SMOULDER_CTRL.wake_s, .rw, 65535⟩]⟩

/-- GLB_SMOULDER_STATUS (15_reset_power_faults.md, R570): address and field constants. -/
def GLB_SMOULDER_STATUS.baseAddr : Nat := 0x00000234
def GLB_SMOULDER_STATUS.wake : Fld := ⟨0x00000234, 0, 0, 0, 2, 0⟩
def GLB_SMOULDER_STATUS.ent : RegEnt := ⟨0x00000234, 1, 0, 1, 0, [⟨GLB_SMOULDER_STATUS.wake, .ro, 0⟩]⟩

/-- GLB_CLK_STATUS (15_reset_power_faults.md, R575): address and field constants. -/
def GLB_CLK_STATUS.baseAddr : Nat := 0x00000240
def GLB_CLK_STATUS.system : Fld := ⟨0x00000240, 0, 0, 6, 1, 0⟩
def GLB_CLK_STATUS.pcie : Fld := ⟨0x00000240, 0, 0, 5, 1, 0⟩
def GLB_CLK_STATUS.ethernet : Fld := ⟨0x00000240, 0, 0, 4, 1, 0⟩
def GLB_CLK_STATUS.tile : Fld := ⟨0x00000240, 0, 0, 0, 4, 0⟩
def GLB_CLK_STATUS.ent : RegEnt := ⟨0x00000240, 1, 0, 1, 0, [⟨GLB_CLK_STATUS.system, .ro, 0⟩, ⟨GLB_CLK_STATUS.pcie, .ro, 0⟩, ⟨GLB_CLK_STATUS.ethernet, .ro, 0⟩, ⟨GLB_CLK_STATUS.tile, .ro, 0⟩]⟩

/-- GLB_PWRFAIL_CNT (15_reset_power_faults.md, R572,R43,R44): address and field constants. -/
def GLB_PWRFAIL_CNT.baseAddr : Nat := 0x00000250
def GLB_PWRFAIL_CNT.sat : Fld := ⟨0x00000250, 0, 0, 31, 1, 0⟩
def GLB_PWRFAIL_CNT.count : Fld := ⟨0x00000250, 0, 0, 0, 31, 0⟩
def GLB_PWRFAIL_CNT.ent : RegEnt := ⟨0x00000250, 1, 0, 1, 0, [⟨GLB_PWRFAIL_CNT.sat, .w1c, 0⟩, ⟨GLB_PWRFAIL_CNT.count, .w1c, 0⟩]⟩

/-- Every register of block GLB. -/
def regTableGLB : List RegEnt :=
  [GLB_ID.ent, GLB_SYNC.ent, GLB_IDENTITY.ent, GLB_SYNC_SUMMARY.ent, GLB_ERR_STATUS.ent, GLB_EVT_ROUTE.ent, GLB_EVT_STATUS.ent, GLB_EVT_ENABLE.ent, GLB_RESET_CTRL.ent, GLB_RESET_STATUS.ent] ++
  [GLB_BLOCK_RESET.ent, GLB_PORT_RESET.ent, GLB_PWR_STATUS.ent, GLB_PG_PWR.ent, GLB_SMOULDER_CTRL.ent, GLB_SMOULDER_STATUS.ent, GLB_CLK_STATUS.ent, GLB_PWRFAIL_CNT.ent]

/-! ### Block KIN at 0x00100000 (02_kindling_image.md) -/

/-- KIN_ID (01_architecture.md, R34): address and field constants. -/
def KIN_ID.baseAddr : Nat := 0x00100000
def KIN_ID.block_code : Fld := ⟨0x00100000, 0, 0, 24, 8, 1⟩
def KIN_ID.major : Fld := ⟨0x00100000, 0, 0, 16, 8, 1⟩
def KIN_ID.minor : Fld := ⟨0x00100000, 0, 0, 8, 8, 0⟩
def KIN_ID.ent : RegEnt := ⟨0x00100000, 1, 0, 1, 0, [⟨KIN_ID.block_code, .ro, 0⟩, ⟨KIN_ID.major, .ro, 0⟩, ⟨KIN_ID.minor, .ro, 0⟩]⟩

/-- KIN_SYNC (01_architecture.md, R29,R34): address and field constants. -/
def KIN_SYNC.baseAddr : Nat := 0x00100004
def KIN_SYNC.sync_pending : Fld := ⟨0x00100004, 0, 0, 0, 1, 0⟩
def KIN_SYNC.ent : RegEnt := ⟨0x00100004, 1, 0, 1, 0, [⟨KIN_SYNC.sync_pending, .ro, 0⟩]⟩

/-- KIN_STATUS (02_kindling_image.md, R68,R73,R97): address and field constants. -/
def KIN_STATUS.baseAddr : Nat := 0x00100010
def KIN_STATUS.live_busy : Fld := ⟨0x00100010, 0, 0, 6, 1, 0⟩
def KIN_STATUS.trial : Fld := ⟨0x00100010, 0, 0, 5, 1, 0⟩
def KIN_STATUS.slot : Fld := ⟨0x00100010, 0, 0, 4, 1, 0⟩
def KIN_STATUS.state : Fld := ⟨0x00100010, 0, 0, 0, 4, 0⟩
def KIN_STATUS.ent : RegEnt := ⟨0x00100010, 1, 0, 1, 0, [⟨KIN_STATUS.live_busy, .ro, 0⟩, ⟨KIN_STATUS.trial, .ro, 0⟩, ⟨KIN_STATUS.slot, .ro, 0⟩, ⟨KIN_STATUS.state, .ro, 0⟩]⟩

/-- KIN_CTRL (02_kindling_image.md, R70,R83,R85,R86): address and field constants. -/
def KIN_CTRL.baseAddr : Nat := 0x00100014
def KIN_CTRL.confirm_good : Fld := ⟨0x00100014, 0, 0, 8, 1, 0⟩
def KIN_CTRL.slot_select : Fld := ⟨0x00100014, 0, 0, 4, 1, 0⟩
def KIN_CTRL.abort_relight : Fld := ⟨0x00100014, 0, 0, 1, 1, 0⟩
def KIN_CTRL.relight_start : Fld := ⟨0x00100014, 0, 0, 0, 1, 0⟩
def KIN_CTRL.ent : RegEnt := ⟨0x00100014, 1, 0, 1, 0, [⟨KIN_CTRL.confirm_good, .wo, 1⟩, ⟨KIN_CTRL.slot_select, .rw, 1⟩, ⟨KIN_CTRL.abort_relight, .wo, 1⟩, ⟨KIN_CTRL.relight_start, .wo, 1⟩]⟩

/-- KIN_RELIGHT (02_kindling_image.md, R83,R84): address and field constants. -/
def KIN_RELIGHT.baseAddr : Nat := 0x00100018
def KIN_RELIGHT.elapsed_ms : Fld := ⟨0x00100018, 0, 0, 8, 24, 0⟩
def KIN_RELIGHT.step : Fld := ⟨0x00100018, 0, 0, 0, 4, 0⟩
def KIN_RELIGHT.ent : RegEnt := ⟨0x00100018, 1, 0, 1, 0, [⟨KIN_RELIGHT.elapsed_ms, .ro, 16777215⟩, ⟨KIN_RELIGHT.step, .ro, 15⟩]⟩

/-- KIN_ERR (02_kindling_image.md, R71,R86): address and field constants. -/
def KIN_ERR.baseAddr : Nat := 0x0010001C
def KIN_ERR.code : Fld := ⟨0x0010001C, 0, 0, 24, 8, 0⟩
def KIN_ERR.section : Fld := ⟨0x0010001C, 0, 0, 16, 8, 0⟩
def KIN_ERR.patch : Fld := ⟨0x0010001C, 0, 0, 0, 1, 0⟩
def KIN_ERR.ent : RegEnt := ⟨0x0010001C, 1, 0, 1, 0, [⟨KIN_ERR.code, .ro, 255⟩, ⟨KIN_ERR.section, .ro, 255⟩, ⟨KIN_ERR.patch, .ro, 1⟩]⟩

/-- KIN_IMAGE_ID[i] (02_kindling_image.md, R50): address and field constants. -/
def KIN_IMAGE_ID.baseAddr : Nat := 0x00100020
def KIN_IMAGE_ID.id : Fld := ⟨0x00100020, 4, 0, 0, 32, 0⟩
def KIN_IMAGE_ID.ent : RegEnt := ⟨0x00100020, 4, 4, 1, 0, [⟨KIN_IMAGE_ID.id, .ro, 4294967295⟩]⟩

/-- KIN_IMAGE_VER (02_kindling_image.md, R3,R71): address and field constants. -/
def KIN_IMAGE_VER.baseAddr : Nat := 0x00100030
def KIN_IMAGE_VER.format_major : Fld := ⟨0x00100030, 0, 0, 24, 8, 0⟩
def KIN_IMAGE_VER.format_minor : Fld := ⟨0x00100030, 0, 0, 16, 8, 0⟩
def KIN_IMAGE_VER.rollback_version : Fld := ⟨0x00100030, 0, 0, 0, 7, 0⟩
def KIN_IMAGE_VER.ent : RegEnt := ⟨0x00100030, 1, 0, 1, 0, [⟨KIN_IMAGE_VER.format_major, .ro, 255⟩, ⟨KIN_IMAGE_VER.format_minor, .ro, 255⟩, ⟨KIN_IMAGE_VER.rollback_version, .ro, 127⟩]⟩

/-- KIN_SLOT[i] (02_kindling_image.md, R64,R66,R95): address and field constants. -/
def KIN_SLOT.baseAddr : Nat := 0x00100040
def KIN_SLOT.generation : Fld := ⟨0x00100040, 4, 0, 8, 24, 0⟩
def KIN_SLOT.trials : Fld := ⟨0x00100040, 4, 0, 4, 4, 0⟩
def KIN_SLOT.state : Fld := ⟨0x00100040, 4, 0, 0, 2, 0⟩
def KIN_SLOT.ent : RegEnt := ⟨0x00100040, 2, 4, 1, 0, [⟨KIN_SLOT.generation, .ro, 16777215⟩, ⟨KIN_SLOT.trials, .ro, 15⟩, ⟨KIN_SLOT.state, .ro, 3⟩]⟩

/-- KIN_LIVE_STATUS (02_kindling_image.md, R77,R79): address and field constants. -/
def KIN_LIVE_STATUS.baseAddr : Nat := 0x00100050
def KIN_LIVE_STATUS.groups_pending : Fld := ⟨0x00100050, 0, 0, 16, 4, 0⟩
def KIN_LIVE_STATUS.patch_seq : Fld := ⟨0x00100050, 0, 0, 0, 16, 0⟩
def KIN_LIVE_STATUS.ent : RegEnt := ⟨0x00100050, 1, 0, 1, 0, [⟨KIN_LIVE_STATUS.groups_pending, .ro, 15⟩, ⟨KIN_LIVE_STATUS.patch_seq, .ro, 65535⟩]⟩

/-- KIN_MARGIN_PORT (02_kindling_image.md, R63): address and field constants. -/
def KIN_MARGIN_PORT.baseAddr : Nat := 0x00100060
def KIN_MARGIN_PORT.margin : Fld := ⟨0x00100060, 0, 0, 0, 32, 0⟩
def KIN_MARGIN_PORT.ent : RegEnt := ⟨0x00100060, 1, 0, 1, 0, [⟨KIN_MARGIN_PORT.margin, .ro, 0⟩]⟩

/-- KIN_MARGIN_SLICE (02_kindling_image.md, R63): address and field constants. -/
def KIN_MARGIN_SLICE.baseAddr : Nat := 0x00100064
def KIN_MARGIN_SLICE.margin : Fld := ⟨0x00100064, 0, 0, 0, 32, 0⟩
def KIN_MARGIN_SLICE.ent : RegEnt := ⟨0x00100064, 1, 0, 1, 0, [⟨KIN_MARGIN_SLICE.margin, .ro, 0⟩]⟩

/-- KIN_MARGIN_PCH (02_kindling_image.md, R63): address and field constants. -/
def KIN_MARGIN_PCH.baseAddr : Nat := 0x00100068
def KIN_MARGIN_PCH.margin : Fld := ⟨0x00100068, 0, 0, 0, 32, 0⟩
def KIN_MARGIN_PCH.ent : RegEnt := ⟨0x00100068, 1, 0, 1, 0, [⟨KIN_MARGIN_PCH.margin, .ro, 0⟩]⟩

/-- KIN_MARGIN_LSTORE (02_kindling_image.md, R63): address and field constants. -/
def KIN_MARGIN_LSTORE.baseAddr : Nat := 0x0010006C
def KIN_MARGIN_LSTORE.margin : Fld := ⟨0x0010006C, 0, 0, 0, 32, 0⟩
def KIN_MARGIN_LSTORE.ent : RegEnt := ⟨0x0010006C, 1, 0, 1, 0, [⟨KIN_MARGIN_LSTORE.margin, .ro, 0⟩]⟩

/-- KIN_EVT_STATUS (02_kindling_image.md, R38,R97): address and field constants. -/
def KIN_EVT_STATUS.baseAddr : Nat := 0x00100080
def KIN_EVT_STATUS.status : Fld := ⟨0x00100080, 0, 0, 0, 8, 0⟩
def KIN_EVT_STATUS.ent : RegEnt := ⟨0x00100080, 1, 0, 1, 0, [⟨KIN_EVT_STATUS.status, .w1c, 255⟩]⟩

/-- KIN_EVT_ENABLE (02_kindling_image.md, R38,R97): address and field constants. -/
def KIN_EVT_ENABLE.baseAddr : Nat := 0x00100084
def KIN_EVT_ENABLE.enable : Fld := ⟨0x00100084, 0, 0, 0, 8, 0xFF⟩
def KIN_EVT_ENABLE.ent : RegEnt := ⟨0x00100084, 1, 0, 1, 0, [⟨KIN_EVT_ENABLE.enable, .rw, 255⟩]⟩

/-- KIN_LIVE_APPLIED_CNT (02_kindling_image.md, R43,R44,R79): address and field constants. -/
def KIN_LIVE_APPLIED_CNT.baseAddr : Nat := 0x00100090
def KIN_LIVE_APPLIED_CNT.sat : Fld := ⟨0x00100090, 0, 0, 31, 1, 0⟩
def KIN_LIVE_APPLIED_CNT.count : Fld := ⟨0x00100090, 0, 0, 0, 31, 0⟩
def KIN_LIVE_APPLIED_CNT.ent : RegEnt := ⟨0x00100090, 1, 0, 1, 0, [⟨KIN_LIVE_APPLIED_CNT.sat, .w1c, 1⟩, ⟨KIN_LIVE_APPLIED_CNT.count, .w1c, 2147483647⟩]⟩

/-- KIN_LIVE_REJECT_CNT (02_kindling_image.md, R43,R44,R75): address and field constants. -/
def KIN_LIVE_REJECT_CNT.baseAddr : Nat := 0x00100094
def KIN_LIVE_REJECT_CNT.sat : Fld := ⟨0x00100094, 0, 0, 31, 1, 0⟩
def KIN_LIVE_REJECT_CNT.count : Fld := ⟨0x00100094, 0, 0, 0, 31, 0⟩
def KIN_LIVE_REJECT_CNT.ent : RegEnt := ⟨0x00100094, 1, 0, 1, 0, [⟨KIN_LIVE_REJECT_CNT.sat, .w1c, 1⟩, ⟨KIN_LIVE_REJECT_CNT.count, .w1c, 2147483647⟩]⟩

/-- KIN_LIVE_SUPERSEDED_CNT (02_kindling_image.md, R43,R44,R80): address and field constants. -/
def KIN_LIVE_SUPERSEDED_CNT.baseAddr : Nat := 0x00100098
def KIN_LIVE_SUPERSEDED_CNT.sat : Fld := ⟨0x00100098, 0, 0, 31, 1, 0⟩
def KIN_LIVE_SUPERSEDED_CNT.count : Fld := ⟨0x00100098, 0, 0, 0, 31, 0⟩
def KIN_LIVE_SUPERSEDED_CNT.ent : RegEnt := ⟨0x00100098, 1, 0, 1, 0, [⟨KIN_LIVE_SUPERSEDED_CNT.sat, .w1c, 1⟩, ⟨KIN_LIVE_SUPERSEDED_CNT.count, .w1c, 2147483647⟩]⟩

/-- KIN_ABORT_IGNORED_CNT (02_kindling_image.md, R43,R44,R85,R96): address and field constants. -/
def KIN_ABORT_IGNORED_CNT.baseAddr : Nat := 0x0010009C
def KIN_ABORT_IGNORED_CNT.sat : Fld := ⟨0x0010009C, 0, 0, 31, 1, 0⟩
def KIN_ABORT_IGNORED_CNT.count : Fld := ⟨0x0010009C, 0, 0, 0, 31, 0⟩
def KIN_ABORT_IGNORED_CNT.ent : RegEnt := ⟨0x0010009C, 1, 0, 1, 0, [⟨KIN_ABORT_IGNORED_CNT.sat, .w1c, 1⟩, ⟨KIN_ABORT_IGNORED_CNT.count, .w1c, 2147483647⟩]⟩

/-- Every register of block KIN. -/
def regTableKIN : List RegEnt :=
  [KIN_ID.ent, KIN_SYNC.ent, KIN_STATUS.ent, KIN_CTRL.ent, KIN_RELIGHT.ent, KIN_ERR.ent, KIN_IMAGE_ID.ent, KIN_IMAGE_VER.ent, KIN_SLOT.ent, KIN_LIVE_STATUS.ent] ++
  [KIN_MARGIN_PORT.ent, KIN_MARGIN_SLICE.ent, KIN_MARGIN_PCH.ent, KIN_MARGIN_LSTORE.ent, KIN_EVT_STATUS.ent, KIN_EVT_ENABLE.ent, KIN_LIVE_APPLIED_CNT.ent, KIN_LIVE_REJECT_CNT.ent, KIN_LIVE_SUPERSEDED_CNT.ent, KIN_ABORT_IGNORED_CNT.ent]

/-! ### Block ING at 0x00200000 (03_scene_stream.md) -/

/-- ING_ID (01_architecture.md, R34): address and field constants. -/
def ING_ID.baseAddr : Nat := 0x00200000
def ING_ID.block_code : Fld := ⟨0x00200000, 0, 0, 24, 8, 2⟩
def ING_ID.major : Fld := ⟨0x00200000, 0, 0, 16, 8, 1⟩
def ING_ID.minor : Fld := ⟨0x00200000, 0, 0, 8, 8, 0⟩
def ING_ID.ent : RegEnt := ⟨0x00200000, 1, 0, 1, 0, [⟨ING_ID.block_code, .ro, 0⟩, ⟨ING_ID.major, .ro, 0⟩, ⟨ING_ID.minor, .ro, 0⟩]⟩

/-- ING_SYNC (01_architecture.md, R29,R34): address and field constants. -/
def ING_SYNC.baseAddr : Nat := 0x00200004
def ING_SYNC.sync_pending : Fld := ⟨0x00200004, 0, 0, 0, 1, 0⟩
def ING_SYNC.ent : RegEnt := ⟨0x00200004, 1, 0, 1, 0, [⟨ING_SYNC.sync_pending, .ro, 0⟩]⟩

/-- ING_EVT_STATUS (03_scene_stream.md, R38): address and field constants. -/
def ING_EVT_STATUS.baseAddr : Nat := 0x00200080
def ING_EVT_STATUS.status : Fld := ⟨0x00200080, 0, 0, 0, 10, 0⟩
def ING_EVT_STATUS.ent : RegEnt := ⟨0x00200080, 1, 0, 1, 0, [⟨ING_EVT_STATUS.status, .w1c, 0⟩]⟩

/-- ING_EVT_ENABLE (03_scene_stream.md, R38): address and field constants. -/
def ING_EVT_ENABLE.baseAddr : Nat := 0x00200084
def ING_EVT_ENABLE.enable : Fld := ⟨0x00200084, 0, 0, 0, 10, 0x3FE⟩
def ING_EVT_ENABLE.ent : RegEnt := ⟨0x00200084, 1, 0, 1, 0, [⟨ING_EVT_ENABLE.enable, .rw, 0⟩]⟩

/-- ING_LAST_ERR (03_scene_stream.md, R99-R104,R127,R132): address and field constants. -/
def ING_LAST_ERR.baseAddr : Nat := 0x00200090
def ING_LAST_ERR.code : Fld := ⟨0x00200090, 0, 0, 24, 8, 0⟩
def ING_LAST_ERR.group : Fld := ⟨0x00200090, 0, 0, 16, 2, 0⟩
def ING_LAST_ERR.ent : RegEnt := ⟨0x00200090, 1, 0, 1, 0, [⟨ING_LAST_ERR.code, .ro, 0⟩, ⟨ING_LAST_ERR.group, .ro, 0⟩]⟩

/-- ING_LTABLE_LO[i] (03_scene_stream.md, R127): address and field constants. -/
def ING_LTABLE_LO.baseAddr : Nat := 0x00200200
def ING_LTABLE_LO.lengths_lo : Fld := ⟨0x00200200, 8, 0, 0, 32, 0⟩
def ING_LTABLE_LO.ent : RegEnt := ⟨0x00200200, 8, 8, 1, 0, [⟨ING_LTABLE_LO.lengths_lo, .rw, 0⟩]⟩

/-- ING_LTABLE_HI[i] (03_scene_stream.md, R127): address and field constants. -/
def ING_LTABLE_HI.baseAddr : Nat := 0x00200204
def ING_LTABLE_HI.lengths_hi : Fld := ⟨0x00200204, 8, 0, 0, 12, 0⟩
def ING_LTABLE_HI.ent : RegEnt := ⟨0x00200204, 8, 8, 1, 0, [⟨ING_LTABLE_HI.lengths_hi, .rw, 0⟩]⟩

/-- ING_LTABLE_CTRL (03_scene_stream.md, R127,R128): address and field constants. -/
def ING_LTABLE_CTRL.baseAddr : Nat := 0x00200240
def ING_LTABLE_CTRL.valid : Fld := ⟨0x00200240, 0, 0, 8, 8, 0⟩
def ING_LTABLE_CTRL.commit : Fld := ⟨0x00200240, 0, 0, 0, 8, 0⟩
def ING_LTABLE_CTRL.ent : RegEnt := ⟨0x00200240, 1, 0, 1, 0, [⟨ING_LTABLE_CTRL.valid, .ro, 0⟩, ⟨ING_LTABLE_CTRL.commit, .wo, 0⟩]⟩

/-- ING_STREAM_CFG[i] (03_scene_stream.md, R99): address and field constants. -/
def ING_STREAM_CFG.baseAddr : Nat := 0x00201000
def ING_STREAM_CFG.stream_id : Fld := ⟨0x00201000, 256, 0, 16, 16, 0⟩
def ING_STREAM_CFG.eth_mask : Fld := ⟨0x00201000, 256, 0, 12, 4, 0⟩
def ING_STREAM_CFG.slots : Fld := ⟨0x00201000, 256, 0, 8, 4, 0⟩
def ING_STREAM_CFG.enable : Fld := ⟨0x00201000, 256, 0, 0, 1, 0⟩
def ING_STREAM_CFG.ent : RegEnt := ⟨0x00201000, 4, 256, 1, 0, [⟨ING_STREAM_CFG.stream_id, .rw, 0⟩, ⟨ING_STREAM_CFG.eth_mask, .rw, 0⟩, ⟨ING_STREAM_CFG.slots, .ro, 0⟩, ⟨ING_STREAM_CFG.enable, .rw, 0⟩]⟩

/-- ING_STREAM_UDP[i] (03_scene_stream.md, R99): address and field constants. -/
def ING_STREAM_UDP.baseAddr : Nat := 0x00201004
def ING_STREAM_UDP.udp_port : Fld := ⟨0x00201004, 256, 0, 0, 16, 0⟩
def ING_STREAM_UDP.ent : RegEnt := ⟨0x00201004, 4, 256, 1, 0, [⟨ING_STREAM_UDP.udp_port, .rw, 0⟩]⟩

/-- ING_SLOT_STATUS[i] (03_scene_stream.md, R111-R115): address and field constants. -/
def ING_SLOT_STATUS.baseAddr : Nat := 0x00201008
def ING_SLOT_STATUS.in_use : Fld := ⟨0x00201008, 256, 0, 16, 8, 0⟩
def ING_SLOT_STATUS.pending : Fld := ⟨0x00201008, 256, 0, 8, 8, 0⟩
def ING_SLOT_STATUS.source_valid : Fld := ⟨0x00201008, 256, 0, 7, 1, 0⟩
def ING_SLOT_STATUS.source_slot : Fld := ⟨0x00201008, 256, 0, 4, 3, 0⟩
def ING_SLOT_STATUS.scan_valid : Fld := ⟨0x00201008, 256, 0, 3, 1, 0⟩
def ING_SLOT_STATUS.scan_slot : Fld := ⟨0x00201008, 256, 0, 0, 3, 0⟩
def ING_SLOT_STATUS.ent : RegEnt := ⟨0x00201008, 4, 256, 1, 0, [⟨ING_SLOT_STATUS.in_use, .ro, 0⟩, ⟨ING_SLOT_STATUS.pending, .ro, 0⟩, ⟨ING_SLOT_STATUS.source_valid, .ro, 0⟩, ⟨ING_SLOT_STATUS.source_slot, .ro, 0⟩, ⟨ING_SLOT_STATUS.scan_valid, .ro, 0⟩, ⟨ING_SLOT_STATUS.scan_slot, .ro, 0⟩]⟩

/-- ING_ADMIT_FRAME[i] (03_scene_stream.md, R113): address and field constants. -/
def ING_ADMIT_FRAME.baseAddr : Nat := 0x0020100C
def ING_ADMIT_FRAME.frame_number : Fld := ⟨0x0020100C, 256, 0, 0, 32, 0⟩
def ING_ADMIT_FRAME.ent : RegEnt := ⟨0x0020100C, 4, 256, 1, 0, [⟨ING_ADMIT_FRAME.frame_number, .ro, 0⟩]⟩

/-- ING_ADMIT_STATUS[i] (03_scene_stream.md, R115,R117,R119,R21): address and field constants. -/
def ING_ADMIT_STATUS.baseAddr : Nat := 0x00201010
def ING_ADMIT_STATUS.conceal_rows : Fld := ⟨0x00201010, 256, 0, 16, 16, 0⟩
def ING_ADMIT_STATUS.whole : Fld := ⟨0x00201010, 256, 0, 3, 1, 0⟩
def ING_ADMIT_STATUS.emptied : Fld := ⟨0x00201010, 256, 0, 2, 1, 0⟩
def ING_ADMIT_STATUS.concealed : Fld := ⟨0x00201010, 256, 0, 1, 1, 0⟩
def ING_ADMIT_STATUS.repeat : Fld := ⟨0x00201010, 256, 0, 0, 1, 0⟩
def ING_ADMIT_STATUS.ent : RegEnt := ⟨0x00201010, 4, 256, 1, 0, [⟨ING_ADMIT_STATUS.conceal_rows, .ro, 0⟩, ⟨ING_ADMIT_STATUS.whole, .ro, 0⟩, ⟨ING_ADMIT_STATUS.emptied, .ro, 0⟩, ⟨ING_ADMIT_STATUS.concealed, .ro, 0⟩, ⟨ING_ADMIT_STATUS.repeat, .ro, 0⟩]⟩

/-- ING_DUP_PKT_CNT[i] (03_scene_stream.md, R108): address and field constants. -/
def ING_DUP_PKT_CNT.baseAddr : Nat := 0x00201040
def ING_DUP_PKT_CNT.sat : Fld := ⟨0x00201040, 256, 0, 31, 1, 0⟩
def ING_DUP_PKT_CNT.count : Fld := ⟨0x00201040, 256, 0, 0, 31, 0⟩
def ING_DUP_PKT_CNT.ent : RegEnt := ⟨0x00201040, 4, 256, 1, 0, [⟨ING_DUP_PKT_CNT.sat, .w1c, 0⟩, ⟨ING_DUP_PKT_CNT.count, .w1c, 0⟩]⟩

/-- ING_REPAIR_CNT[i] (03_scene_stream.md, R110): address and field constants. -/
def ING_REPAIR_CNT.baseAddr : Nat := 0x00201044
def ING_REPAIR_CNT.sat : Fld := ⟨0x00201044, 256, 0, 31, 1, 0⟩
def ING_REPAIR_CNT.count : Fld := ⟨0x00201044, 256, 0, 0, 31, 0⟩
def ING_REPAIR_CNT.ent : RegEnt := ⟨0x00201044, 4, 256, 1, 0, [⟨ING_REPAIR_CNT.sat, .w1c, 0⟩, ⟨ING_REPAIR_CNT.count, .w1c, 0⟩]⟩

/-- ING_LOST_PKT_CNT[i] (03_scene_stream.md, R119): address and field constants. -/
def ING_LOST_PKT_CNT.baseAddr : Nat := 0x00201048
def ING_LOST_PKT_CNT.sat : Fld := ⟨0x00201048, 256, 0, 31, 1, 0⟩
def ING_LOST_PKT_CNT.count : Fld := ⟨0x00201048, 256, 0, 0, 31, 0⟩
def ING_LOST_PKT_CNT.ent : RegEnt := ⟨0x00201048, 4, 256, 1, 0, [⟨ING_LOST_PKT_CNT.sat, .w1c, 0⟩, ⟨ING_LOST_PKT_CNT.count, .w1c, 0⟩]⟩

/-- ING_CONCEAL_ROW_CNT[i] (03_scene_stream.md, R115,R119): address and field constants. -/
def ING_CONCEAL_ROW_CNT.baseAddr : Nat := 0x0020104C
def ING_CONCEAL_ROW_CNT.sat : Fld := ⟨0x0020104C, 256, 0, 31, 1, 0⟩
def ING_CONCEAL_ROW_CNT.count : Fld := ⟨0x0020104C, 256, 0, 0, 31, 0⟩
def ING_CONCEAL_ROW_CNT.ent : RegEnt := ⟨0x0020104C, 4, 256, 1, 0, [⟨ING_CONCEAL_ROW_CNT.sat, .w1c, 0⟩, ⟨ING_CONCEAL_ROW_CNT.count, .w1c, 0⟩]⟩

/-- ING_REPEAT_CNT[i] (03_scene_stream.md, R21): address and field constants. -/
def ING_REPEAT_CNT.baseAddr : Nat := 0x00201050
def ING_REPEAT_CNT.sat : Fld := ⟨0x00201050, 256, 0, 31, 1, 0⟩
def ING_REPEAT_CNT.count : Fld := ⟨0x00201050, 256, 0, 0, 31, 0⟩
def ING_REPEAT_CNT.ent : RegEnt := ⟨0x00201050, 4, 256, 1, 0, [⟨ING_REPEAT_CNT.sat, .w1c, 0⟩, ⟨ING_REPEAT_CNT.count, .w1c, 0⟩]⟩

/-- ING_LATE_FRAME_CNT[i] (03_scene_stream.md, R112): address and field constants. -/
def ING_LATE_FRAME_CNT.baseAddr : Nat := 0x00201054
def ING_LATE_FRAME_CNT.sat : Fld := ⟨0x00201054, 256, 0, 31, 1, 0⟩
def ING_LATE_FRAME_CNT.count : Fld := ⟨0x00201054, 256, 0, 0, 31, 0⟩
def ING_LATE_FRAME_CNT.ent : RegEnt := ⟨0x00201054, 4, 256, 1, 0, [⟨ING_LATE_FRAME_CNT.sat, .w1c, 0⟩, ⟨ING_LATE_FRAME_CNT.count, .w1c, 0⟩]⟩

/-- ING_SLOT_OVERFLOW_CNT[i] (03_scene_stream.md, R111): address and field constants. -/
def ING_SLOT_OVERFLOW_CNT.baseAddr : Nat := 0x00201058
def ING_SLOT_OVERFLOW_CNT.sat : Fld := ⟨0x00201058, 256, 0, 31, 1, 0⟩
def ING_SLOT_OVERFLOW_CNT.count : Fld := ⟨0x00201058, 256, 0, 0, 31, 0⟩
def ING_SLOT_OVERFLOW_CNT.ent : RegEnt := ⟨0x00201058, 4, 256, 1, 0, [⟨ING_SLOT_OVERFLOW_CNT.sat, .w1c, 0⟩, ⟨ING_SLOT_OVERFLOW_CNT.count, .w1c, 0⟩]⟩

/-- ING_PKT_ERR_CNT[i] (03_scene_stream.md, R99,R100): address and field constants. -/
def ING_PKT_ERR_CNT.baseAddr : Nat := 0x0020105C
def ING_PKT_ERR_CNT.sat : Fld := ⟨0x0020105C, 256, 0, 31, 1, 0⟩
def ING_PKT_ERR_CNT.count : Fld := ⟨0x0020105C, 256, 0, 0, 31, 0⟩
def ING_PKT_ERR_CNT.ent : RegEnt := ⟨0x0020105C, 4, 256, 1, 0, [⟨ING_PKT_ERR_CNT.sat, .w1c, 0⟩, ⟨ING_PKT_ERR_CNT.count, .w1c, 0⟩]⟩

/-- ING_LATE_PKT_CNT[i] (03_scene_stream.md, R114): address and field constants. -/
def ING_LATE_PKT_CNT.baseAddr : Nat := 0x00201060
def ING_LATE_PKT_CNT.sat : Fld := ⟨0x00201060, 256, 0, 31, 1, 0⟩
def ING_LATE_PKT_CNT.count : Fld := ⟨0x00201060, 256, 0, 0, 31, 0⟩
def ING_LATE_PKT_CNT.ent : RegEnt := ⟨0x00201060, 4, 256, 1, 0, [⟨ING_LATE_PKT_CNT.sat, .w1c, 0⟩, ⟨ING_LATE_PKT_CNT.count, .w1c, 0⟩]⟩

/-- ING_LINOR_ERR_CNT[i] (03_scene_stream.md, R132): address and field constants. -/
def ING_LINOR_ERR_CNT.baseAddr : Nat := 0x00201064
def ING_LINOR_ERR_CNT.sat : Fld := ⟨0x00201064, 256, 0, 31, 1, 0⟩
def ING_LINOR_ERR_CNT.count : Fld := ⟨0x00201064, 256, 0, 0, 31, 0⟩
def ING_LINOR_ERR_CNT.ent : RegEnt := ⟨0x00201064, 4, 256, 1, 0, [⟨ING_LINOR_ERR_CNT.sat, .w1c, 0⟩, ⟨ING_LINOR_ERR_CNT.count, .w1c, 0⟩]⟩

/-- ING_LAYER_ERR_CNT[i] (03_scene_stream.md, R104,R604): address and field constants. -/
def ING_LAYER_ERR_CNT.baseAddr : Nat := 0x00201068
def ING_LAYER_ERR_CNT.sat : Fld := ⟨0x00201068, 256, 0, 31, 1, 0⟩
def ING_LAYER_ERR_CNT.count : Fld := ⟨0x00201068, 256, 0, 0, 31, 0⟩
def ING_LAYER_ERR_CNT.ent : RegEnt := ⟨0x00201068, 4, 256, 1, 0, [⟨ING_LAYER_ERR_CNT.sat, .w1c, 0⟩, ⟨ING_LAYER_ERR_CNT.count, .w1c, 0⟩]⟩

/-- Every register of block ING. -/
def regTableING : List RegEnt :=
  [ING_ID.ent, ING_SYNC.ent, ING_EVT_STATUS.ent, ING_EVT_ENABLE.ent, ING_LAST_ERR.ent, ING_LTABLE_LO.ent, ING_LTABLE_HI.ent, ING_LTABLE_CTRL.ent, ING_STREAM_CFG.ent, ING_STREAM_UDP.ent] ++
  [ING_SLOT_STATUS.ent, ING_ADMIT_FRAME.ent, ING_ADMIT_STATUS.ent, ING_DUP_PKT_CNT.ent, ING_REPAIR_CNT.ent, ING_LOST_PKT_CNT.ent, ING_CONCEAL_ROW_CNT.ent, ING_REPEAT_CNT.ent, ING_LATE_FRAME_CNT.ent, ING_SLOT_OVERFLOW_CNT.ent] ++
  [ING_PKT_ERR_CNT.ent, ING_LATE_PKT_CNT.ent, ING_LINOR_ERR_CNT.ent, ING_LAYER_ERR_CNT.ent]

/-! ### Block RAY at 0x00300000 (04_ray_synthesis.md) -/

/-- RAY_ID (01_architecture.md, R34): address and field constants. -/
def RAY_ID.baseAddr : Nat := 0x00300000
def RAY_ID.block_code : Fld := ⟨0x00300000, 0, 0, 24, 8, 3⟩
def RAY_ID.major : Fld := ⟨0x00300000, 0, 0, 16, 8, 1⟩
def RAY_ID.minor : Fld := ⟨0x00300000, 0, 0, 8, 8, 0⟩
def RAY_ID.ent : RegEnt := ⟨0x00300000, 1, 0, 1, 0, [⟨RAY_ID.block_code, .ro, 0⟩, ⟨RAY_ID.major, .ro, 0⟩, ⟨RAY_ID.minor, .ro, 0⟩]⟩

/-- RAY_SYNC (01_architecture.md, R29,R34): address and field constants. -/
def RAY_SYNC.baseAddr : Nat := 0x00300004
def RAY_SYNC.sync_pending : Fld := ⟨0x00300004, 0, 0, 0, 1, 0⟩
def RAY_SYNC.ent : RegEnt := ⟨0x00300004, 1, 0, 1, 0, [⟨RAY_SYNC.sync_pending, .ro, 0⟩]⟩

/-- RAY_STATUS (04_ray_synthesis.md, R162,R164): address and field constants. -/
def RAY_STATUS.baseAddr : Nat := 0x00300010
def RAY_STATUS.failed : Fld := ⟨0x00300010, 0, 0, 16, 8, 0⟩
def RAY_STATUS.active_ports : Fld := ⟨0x00300010, 0, 0, 8, 8, 0⟩
def RAY_STATUS.spares_free : Fld := ⟨0x00300010, 0, 0, 0, 4, 0⟩
def RAY_STATUS.ent : RegEnt := ⟨0x00300010, 1, 0, 1, 0, [⟨RAY_STATUS.failed, .ro, 0⟩, ⟨RAY_STATUS.active_ports, .ro, 0⟩, ⟨RAY_STATUS.spares_free, .ro, 0⟩]⟩

/-- RAY_SPARE_STATUS (04_ray_synthesis.md, R56,R164): address and field constants. -/
def RAY_SPARE_STATUS.baseAddr : Nat := 0x00300014
def RAY_SPARE_STATUS.in_use3 : Fld := ⟨0x00300014, 0, 0, 31, 1, 0⟩
def RAY_SPARE_STATUS.failed3 : Fld := ⟨0x00300014, 0, 0, 30, 1, 0⟩
def RAY_SPARE_STATUS.manual3 : Fld := ⟨0x00300014, 0, 0, 29, 1, 0⟩
def RAY_SPARE_STATUS.replaced3 : Fld := ⟨0x00300014, 0, 0, 24, 5, 0⟩
def RAY_SPARE_STATUS.in_use2 : Fld := ⟨0x00300014, 0, 0, 23, 1, 0⟩
def RAY_SPARE_STATUS.failed2 : Fld := ⟨0x00300014, 0, 0, 22, 1, 0⟩
def RAY_SPARE_STATUS.manual2 : Fld := ⟨0x00300014, 0, 0, 21, 1, 0⟩
def RAY_SPARE_STATUS.replaced2 : Fld := ⟨0x00300014, 0, 0, 16, 5, 0⟩
def RAY_SPARE_STATUS.in_use1 : Fld := ⟨0x00300014, 0, 0, 15, 1, 0⟩
def RAY_SPARE_STATUS.failed1 : Fld := ⟨0x00300014, 0, 0, 14, 1, 0⟩
def RAY_SPARE_STATUS.manual1 : Fld := ⟨0x00300014, 0, 0, 13, 1, 0⟩
def RAY_SPARE_STATUS.replaced1 : Fld := ⟨0x00300014, 0, 0, 8, 5, 0⟩
def RAY_SPARE_STATUS.in_use0 : Fld := ⟨0x00300014, 0, 0, 7, 1, 0⟩
def RAY_SPARE_STATUS.failed0 : Fld := ⟨0x00300014, 0, 0, 6, 1, 0⟩
def RAY_SPARE_STATUS.manual0 : Fld := ⟨0x00300014, 0, 0, 5, 1, 0⟩
def RAY_SPARE_STATUS.replaced0 : Fld := ⟨0x00300014, 0, 0, 0, 5, 0⟩
def RAY_SPARE_STATUS.ent : RegEnt := ⟨0x00300014, 1, 0, 1, 0, [⟨RAY_SPARE_STATUS.in_use3, .ro, 0⟩, ⟨RAY_SPARE_STATUS.failed3, .ro, 0⟩, ⟨RAY_SPARE_STATUS.manual3, .ro, 0⟩, ⟨RAY_SPARE_STATUS.replaced3, .ro, 0⟩, ⟨RAY_SPARE_STATUS.in_use2, .ro, 0⟩, ⟨RAY_SPARE_STATUS.failed2, .ro, 0⟩, ⟨RAY_SPARE_STATUS.manual2, .ro, 0⟩, ⟨RAY_SPARE_STATUS.replaced2, .ro, 0⟩, ⟨RAY_SPARE_STATUS.in_use1, .ro, 0⟩, ⟨RAY_SPARE_STATUS.failed1, .ro, 0⟩, ⟨RAY_SPARE_STATUS.manual1, .ro, 0⟩, ⟨RAY_SPARE_STATUS.replaced1, .ro, 0⟩, ⟨RAY_SPARE_STATUS.in_use0, .ro, 0⟩, ⟨RAY_SPARE_STATUS.failed0, .ro, 0⟩, ⟨RAY_SPARE_STATUS.manual0, .ro, 0⟩, ⟨RAY_SPARE_STATUS.replaced0, .ro, 0⟩]⟩

/-- RAY_SPARE_CTRL (04_ray_synthesis.md, R161,R165): address and field constants. -/
def RAY_SPARE_CTRL.baseAddr : Nat := 0x00300018
def RAY_SPARE_CTRL.takeover : Fld := ⟨0x00300018, 0, 0, 31, 1, 0⟩
def RAY_SPARE_CTRL.force_fail : Fld := ⟨0x00300018, 0, 0, 30, 1, 0⟩
def RAY_SPARE_CTRL.slice : Fld := ⟨0x00300018, 0, 0, 0, 7, 0⟩
def RAY_SPARE_CTRL.ent : RegEnt := ⟨0x00300018, 1, 0, 1, 0, [⟨RAY_SPARE_CTRL.takeover, .wo, 1⟩, ⟨RAY_SPARE_CTRL.force_fail, .wo, 1⟩, ⟨RAY_SPARE_CTRL.slice, .rw, 127⟩]⟩

/-- RAY_FAILED[i] (04_ray_synthesis.md, R162): address and field constants. -/
def RAY_FAILED.baseAddr : Nat := 0x00300020
def RAY_FAILED.failed : Fld := ⟨0x00300020, 4, 0, 0, 32, 0⟩
def RAY_FAILED.ent : RegEnt := ⟨0x00300020, 4, 4, 1, 0, [⟨RAY_FAILED.failed, .ro, 0⟩]⟩

/-- RAY_BELLOWS_WM (04_ray_synthesis.md, R156,R169): address and field constants. -/
def RAY_BELLOWS_WM.baseAddr : Nat := 0x00300030
def RAY_BELLOWS_WM.high : Fld := ⟨0x00300030, 0, 0, 4, 3, 4⟩
def RAY_BELLOWS_WM.low : Fld := ⟨0x00300030, 0, 0, 0, 3, 2⟩
def RAY_BELLOWS_WM.ent : RegEnt := ⟨0x00300030, 1, 0, 1, 0, [⟨RAY_BELLOWS_WM.high, .rw, 0⟩, ⟨RAY_BELLOWS_WM.low, .rw, 0⟩]⟩

/-- RAY_EVT_STATUS (04_ray_synthesis.md, R38): address and field constants. -/
def RAY_EVT_STATUS.baseAddr : Nat := 0x00300080
def RAY_EVT_STATUS.status : Fld := ⟨0x00300080, 0, 0, 0, 6, 0⟩
def RAY_EVT_STATUS.ent : RegEnt := ⟨0x00300080, 1, 0, 1, 0, [⟨RAY_EVT_STATUS.status, .w1c, 0⟩]⟩

/-- RAY_EVT_ENABLE (04_ray_synthesis.md, R38): address and field constants. -/
def RAY_EVT_ENABLE.baseAddr : Nat := 0x00300084
def RAY_EVT_ENABLE.enable : Fld := ⟨0x00300084, 0, 0, 0, 6, 0x0F⟩
def RAY_EVT_ENABLE.ent : RegEnt := ⟨0x00300084, 1, 0, 1, 0, [⟨RAY_EVT_ENABLE.enable, .rw, 0⟩]⟩

/-- RAY_LAST_FAULT (04_ray_synthesis.md, R162): address and field constants. -/
def RAY_LAST_FAULT.baseAddr : Nat := 0x00300090
def RAY_LAST_FAULT.slice : Fld := ⟨0x00300090, 0, 0, 24, 7, 0⟩
def RAY_LAST_FAULT.cause : Fld := ⟨0x00300090, 0, 0, 0, 4, 0⟩
def RAY_LAST_FAULT.ent : RegEnt := ⟨0x00300090, 1, 0, 1, 0, [⟨RAY_LAST_FAULT.slice, .ro, 0⟩, ⟨RAY_LAST_FAULT.cause, .ro, 0⟩]⟩

/-- RAY_PORT_SLICE[i] (04_ray_synthesis.md, R56,R164): address and field constants. -/
def RAY_PORT_SLICE.baseAddr : Nat := 0x00300200
def RAY_PORT_SLICE.served : Fld := ⟨0x00300200, 4, 0, 7, 1, 0⟩
def RAY_PORT_SLICE.slice : Fld := ⟨0x00300200, 4, 0, 0, 7, 0⟩
def RAY_PORT_SLICE.ent : RegEnt := ⟨0x00300200, 96, 4, 1, 0, [⟨RAY_PORT_SLICE.served, .ro, 0⟩, ⟨RAY_PORT_SLICE.slice, .ro, 0⟩]⟩

/-- RAY_COEFF_SEL[i][j] (04_ray_synthesis.md, R144,R145): address and field constants. -/
def RAY_COEFF_SEL.baseAddr : Nat := 0x00300400
def RAY_COEFF_SEL.active_en : Fld := ⟨0x00300400, 256, 4, 17, 1, 0⟩
def RAY_COEFF_SEL.pending_en : Fld := ⟨0x00300400, 256, 4, 16, 1, 0⟩
def RAY_COEFF_SEL.active_set : Fld := ⟨0x00300400, 256, 4, 8, 5, 0⟩
def RAY_COEFF_SEL.pending_set : Fld := ⟨0x00300400, 256, 4, 0, 5, 0⟩
def RAY_COEFF_SEL.ent : RegEnt := ⟨0x00300400, 4, 256, 64, 4, [⟨RAY_COEFF_SEL.active_en, .ro, 0⟩, ⟨RAY_COEFF_SEL.pending_en, .rw, 0⟩, ⟨RAY_COEFF_SEL.active_set, .ro, 0⟩, ⟨RAY_COEFF_SEL.pending_set, .rw, 0⟩]⟩

/-- RAY_BF_STATUS[i] (04_ray_synthesis.md, R152,R156): address and field constants. -/
def RAY_BF_STATUS.baseAddr : Nat := 0x00300800
def RAY_BF_STATUS.streams : Fld := ⟨0x00300800, 64, 0, 4, 4, 0⟩
def RAY_BF_STATUS.bellows : Fld := ⟨0x00300800, 64, 0, 0, 1, 0⟩
def RAY_BF_STATUS.ent : RegEnt := ⟨0x00300800, 16, 64, 1, 0, [⟨RAY_BF_STATUS.streams, .ro, 0⟩, ⟨RAY_BF_STATUS.bellows, .ro, 0⟩]⟩

/-- RAY_BF_LOAD[i] (04_ray_synthesis.md, R152): address and field constants. -/
def RAY_BF_LOAD.baseAddr : Nat := 0x00300804
def RAY_BF_LOAD.load : Fld := ⟨0x00300804, 64, 0, 0, 32, 0⟩
def RAY_BF_LOAD.ent : RegEnt := ⟨0x00300804, 16, 64, 1, 0, [⟨RAY_BF_LOAD.load, .ro, 0⟩]⟩

/-- RAY_BF_BELLOWS_CNT[i] (04_ray_synthesis.md, R156): address and field constants. -/
def RAY_BF_BELLOWS_CNT.baseAddr : Nat := 0x00300808
def RAY_BF_BELLOWS_CNT.sat : Fld := ⟨0x00300808, 64, 0, 31, 1, 0⟩
def RAY_BF_BELLOWS_CNT.count : Fld := ⟨0x00300808, 64, 0, 0, 31, 0⟩
def RAY_BF_BELLOWS_CNT.ent : RegEnt := ⟨0x00300808, 16, 64, 1, 0, [⟨RAY_BF_BELLOWS_CNT.sat, .w1c, 0⟩, ⟨RAY_BF_BELLOWS_CNT.count, .w1c, 0⟩]⟩

/-- RAY_SLICE_STATUS[i] (04_ray_synthesis.md, R161,R164): address and field constants. -/
def RAY_SLICE_STATUS.baseAddr : Nat := 0x00310000
def RAY_SLICE_STATUS.state : Fld := ⟨0x00310000, 4096, 0, 28, 2, 0⟩
def RAY_SLICE_STATUS.spare : Fld := ⟨0x00310000, 4096, 0, 8, 1, 0⟩
def RAY_SLICE_STATUS.port : Fld := ⟨0x00310000, 4096, 0, 0, 7, 0⟩
def RAY_SLICE_STATUS.ent : RegEnt := ⟨0x00310000, 100, 4096, 1, 0, [⟨RAY_SLICE_STATUS.state, .ro, 0⟩, ⟨RAY_SLICE_STATUS.spare, .ro, 0⟩, ⟨RAY_SLICE_STATUS.port, .ro, 0⟩]⟩

/-- RAY_SLICE_LEAD[i] (04_ray_synthesis.md, R155,R6): address and field constants. -/
def RAY_SLICE_LEAD.baseAddr : Nat := 0x00310004
def RAY_SLICE_LEAD.low_mark : Fld := ⟨0x00310004, 4096, 0, 16, 3, 4⟩
def RAY_SLICE_LEAD.lead : Fld := ⟨0x00310004, 4096, 0, 0, 3, 0⟩
def RAY_SLICE_LEAD.ent : RegEnt := ⟨0x00310004, 100, 4096, 1, 0, [⟨RAY_SLICE_LEAD.low_mark, .rc, 0⟩, ⟨RAY_SLICE_LEAD.lead, .ro, 0⟩]⟩

/-- RAY_GATED_LAST[i] (04_ray_synthesis.md, R160): address and field constants. -/
def RAY_GATED_LAST.baseAddr : Nat := 0x00310008
def RAY_GATED_LAST.gated : Fld := ⟨0x00310008, 4096, 0, 0, 32, 0⟩
def RAY_GATED_LAST.ent : RegEnt := ⟨0x00310008, 100, 4096, 1, 0, [⟨RAY_GATED_LAST.gated, .ro, 0⟩]⟩

/-- RAY_BAND_MISS_CNT[i] (04_ray_synthesis.md, R157): address and field constants. -/
def RAY_BAND_MISS_CNT.baseAddr : Nat := 0x00310010
def RAY_BAND_MISS_CNT.sat : Fld := ⟨0x00310010, 4096, 0, 31, 1, 0⟩
def RAY_BAND_MISS_CNT.count : Fld := ⟨0x00310010, 4096, 0, 0, 31, 0⟩
def RAY_BAND_MISS_CNT.ent : RegEnt := ⟨0x00310010, 100, 4096, 1, 0, [⟨RAY_BAND_MISS_CNT.sat, .w1c, 0⟩, ⟨RAY_BAND_MISS_CNT.count, .w1c, 0⟩]⟩

/-- RAY_ECC_CORR_CNT[i] (04_ray_synthesis.md, R161): address and field constants. -/
def RAY_ECC_CORR_CNT.baseAddr : Nat := 0x00310014
def RAY_ECC_CORR_CNT.sat : Fld := ⟨0x00310014, 4096, 0, 31, 1, 0⟩
def RAY_ECC_CORR_CNT.count : Fld := ⟨0x00310014, 4096, 0, 0, 31, 0⟩
def RAY_ECC_CORR_CNT.ent : RegEnt := ⟨0x00310014, 100, 4096, 1, 0, [⟨RAY_ECC_CORR_CNT.sat, .w1c, 0⟩, ⟨RAY_ECC_CORR_CNT.count, .w1c, 0⟩]⟩

/-- Every register of block RAY. -/
def regTableRAY : List RegEnt :=
  [RAY_ID.ent, RAY_SYNC.ent, RAY_STATUS.ent, RAY_SPARE_STATUS.ent, RAY_SPARE_CTRL.ent, RAY_FAILED.ent, RAY_BELLOWS_WM.ent, RAY_EVT_STATUS.ent, RAY_EVT_ENABLE.ent, RAY_LAST_FAULT.ent] ++
  [RAY_PORT_SLICE.ent, RAY_COEFF_SEL.ent, RAY_BF_STATUS.ent, RAY_BF_LOAD.ent, RAY_BF_BELLOWS_CNT.ent, RAY_SLICE_STATUS.ent, RAY_SLICE_LEAD.ent, RAY_GATED_LAST.ent, RAY_BAND_MISS_CNT.ent, RAY_ECC_CORR_CNT.ent]

/-! ### Block CMP at 0x00400000 (05_composition.md) -/

/-- CMP_ID (01_architecture.md, R34): address and field constants. -/
def CMP_ID.baseAddr : Nat := 0x00400000
def CMP_ID.block_code : Fld := ⟨0x00400000, 0, 0, 24, 8, 4⟩
def CMP_ID.major : Fld := ⟨0x00400000, 0, 0, 16, 8, 1⟩
def CMP_ID.minor : Fld := ⟨0x00400000, 0, 0, 8, 8, 0⟩
def CMP_ID.ent : RegEnt := ⟨0x00400000, 1, 0, 1, 0, [⟨CMP_ID.block_code, .ro, 0⟩, ⟨CMP_ID.major, .ro, 0⟩, ⟨CMP_ID.minor, .ro, 0⟩]⟩

/-- CMP_SYNC (01_architecture.md, R29,R34): address and field constants. -/
def CMP_SYNC.baseAddr : Nat := 0x00400004
def CMP_SYNC.sync_pending : Fld := ⟨0x00400004, 0, 0, 0, 1, 0⟩
def CMP_SYNC.ent : RegEnt := ⟨0x00400004, 1, 0, 1, 0, [⟨CMP_SYNC.sync_pending, .ro, 0⟩]⟩

/-- CMP_EVT_STATUS (05_composition.md, R38): address and field constants. -/
def CMP_EVT_STATUS.baseAddr : Nat := 0x00400080
def CMP_EVT_STATUS.status : Fld := ⟨0x00400080, 0, 0, 0, 5, 0⟩
def CMP_EVT_STATUS.ent : RegEnt := ⟨0x00400080, 1, 0, 1, 0, [⟨CMP_EVT_STATUS.status, .w1c, 0⟩]⟩

/-- CMP_EVT_ENABLE (05_composition.md, R38): address and field constants. -/
def CMP_EVT_ENABLE.baseAddr : Nat := 0x00400084
def CMP_EVT_ENABLE.enable : Fld := ⟨0x00400084, 0, 0, 0, 5, 0x1E⟩
def CMP_EVT_ENABLE.ent : RegEnt := ⟨0x00400084, 1, 0, 1, 0, [⟨CMP_EVT_ENABLE.enable, .rw, 0⟩]⟩

/-- CMP_MAP_LAST_ERR (05_composition.md, R195): address and field constants. -/
def CMP_MAP_LAST_ERR.baseAddr : Nat := 0x00400090
def CMP_MAP_LAST_ERR.code : Fld := ⟨0x00400090, 0, 0, 24, 8, 0⟩
def CMP_MAP_LAST_ERR.port : Fld := ⟨0x00400090, 0, 0, 16, 7, 0⟩
def CMP_MAP_LAST_ERR.line : Fld := ⟨0x00400090, 0, 0, 0, 12, 0⟩
def CMP_MAP_LAST_ERR.ent : RegEnt := ⟨0x00400090, 1, 0, 1, 0, [⟨CMP_MAP_LAST_ERR.code, .ro, 0⟩, ⟨CMP_MAP_LAST_ERR.port, .ro, 0⟩, ⟨CMP_MAP_LAST_ERR.line, .ro, 0⟩]⟩

/-- CMP_OVL_CFG[i] (05_composition.md, R181,R183): address and field constants. -/
def CMP_OVL_CFG.baseAddr : Nat := 0x00400100
def CMP_OVL_CFG.active_en : Fld := ⟨0x00400100, 64, 0, 17, 1, 0⟩
def CMP_OVL_CFG.pending_en : Fld := ⟨0x00400100, 64, 0, 16, 1, 0⟩
def CMP_OVL_CFG.active_bank : Fld := ⟨0x00400100, 64, 0, 9, 1, 0⟩
def CMP_OVL_CFG.pending_bank : Fld := ⟨0x00400100, 64, 0, 8, 1, 0⟩
def CMP_OVL_CFG.ent : RegEnt := ⟨0x00400100, 4, 64, 1, 0, [⟨CMP_OVL_CFG.active_en, .ro, 0⟩, ⟨CMP_OVL_CFG.pending_en, .rw, 0⟩, ⟨CMP_OVL_CFG.active_bank, .ro, 0⟩, ⟨CMP_OVL_CFG.pending_bank, .rw, 0⟩]⟩

/-- CMP_OVL_BASE_LO[i] (05_composition.md, R183,R206): address and field constants. -/
def CMP_OVL_BASE_LO.baseAddr : Nat := 0x00400104
def CMP_OVL_BASE_LO.base_lo : Fld := ⟨0x00400104, 64, 0, 0, 32, 0⟩
def CMP_OVL_BASE_LO.ent : RegEnt := ⟨0x00400104, 4, 64, 1, 0, [⟨CMP_OVL_BASE_LO.base_lo, .rw, 0⟩]⟩

/-- CMP_OVL_BASE_HI[i] (05_composition.md, R183): address and field constants. -/
def CMP_OVL_BASE_HI.baseAddr : Nat := 0x00400108
def CMP_OVL_BASE_HI.base_hi : Fld := ⟨0x00400108, 64, 0, 0, 4, 0⟩
def CMP_OVL_BASE_HI.ent : RegEnt := ⟨0x00400108, 4, 64, 1, 0, [⟨CMP_OVL_BASE_HI.base_hi, .rw, 0⟩]⟩

/-- CMP_OVL_PITCH[i] (05_composition.md, R183,R206): address and field constants. -/
def CMP_OVL_PITCH.baseAddr : Nat := 0x0040010C
def CMP_OVL_PITCH.pitch : Fld := ⟨0x0040010C, 64, 0, 0, 16, 0⟩
def CMP_OVL_PITCH.ent : RegEnt := ⟨0x0040010C, 4, 64, 1, 0, [⟨CMP_OVL_PITCH.pitch, .rw, 0⟩]⟩

/-- CMP_GROUP_FMT[i] (05_composition.md, R172,R174): address and field constants. -/
def CMP_GROUP_FMT.baseAddr : Nat := 0x00400110
def CMP_GROUP_FMT.none : Fld := ⟨0x00400110, 64, 0, 9, 1, 1⟩
def CMP_GROUP_FMT.full_range : Fld := ⟨0x00400110, 64, 0, 8, 1, 0⟩
def CMP_GROUP_FMT.format : Fld := ⟨0x00400110, 64, 0, 0, 8, 0⟩
def CMP_GROUP_FMT.ent : RegEnt := ⟨0x00400110, 4, 64, 1, 0, [⟨CMP_GROUP_FMT.none, .ro, 0⟩, ⟨CMP_GROUP_FMT.full_range, .ro, 0⟩, ⟨CMP_GROUP_FMT.format, .ro, 0⟩]⟩

/-- CMP_FMT_MISMATCH_CNT[i] (05_composition.md, R173): address and field constants. -/
def CMP_FMT_MISMATCH_CNT.baseAddr : Nat := 0x00400120
def CMP_FMT_MISMATCH_CNT.sat : Fld := ⟨0x00400120, 64, 0, 31, 1, 0⟩
def CMP_FMT_MISMATCH_CNT.count : Fld := ⟨0x00400120, 64, 0, 0, 31, 0⟩
def CMP_FMT_MISMATCH_CNT.ent : RegEnt := ⟨0x00400120, 4, 64, 1, 0, [⟨CMP_FMT_MISMATCH_CNT.sat, .w1c, 0⟩, ⟨CMP_FMT_MISMATCH_CNT.count, .w1c, 0⟩]⟩

/-- CMP_OVL_FAULT_CNT[i] (05_composition.md, R182,R206): address and field constants. -/
def CMP_OVL_FAULT_CNT.baseAddr : Nat := 0x00400124
def CMP_OVL_FAULT_CNT.sat : Fld := ⟨0x00400124, 64, 0, 31, 1, 0⟩
def CMP_OVL_FAULT_CNT.count : Fld := ⟨0x00400124, 64, 0, 0, 31, 0⟩
def CMP_OVL_FAULT_CNT.ent : RegEnt := ⟨0x00400124, 4, 64, 1, 0, [⟨CMP_OVL_FAULT_CNT.sat, .w1c, 0⟩, ⟨CMP_OVL_FAULT_CNT.count, .w1c, 0⟩]⟩

/-- CMP_OVL_PAL_LO[i][j] (05_composition.md, R180,R183): address and field constants. -/
def CMP_OVL_PAL_LO.baseAddr : Nat := 0x00401000
def CMP_OVL_PAL_LO.g : Fld := ⟨0x00401000, 2048, 8, 16, 16, 0⟩
def CMP_OVL_PAL_LO.b : Fld := ⟨0x00401000, 2048, 8, 0, 16, 0⟩
def CMP_OVL_PAL_LO.ent : RegEnt := ⟨0x00401000, 2, 2048, 256, 8, [⟨CMP_OVL_PAL_LO.g, .rw, 0⟩, ⟨CMP_OVL_PAL_LO.b, .rw, 0⟩]⟩

/-- CMP_OVL_PAL_HI[i][j] (05_composition.md, R180,R183): address and field constants. -/
def CMP_OVL_PAL_HI.baseAddr : Nat := 0x00401004
def CMP_OVL_PAL_HI.a : Fld := ⟨0x00401004, 2048, 8, 16, 16, 0⟩
def CMP_OVL_PAL_HI.r : Fld := ⟨0x00401004, 2048, 8, 0, 16, 0⟩
def CMP_OVL_PAL_HI.ent : RegEnt := ⟨0x00401004, 2, 2048, 256, 8, [⟨CMP_OVL_PAL_HI.a, .rw, 0⟩, ⟨CMP_OVL_PAL_HI.r, .rw, 0⟩]⟩

/-- CMP_PORT_SEL[i] (05_composition.md, R179,R198,R199): address and field constants. -/
def CMP_PORT_SEL.baseAddr : Nat := 0x00402000
def CMP_PORT_SEL.active_xfer : Fld := ⟨0x00402000, 32, 0, 16, 3, 0⟩
def CMP_PORT_SEL.dither_off : Fld := ⟨0x00402000, 32, 0, 8, 1, 0⟩
def CMP_PORT_SEL.pending_xfer : Fld := ⟨0x00402000, 32, 0, 0, 3, 0⟩
def CMP_PORT_SEL.ent : RegEnt := ⟨0x00402000, 96, 32, 1, 0, [⟨CMP_PORT_SEL.active_xfer, .ro, 0⟩, ⟨CMP_PORT_SEL.dither_off, .rw, 0⟩, ⟨CMP_PORT_SEL.pending_xfer, .rw, 0⟩]⟩

/-- CMP_MAP_CTRL[i] (05_composition.md, R189): address and field constants. -/
def CMP_MAP_CTRL.baseAddr : Nat := 0x00402004
def CMP_MAP_CTRL.commit : Fld := ⟨0x00402004, 32, 0, 31, 1, 0⟩
def CMP_MAP_CTRL.buffer : Fld := ⟨0x00402004, 32, 0, 0, 1, 0⟩
def CMP_MAP_CTRL.ent : RegEnt := ⟨0x00402004, 96, 32, 1, 0, [⟨CMP_MAP_CTRL.commit, .wo, 0⟩, ⟨CMP_MAP_CTRL.buffer, .rw, 0⟩]⟩

/-- CMP_MAP_STATUS[i] (05_composition.md, R189-R191,R59): address and field constants. -/
def CMP_MAP_STATUS.baseAddr : Nat := 0x00402008
def CMP_MAP_STATUS.absent : Fld := ⟨0x00402008, 32, 0, 31, 1, 0⟩
def CMP_MAP_STATUS.checking : Fld := ⟨0x00402008, 32, 0, 30, 1, 0⟩
def CMP_MAP_STATUS.pending : Fld := ⟨0x00402008, 32, 0, 29, 1, 0⟩
def CMP_MAP_STATUS.active_buf : Fld := ⟨0x00402008, 32, 0, 28, 1, 0⟩
def CMP_MAP_STATUS.reject : Fld := ⟨0x00402008, 32, 0, 0, 8, 0⟩
def CMP_MAP_STATUS.ent : RegEnt := ⟨0x00402008, 96, 32, 1, 0, [⟨CMP_MAP_STATUS.absent, .ro, 0⟩, ⟨CMP_MAP_STATUS.checking, .ro, 0⟩, ⟨CMP_MAP_STATUS.pending, .ro, 0⟩, ⟨CMP_MAP_STATUS.active_buf, .ro, 0⟩, ⟨CMP_MAP_STATUS.reject, .ro, 0⟩]⟩

/-- CMP_MAP_ID[i] (05_composition.md, R191): address and field constants. -/
def CMP_MAP_ID.baseAddr : Nat := 0x0040200C
def CMP_MAP_ID.map_id : Fld := ⟨0x0040200C, 32, 0, 0, 32, 0⟩
def CMP_MAP_ID.ent : RegEnt := ⟨0x0040200C, 96, 32, 1, 0, [⟨CMP_MAP_ID.map_id, .ro, 0⟩]⟩

/-- CMP_MAP_ERR_CNT[i] (05_composition.md, R195): address and field constants. -/
def CMP_MAP_ERR_CNT.baseAddr : Nat := 0x00402010
def CMP_MAP_ERR_CNT.sat : Fld := ⟨0x00402010, 32, 0, 31, 1, 0⟩
def CMP_MAP_ERR_CNT.count : Fld := ⟨0x00402010, 32, 0, 0, 31, 0⟩
def CMP_MAP_ERR_CNT.ent : RegEnt := ⟨0x00402010, 96, 32, 1, 0, [⟨CMP_MAP_ERR_CNT.sat, .w1c, 0⟩, ⟨CMP_MAP_ERR_CNT.count, .w1c, 0⟩]⟩

/-- Every register of block CMP. -/
def regTableCMP : List RegEnt :=
  [CMP_ID.ent, CMP_SYNC.ent, CMP_EVT_STATUS.ent, CMP_EVT_ENABLE.ent, CMP_MAP_LAST_ERR.ent, CMP_OVL_CFG.ent, CMP_OVL_BASE_LO.ent, CMP_OVL_BASE_HI.ent, CMP_OVL_PITCH.ent, CMP_GROUP_FMT.ent] ++
  [CMP_FMT_MISMATCH_CNT.ent, CMP_OVL_FAULT_CNT.ent, CMP_OVL_PAL_LO.ent, CMP_OVL_PAL_HI.ent, CMP_PORT_SEL.ent, CMP_MAP_CTRL.ent, CMP_MAP_STATUS.ent, CMP_MAP_ID.ent, CMP_MAP_ERR_CNT.ent]

/-! ### Block SCN at 0x00500000 (06_scan_timing.md) -/

/-- SCN_ID (01_architecture.md, R34): address and field constants. -/
def SCN_ID.baseAddr : Nat := 0x00500000
def SCN_ID.block_code : Fld := ⟨0x00500000, 0, 0, 24, 8, 5⟩
def SCN_ID.major : Fld := ⟨0x00500000, 0, 0, 16, 8, 1⟩
def SCN_ID.minor : Fld := ⟨0x00500000, 0, 0, 8, 8, 0⟩
def SCN_ID.ent : RegEnt := ⟨0x00500000, 1, 0, 1, 0, [⟨SCN_ID.block_code, .ro, 0⟩, ⟨SCN_ID.major, .ro, 0⟩, ⟨SCN_ID.minor, .ro, 0⟩]⟩

/-- SCN_SYNC (01_architecture.md, R29,R34): address and field constants. -/
def SCN_SYNC.baseAddr : Nat := 0x00500004
def SCN_SYNC.sync_pending : Fld := ⟨0x00500004, 0, 0, 0, 1, 0⟩
def SCN_SYNC.ent : RegEnt := ⟨0x00500004, 1, 0, 1, 0, [⟨SCN_SYNC.sync_pending, .ro, 0⟩]⟩

/-- SCN_STATUS (06_scan_timing.md, R207,R234): address and field constants. -/
def SCN_STATUS.baseAddr : Nat := 0x00500010
def SCN_STATUS.extension : Fld := ⟨0x00500010, 0, 0, 4, 4, 0⟩
def SCN_STATUS.configured : Fld := ⟨0x00500010, 0, 0, 0, 4, 0⟩
def SCN_STATUS.ent : RegEnt := ⟨0x00500010, 1, 0, 1, 0, [⟨SCN_STATUS.extension, .ro, 0⟩, ⟨SCN_STATUS.configured, .ro, 0⟩]⟩

/-- SCN_CFG[i] (06_scan_timing.md, R207,R216): address and field constants. -/
def SCN_CFG.baseAddr : Nat := 0x00501000
def SCN_CFG.ports : Fld := ⟨0x00501000, 4096, 0, 16, 8, 0⟩
def SCN_CFG.time_base : Fld := ⟨0x00501000, 4096, 0, 8, 2, 0⟩
def SCN_CFG.modes : Fld := ⟨0x00501000, 4096, 0, 4, 3, 0⟩
def SCN_CFG.started : Fld := ⟨0x00501000, 4096, 0, 1, 1, 0⟩
def SCN_CFG.configured : Fld := ⟨0x00501000, 4096, 0, 0, 1, 0⟩
def SCN_CFG.ent : RegEnt := ⟨0x00501000, 4, 4096, 1, 0, [⟨SCN_CFG.ports, .ro, 0⟩, ⟨SCN_CFG.time_base, .ro, 0⟩, ⟨SCN_CFG.modes, .ro, 0⟩, ⟨SCN_CFG.started, .ro, 0⟩, ⟨SCN_CFG.configured, .ro, 0⟩]⟩

/-- SCN_MODE[i] (06_scan_timing.md, R235): address and field constants. -/
def SCN_MODE.baseAddr : Nat := 0x00501004
def SCN_MODE.active_mode : Fld := ⟨0x00501004, 4096, 0, 16, 2, 0⟩
def SCN_MODE.pending_mode : Fld := ⟨0x00501004, 4096, 0, 0, 2, 0⟩
def SCN_MODE.ent : RegEnt := ⟨0x00501004, 4, 4096, 1, 0, [⟨SCN_MODE.active_mode, .ro, 0⟩, ⟨SCN_MODE.pending_mode, .rw, 0⟩]⟩

/-- SCN_COMMIT[i] (06_scan_timing.md, R224-R231): address and field constants. -/
def SCN_COMMIT.baseAddr : Nat := 0x00501008
def SCN_COMMIT.commit : Fld := ⟨0x00501008, 4096, 0, 31, 1, 0⟩
def SCN_COMMIT.cancel : Fld := ⟨0x00501008, 4096, 0, 30, 1, 0⟩
def SCN_COMMIT.active_hold : Fld := ⟨0x00501008, 4096, 0, 19, 1, 0⟩
def SCN_COMMIT.pending_hold : Fld := ⟨0x00501008, 4096, 0, 18, 1, 0⟩
def SCN_COMMIT.late : Fld := ⟨0x00501008, 4096, 0, 3, 1, 0⟩
def SCN_COMMIT.latched : Fld := ⟨0x00501008, 4096, 0, 2, 1, 0⟩
def SCN_COMMIT.armed : Fld := ⟨0x00501008, 4096, 0, 1, 1, 0⟩
def SCN_COMMIT.ent : RegEnt := ⟨0x00501008, 4, 4096, 1, 0, [⟨SCN_COMMIT.commit, .wo, 0⟩, ⟨SCN_COMMIT.cancel, .wo, 0⟩, ⟨SCN_COMMIT.active_hold, .ro, 0⟩, ⟨SCN_COMMIT.pending_hold, .rw, 0⟩, ⟨SCN_COMMIT.late, .ro, 0⟩, ⟨SCN_COMMIT.latched, .ro, 0⟩, ⟨SCN_COMMIT.armed, .ro, 0⟩]⟩

/-- SCN_ARMED_TARGET[i] (06_scan_timing.md, R224,R225): address and field constants. -/
def SCN_ARMED_TARGET.baseAddr : Nat := 0x0050100C
def SCN_ARMED_TARGET.frame : Fld := ⟨0x0050100C, 4096, 0, 0, 32, 0⟩
def SCN_ARMED_TARGET.ent : RegEnt := ⟨0x0050100C, 4, 4096, 1, 0, [⟨SCN_ARMED_TARGET.frame, .ro, 0⟩]⟩

/-- SCN_LATCHED_TARGET[i] (06_scan_timing.md, R226): address and field constants. -/
def SCN_LATCHED_TARGET.baseAddr : Nat := 0x00501010
def SCN_LATCHED_TARGET.frame : Fld := ⟨0x00501010, 4096, 0, 0, 32, 0⟩
def SCN_LATCHED_TARGET.ent : RegEnt := ⟨0x00501010, 4, 4096, 1, 0, [⟨SCN_LATCHED_TARGET.frame, .ro, 0⟩]⟩

/-- SCN_PHASE[i] (06_scan_timing.md, R209,R235): address and field constants. -/
def SCN_PHASE.baseAddr : Nat := 0x00501014
def SCN_PHASE.phase : Fld := ⟨0x00501014, 4096, 0, 0, 32, 0⟩
def SCN_PHASE.ent : RegEnt := ⟨0x00501014, 4, 4096, 1, 0, [⟨SCN_PHASE.phase, .rw, 0⟩]⟩

/-- SCN_PHASE_ACTIVE[i] (06_scan_timing.md, R209): address and field constants. -/
def SCN_PHASE_ACTIVE.baseAddr : Nat := 0x00501018
def SCN_PHASE_ACTIVE.phase : Fld := ⟨0x00501018, 4096, 0, 0, 32, 0⟩
def SCN_PHASE_ACTIVE.ent : RegEnt := ⟨0x00501018, 4, 4096, 1, 0, [⟨SCN_PHASE_ACTIVE.phase, .ro, 0⟩]⟩

/-- SCN_MODE_RATE[i] (06_scan_timing.md, R208,R235): address and field constants. -/
def SCN_MODE_RATE.baseAddr : Nat := 0x00501020
def SCN_MODE_RATE.f_num : Fld := ⟨0x00501020, 4096, 0, 16, 16, 0⟩
def SCN_MODE_RATE.f_den : Fld := ⟨0x00501020, 4096, 0, 0, 16, 0⟩
def SCN_MODE_RATE.ent : RegEnt := ⟨0x00501020, 4, 4096, 1, 0, [⟨SCN_MODE_RATE.f_num, .ro, 0⟩, ⟨SCN_MODE_RATE.f_den, .ro, 0⟩]⟩

/-- SCN_MODE_LINES[i] (06_scan_timing.md, R208,R235): address and field constants. -/
def SCN_MODE_LINES.baseAddr : Nat := 0x00501024
def SCN_MODE_LINES.n_total : Fld := ⟨0x00501024, 4096, 0, 16, 14, 0⟩
def SCN_MODE_LINES.n_active : Fld := ⟨0x00501024, 4096, 0, 0, 14, 0⟩
def SCN_MODE_LINES.ent : RegEnt := ⟨0x00501024, 4, 4096, 1, 0, [⟨SCN_MODE_LINES.n_total, .ro, 0⟩, ⟨SCN_MODE_LINES.n_active, .ro, 0⟩]⟩

/-- SCN_MODE_MARKS[i] (06_scan_timing.md, R208,R235): address and field constants. -/
def SCN_MODE_MARKS.baseAddr : Nat := 0x00501028
def SCN_MODE_MARKS.deadline : Fld := ⟨0x00501028, 4096, 0, 16, 14, 0⟩
def SCN_MODE_MARKS.guard : Fld := ⟨0x00501028, 4096, 0, 0, 14, 0⟩
def SCN_MODE_MARKS.ent : RegEnt := ⟨0x00501028, 4, 4096, 1, 0, [⟨SCN_MODE_MARKS.deadline, .ro, 0⟩, ⟨SCN_MODE_MARKS.guard, .ro, 0⟩]⟩

/-- SCN_MODE_SWAP[i] (06_scan_timing.md, R208,R235): address and field constants. -/
def SCN_MODE_SWAP.baseAddr : Nat := 0x0050102C
def SCN_MODE_SWAP.swap : Fld := ⟨0x0050102C, 4096, 0, 0, 14, 0⟩
def SCN_MODE_SWAP.ent : RegEnt := ⟨0x0050102C, 4, 4096, 1, 0, [⟨SCN_MODE_SWAP.swap, .ro, 0⟩]⟩

/-- SCN_LINE[i] (06_scan_timing.md, R212,R234): address and field constants. -/
def SCN_LINE.baseAddr : Nat := 0x00501030
def SCN_LINE.extension : Fld := ⟨0x00501030, 4096, 0, 31, 1, 0⟩
def SCN_LINE.blanking : Fld := ⟨0x00501030, 4096, 0, 30, 1, 1⟩
def SCN_LINE.line : Fld := ⟨0x00501030, 4096, 0, 0, 14, 0⟩
def SCN_LINE.ent : RegEnt := ⟨0x00501030, 4, 4096, 1, 0, [⟨SCN_LINE.extension, .ro, 0⟩, ⟨SCN_LINE.blanking, .ro, 0⟩, ⟨SCN_LINE.line, .ro, 0⟩]⟩

/-- SCN_FRAME_NUM[i] (06_scan_timing.md, R215): address and field constants. -/
def SCN_FRAME_NUM.baseAddr : Nat := 0x00501034
def SCN_FRAME_NUM.frame : Fld := ⟨0x00501034, 4096, 0, 0, 32, 0⟩
def SCN_FRAME_NUM.ent : RegEnt := ⟨0x00501034, 4, 4096, 1, 0, [⟨SCN_FRAME_NUM.frame, .ro, 0⟩]⟩

/-- SCN_GRID_LO[i] (06_scan_timing.md, R215,R48): address and field constants. -/
def SCN_GRID_LO.baseAddr : Nat := 0x00501038
def SCN_GRID_LO.grid_lo : Fld := ⟨0x00501038, 4096, 0, 0, 32, 0⟩
def SCN_GRID_LO.ent : RegEnt := ⟨0x00501038, 4, 4096, 1, 0, [⟨SCN_GRID_LO.grid_lo, .ro, 0⟩]⟩

/-- SCN_GRID_HI[i] (06_scan_timing.md, R215,R48): address and field constants. -/
def SCN_GRID_HI.baseAddr : Nat := 0x0050103C
def SCN_GRID_HI.grid_hi : Fld := ⟨0x0050103C, 4096, 0, 0, 32, 0⟩
def SCN_GRID_HI.ent : RegEnt := ⟨0x0050103C, 4, 4096, 1, 0, [⟨SCN_GRID_HI.grid_hi, .ro, 0⟩]⟩

/-- SCN_LINE0_TIME0[i] (06_scan_timing.md, R214,R48): address and field constants. -/
def SCN_LINE0_TIME0.baseAddr : Nat := 0x00501040
def SCN_LINE0_TIME0.fraction : Fld := ⟨0x00501040, 4096, 0, 0, 16, 0⟩
def SCN_LINE0_TIME0.ent : RegEnt := ⟨0x00501040, 4, 4096, 1, 0, [⟨SCN_LINE0_TIME0.fraction, .ro, 0⟩]⟩

/-- SCN_LINE0_TIME1[i] (06_scan_timing.md, R214,R48): address and field constants. -/
def SCN_LINE0_TIME1.baseAddr : Nat := 0x00501044
def SCN_LINE0_TIME1.nanoseconds : Fld := ⟨0x00501044, 4096, 0, 0, 32, 0⟩
def SCN_LINE0_TIME1.ent : RegEnt := ⟨0x00501044, 4, 4096, 1, 0, [⟨SCN_LINE0_TIME1.nanoseconds, .ro, 0⟩]⟩

/-- SCN_LINE0_TIME2[i] (06_scan_timing.md, R214,R48): address and field constants. -/
def SCN_LINE0_TIME2.baseAddr : Nat := 0x00501048
def SCN_LINE0_TIME2.seconds_lo : Fld := ⟨0x00501048, 4096, 0, 0, 32, 0⟩
def SCN_LINE0_TIME2.ent : RegEnt := ⟨0x00501048, 4, 4096, 1, 0, [⟨SCN_LINE0_TIME2.seconds_lo, .ro, 0⟩]⟩

/-- SCN_LINE0_TIME3[i] (06_scan_timing.md, R214,R48): address and field constants. -/
def SCN_LINE0_TIME3.baseAddr : Nat := 0x0050104C
def SCN_LINE0_TIME3.seconds_hi : Fld := ⟨0x0050104C, 4096, 0, 0, 16, 0⟩
def SCN_LINE0_TIME3.ent : RegEnt := ⟨0x0050104C, 4, 4096, 1, 0, [⟨SCN_LINE0_TIME3.seconds_hi, .ro, 0⟩]⟩

/-- SCN_SWAP_TIME0[i] (06_scan_timing.md, R214,R221,R48): address and field constants. -/
def SCN_SWAP_TIME0.baseAddr : Nat := 0x00501050
def SCN_SWAP_TIME0.fraction : Fld := ⟨0x00501050, 4096, 0, 0, 16, 0⟩
def SCN_SWAP_TIME0.ent : RegEnt := ⟨0x00501050, 4, 4096, 1, 0, [⟨SCN_SWAP_TIME0.fraction, .ro, 0⟩]⟩

/-- SCN_SWAP_TIME1[i] (06_scan_timing.md, R214,R221,R48): address and field constants. -/
def SCN_SWAP_TIME1.baseAddr : Nat := 0x00501054
def SCN_SWAP_TIME1.nanoseconds : Fld := ⟨0x00501054, 4096, 0, 0, 32, 0⟩
def SCN_SWAP_TIME1.ent : RegEnt := ⟨0x00501054, 4, 4096, 1, 0, [⟨SCN_SWAP_TIME1.nanoseconds, .ro, 0⟩]⟩

/-- SCN_SWAP_TIME2[i] (06_scan_timing.md, R214,R221,R48): address and field constants. -/
def SCN_SWAP_TIME2.baseAddr : Nat := 0x00501058
def SCN_SWAP_TIME2.seconds_lo : Fld := ⟨0x00501058, 4096, 0, 0, 32, 0⟩
def SCN_SWAP_TIME2.ent : RegEnt := ⟨0x00501058, 4, 4096, 1, 0, [⟨SCN_SWAP_TIME2.seconds_lo, .ro, 0⟩]⟩

/-- SCN_SWAP_TIME3[i] (06_scan_timing.md, R214,R221,R48): address and field constants. -/
def SCN_SWAP_TIME3.baseAddr : Nat := 0x0050105C
def SCN_SWAP_TIME3.seconds_hi : Fld := ⟨0x0050105C, 4096, 0, 0, 16, 0⟩
def SCN_SWAP_TIME3.ent : RegEnt := ⟨0x0050105C, 4, 4096, 1, 0, [⟨SCN_SWAP_TIME3.seconds_hi, .ro, 0⟩]⟩

/-- SCN_LINE_MATCH[i][j] (06_scan_timing.md, R217): address and field constants. -/
def SCN_LINE_MATCH.baseAddr : Nat := 0x00501060
def SCN_LINE_MATCH.enable : Fld := ⟨0x00501060, 4096, 4, 31, 1, 0⟩
def SCN_LINE_MATCH.line : Fld := ⟨0x00501060, 4096, 4, 0, 14, 0⟩
def SCN_LINE_MATCH.ent : RegEnt := ⟨0x00501060, 4, 4096, 4, 4, [⟨SCN_LINE_MATCH.enable, .rw, 0⟩, ⟨SCN_LINE_MATCH.line, .rw, 0⟩]⟩

/-- SCN_IDLE_CFG[i] (06_scan_timing.md, R237,R239): address and field constants. -/
def SCN_IDLE_CFG.baseAddr : Nat := 0x00501070
def SCN_IDLE_CFG.idle : Fld := ⟨0x00501070, 4096, 0, 1, 1, 0⟩
def SCN_IDLE_CFG.enable : Fld := ⟨0x00501070, 4096, 0, 0, 1, 0⟩
def SCN_IDLE_CFG.ent : RegEnt := ⟨0x00501070, 4, 4096, 1, 0, [⟨SCN_IDLE_CFG.idle, .ro, 0⟩, ⟨SCN_IDLE_CFG.enable, .rw, 0⟩]⟩

/-- SCN_UNDERRUN_CFG[i] (06_scan_timing.md, R220): address and field constants. -/
def SCN_UNDERRUN_CFG.baseAddr : Nat := 0x00501074
def SCN_UNDERRUN_CFG.hold : Fld := ⟨0x00501074, 4096, 0, 0, 1, 1⟩
def SCN_UNDERRUN_CFG.ent : RegEnt := ⟨0x00501074, 4, 4096, 1, 0, [⟨SCN_UNDERRUN_CFG.hold, .rw, 0⟩]⟩

/-- SCN_EVT_STATUS[i] (06_scan_timing.md, R38): address and field constants. -/
def SCN_EVT_STATUS.baseAddr : Nat := 0x00501080
def SCN_EVT_STATUS.status : Fld := ⟨0x00501080, 4096, 0, 0, 11, 0⟩
def SCN_EVT_STATUS.ent : RegEnt := ⟨0x00501080, 4, 4096, 1, 0, [⟨SCN_EVT_STATUS.status, .w1c, 0⟩]⟩

/-- SCN_EVT_ENABLE[i] (06_scan_timing.md, R38): address and field constants. -/
def SCN_EVT_ENABLE.baseAddr : Nat := 0x00501084
def SCN_EVT_ENABLE.enable : Fld := ⟨0x00501084, 4096, 0, 0, 11, 0x760⟩
def SCN_EVT_ENABLE.ent : RegEnt := ⟨0x00501084, 4, 4096, 1, 0, [⟨SCN_EVT_ENABLE.enable, .rw, 0⟩]⟩

/-- SCN_HOLD_MASK[i][j] (06_scan_timing.md, R223,R48): address and field constants. -/
def SCN_HOLD_MASK.baseAddr : Nat := 0x00501090
def SCN_HOLD_MASK.ports : Fld := ⟨0x00501090, 4096, 4, 0, 32, 0⟩
def SCN_HOLD_MASK.ent : RegEnt := ⟨0x00501090, 4, 4096, 3, 4, [⟨SCN_HOLD_MASK.ports, .ro, 0⟩]⟩

/-- SCN_DONE_FRAME[i] (06_scan_timing.md, R223,R48): address and field constants. -/
def SCN_DONE_FRAME.baseAddr : Nat := 0x0050109C
def SCN_DONE_FRAME.frame : Fld := ⟨0x0050109C, 4096, 0, 0, 32, 0⟩
def SCN_DONE_FRAME.ent : RegEnt := ⟨0x0050109C, 4, 4096, 1, 0, [⟨SCN_DONE_FRAME.frame, .ro, 0⟩]⟩

/-- SCN_UNDERRUN_MASK[i][j] (06_scan_timing.md, R219,R48): address and field constants. -/
def SCN_UNDERRUN_MASK.baseAddr : Nat := 0x005010A0
def SCN_UNDERRUN_MASK.ports : Fld := ⟨0x005010A0, 4096, 4, 0, 32, 0⟩
def SCN_UNDERRUN_MASK.ent : RegEnt := ⟨0x005010A0, 4, 4096, 3, 4, [⟨SCN_UNDERRUN_MASK.ports, .ro, 0⟩]⟩

/-- SCN_LATE_COMMIT_CNT[i] (06_scan_timing.md, R225): address and field constants. -/
def SCN_LATE_COMMIT_CNT.baseAddr : Nat := 0x005010B0
def SCN_LATE_COMMIT_CNT.sat : Fld := ⟨0x005010B0, 4096, 0, 31, 1, 0⟩
def SCN_LATE_COMMIT_CNT.count : Fld := ⟨0x005010B0, 4096, 0, 0, 31, 0⟩
def SCN_LATE_COMMIT_CNT.ent : RegEnt := ⟨0x005010B0, 4, 4096, 1, 0, [⟨SCN_LATE_COMMIT_CNT.sat, .w1c, 0⟩, ⟨SCN_LATE_COMMIT_CNT.count, .w1c, 0⟩]⟩

/-- SCN_UNDERRUN_CNT[i] (06_scan_timing.md, R219): address and field constants. -/
def SCN_UNDERRUN_CNT.baseAddr : Nat := 0x005010B4
def SCN_UNDERRUN_CNT.sat : Fld := ⟨0x005010B4, 4096, 0, 31, 1, 0⟩
def SCN_UNDERRUN_CNT.count : Fld := ⟨0x005010B4, 4096, 0, 0, 31, 0⟩
def SCN_UNDERRUN_CNT.ent : RegEnt := ⟨0x005010B4, 4, 4096, 1, 0, [⟨SCN_UNDERRUN_CNT.sat, .w1c, 0⟩, ⟨SCN_UNDERRUN_CNT.count, .w1c, 0⟩]⟩

/-- SCN_REALIGN_CNT[i] (06_scan_timing.md, R233): address and field constants. -/
def SCN_REALIGN_CNT.baseAddr : Nat := 0x005010B8
def SCN_REALIGN_CNT.sat : Fld := ⟨0x005010B8, 4096, 0, 31, 1, 0⟩
def SCN_REALIGN_CNT.count : Fld := ⟨0x005010B8, 4096, 0, 0, 31, 0⟩
def SCN_REALIGN_CNT.ent : RegEnt := ⟨0x005010B8, 4, 4096, 1, 0, [⟨SCN_REALIGN_CNT.sat, .w1c, 0⟩, ⟨SCN_REALIGN_CNT.count, .w1c, 0⟩]⟩

/-- SCN_HOLD_CNT[i] (06_scan_timing.md, R223): address and field constants. -/
def SCN_HOLD_CNT.baseAddr : Nat := 0x005010BC
def SCN_HOLD_CNT.sat : Fld := ⟨0x005010BC, 4096, 0, 31, 1, 0⟩
def SCN_HOLD_CNT.count : Fld := ⟨0x005010BC, 4096, 0, 0, 31, 0⟩
def SCN_HOLD_CNT.ent : RegEnt := ⟨0x005010BC, 4, 4096, 1, 0, [⟨SCN_HOLD_CNT.sat, .w1c, 0⟩, ⟨SCN_HOLD_CNT.count, .w1c, 0⟩]⟩

/-- Every register of block SCN. -/
def regTableSCN : List RegEnt :=
  [SCN_ID.ent, SCN_SYNC.ent, SCN_STATUS.ent, SCN_CFG.ent, SCN_MODE.ent, SCN_COMMIT.ent, SCN_ARMED_TARGET.ent, SCN_LATCHED_TARGET.ent, SCN_PHASE.ent, SCN_PHASE_ACTIVE.ent] ++
  [SCN_MODE_RATE.ent, SCN_MODE_LINES.ent, SCN_MODE_MARKS.ent, SCN_MODE_SWAP.ent, SCN_LINE.ent, SCN_FRAME_NUM.ent, SCN_GRID_LO.ent, SCN_GRID_HI.ent, SCN_LINE0_TIME0.ent, SCN_LINE0_TIME1.ent] ++
  [SCN_LINE0_TIME2.ent, SCN_LINE0_TIME3.ent, SCN_SWAP_TIME0.ent, SCN_SWAP_TIME1.ent, SCN_SWAP_TIME2.ent, SCN_SWAP_TIME3.ent, SCN_LINE_MATCH.ent, SCN_IDLE_CFG.ent, SCN_UNDERRUN_CFG.ent, SCN_EVT_STATUS.ent] ++
  [SCN_EVT_ENABLE.ent, SCN_HOLD_MASK.ent, SCN_DONE_FRAME.ent, SCN_UNDERRUN_MASK.ent, SCN_LATE_COMMIT_CNT.ent, SCN_UNDERRUN_CNT.ent, SCN_REALIGN_CNT.ent, SCN_HOLD_CNT.ent]

/-! ### Block TLK at 0x00600000 (07_tile_link.md) -/

/-- TLK_ID (01_architecture.md, R34): address and field constants. -/
def TLK_ID.baseAddr : Nat := 0x00600000
def TLK_ID.block_code : Fld := ⟨0x00600000, 0, 0, 24, 8, 6⟩
def TLK_ID.major : Fld := ⟨0x00600000, 0, 0, 16, 8, 1⟩
def TLK_ID.minor : Fld := ⟨0x00600000, 0, 0, 8, 8, 0⟩
def TLK_ID.ent : RegEnt := ⟨0x00600000, 1, 0, 1, 0, [⟨TLK_ID.block_code, .ro, 0⟩, ⟨TLK_ID.major, .ro, 0⟩, ⟨TLK_ID.minor, .ro, 0⟩]⟩

/-- TLK_SYNC (01_architecture.md, R29,R34): address and field constants. -/
def TLK_SYNC.baseAddr : Nat := 0x00600004
def TLK_SYNC.sync_pending : Fld := ⟨0x00600004, 0, 0, 0, 1, 0⟩
def TLK_SYNC.ent : RegEnt := ⟨0x00600004, 1, 0, 1, 0, [⟨TLK_SYNC.sync_pending, .ro, 0⟩]⟩

/-- TLK_STATUS (07_tile_link.md, R264): address and field constants. -/
def TLK_STATUS.baseAddr : Nat := 0x00600010
def TLK_STATUS.ports_up : Fld := ⟨0x00600010, 0, 0, 0, 7, 0⟩
def TLK_STATUS.ent : RegEnt := ⟨0x00600010, 1, 0, 1, 0, [⟨TLK_STATUS.ports_up, .ro, 0⟩]⟩

/-- TLK_UP[i] (07_tile_link.md, R264): address and field constants. -/
def TLK_UP.baseAddr : Nat := 0x00600020
def TLK_UP.ports : Fld := ⟨0x00600020, 4, 0, 0, 32, 0⟩
def TLK_UP.ent : RegEnt := ⟨0x00600020, 3, 4, 1, 0, [⟨TLK_UP.ports, .ro, 0⟩]⟩

/-- TLK_MAP_ABSENT[i] (07_tile_link.md, R59,R191): address and field constants. -/
def TLK_MAP_ABSENT.baseAddr : Nat := 0x00600030
def TLK_MAP_ABSENT.ports : Fld := ⟨0x00600030, 4, 0, 0, 32, 0⟩
def TLK_MAP_ABSENT.ent : RegEnt := ⟨0x00600030, 3, 4, 1, 0, [⟨TLK_MAP_ABSENT.ports, .ro, 0⟩]⟩

/-- TLK_EVT_STATUS (07_tile_link.md, R38): address and field constants. -/
def TLK_EVT_STATUS.baseAddr : Nat := 0x00600080
def TLK_EVT_STATUS.status : Fld := ⟨0x00600080, 0, 0, 0, 10, 0⟩
def TLK_EVT_STATUS.ent : RegEnt := ⟨0x00600080, 1, 0, 1, 0, [⟨TLK_EVT_STATUS.status, .w1c, 0⟩]⟩

/-- TLK_EVT_ENABLE (07_tile_link.md, R38): address and field constants. -/
def TLK_EVT_ENABLE.baseAddr : Nat := 0x00600084
def TLK_EVT_ENABLE.enable : Fld := ⟨0x00600084, 0, 0, 0, 10, 0x3FE⟩
def TLK_EVT_ENABLE.ent : RegEnt := ⟨0x00600084, 1, 0, 1, 0, [⟨TLK_EVT_ENABLE.enable, .rw, 0⟩]⟩

/-- TLK_LAST_FAULT (07_tile_link.md, R260,R266): address and field constants. -/
def TLK_LAST_FAULT.baseAddr : Nat := 0x00600090
def TLK_LAST_FAULT.cause : Fld := ⟨0x00600090, 0, 0, 24, 8, 0⟩
def TLK_LAST_FAULT.port : Fld := ⟨0x00600090, 0, 0, 16, 7, 0⟩
def TLK_LAST_FAULT.ent : RegEnt := ⟨0x00600090, 1, 0, 1, 0, [⟨TLK_LAST_FAULT.cause, .ro, 0⟩, ⟨TLK_LAST_FAULT.port, .ro, 0⟩]⟩

/-- TLK_PORT_CTRL[i] (07_tile_link.md, R259,R265,R268): address and field constants. -/
def TLK_PORT_CTRL.baseAddr : Nat := 0x00610000
def TLK_PORT_CTRL.train : Fld := ⟨0x00610000, 2048, 0, 31, 1, 0⟩
def TLK_PORT_CTRL.down : Fld := ⟨0x00610000, 2048, 0, 30, 1, 0⟩
def TLK_PORT_CTRL.retry_limit : Fld := ⟨0x00610000, 2048, 0, 4, 4, 3⟩
def TLK_PORT_CTRL.auto_retrain : Fld := ⟨0x00610000, 2048, 0, 0, 1, 1⟩
def TLK_PORT_CTRL.ent : RegEnt := ⟨0x00610000, 96, 2048, 1, 0, [⟨TLK_PORT_CTRL.train, .wo, 0⟩, ⟨TLK_PORT_CTRL.down, .wo, 0⟩, ⟨TLK_PORT_CTRL.retry_limit, .rw, 0⟩, ⟨TLK_PORT_CTRL.auto_retrain, .rw, 0⟩]⟩

/-- TLK_PORT_STATE[i] (07_tile_link.md, R259-R268): address and field constants. -/
def TLK_PORT_STATE.baseAddr : Nat := 0x00610004
def TLK_PORT_STATE.cause : Fld := ⟨0x00610004, 2048, 0, 24, 8, 0⟩
def TLK_PORT_STATE.lit : Fld := ⟨0x00610004, 2048, 0, 15, 1, 0⟩
def TLK_PORT_STATE.idle : Fld := ⟨0x00610004, 2048, 0, 14, 1, 0⟩
def TLK_PORT_STATE.phase : Fld := ⟨0x00610004, 2048, 0, 4, 4, 0⟩
def TLK_PORT_STATE.state : Fld := ⟨0x00610004, 2048, 0, 0, 3, 1⟩
def TLK_PORT_STATE.ent : RegEnt := ⟨0x00610004, 96, 2048, 1, 0, [⟨TLK_PORT_STATE.cause, .ro, 0⟩, ⟨TLK_PORT_STATE.lit, .ro, 0⟩, ⟨TLK_PORT_STATE.idle, .ro, 0⟩, ⟨TLK_PORT_STATE.phase, .ro, 0⟩, ⟨TLK_PORT_STATE.state, .ro, 0⟩]⟩

/-- TLK_LANE_STATUS[i] (07_tile_link.md, R260,R262,R269): address and field constants. -/
def TLK_LANE_STATUS.baseAddr : Nat := 0x00610008
def TLK_LANE_STATUS.bc_fault : Fld := ⟨0x00610008, 2048, 0, 19, 1, 0⟩
def TLK_LANE_STATUS.bc_inverted : Fld := ⟨0x00610008, 2048, 0, 18, 1, 0⟩
def TLK_LANE_STATUS.bc_locked : Fld := ⟨0x00610008, 2048, 0, 17, 1, 0⟩
def TLK_LANE_STATUS.bc_signal : Fld := ⟨0x00610008, 2048, 0, 16, 1, 0⟩
def TLK_LANE_STATUS.short3 : Fld := ⟨0x00610008, 2048, 0, 15, 1, 0⟩
def TLK_LANE_STATUS.open3 : Fld := ⟨0x00610008, 2048, 0, 14, 1, 0⟩
def TLK_LANE_STATUS.term_ok3 : Fld := ⟨0x00610008, 2048, 0, 13, 1, 0⟩
def TLK_LANE_STATUS.driving3 : Fld := ⟨0x00610008, 2048, 0, 12, 1, 0⟩
def TLK_LANE_STATUS.short2 : Fld := ⟨0x00610008, 2048, 0, 11, 1, 0⟩
def TLK_LANE_STATUS.open2 : Fld := ⟨0x00610008, 2048, 0, 10, 1, 0⟩
def TLK_LANE_STATUS.term_ok2 : Fld := ⟨0x00610008, 2048, 0, 9, 1, 0⟩
def TLK_LANE_STATUS.driving2 : Fld := ⟨0x00610008, 2048, 0, 8, 1, 0⟩
def TLK_LANE_STATUS.short1 : Fld := ⟨0x00610008, 2048, 0, 7, 1, 0⟩
def TLK_LANE_STATUS.open1 : Fld := ⟨0x00610008, 2048, 0, 6, 1, 0⟩
def TLK_LANE_STATUS.term_ok1 : Fld := ⟨0x00610008, 2048, 0, 5, 1, 0⟩
def TLK_LANE_STATUS.driving1 : Fld := ⟨0x00610008, 2048, 0, 4, 1, 0⟩
def TLK_LANE_STATUS.short0 : Fld := ⟨0x00610008, 2048, 0, 3, 1, 0⟩
def TLK_LANE_STATUS.open0 : Fld := ⟨0x00610008, 2048, 0, 2, 1, 0⟩
def TLK_LANE_STATUS.term_ok0 : Fld := ⟨0x00610008, 2048, 0, 1, 1, 0⟩
def TLK_LANE_STATUS.driving0 : Fld := ⟨0x00610008, 2048, 0, 0, 1, 0⟩
def TLK_LANE_STATUS.ent : RegEnt := ⟨0x00610008, 96, 2048, 1, 0, [⟨TLK_LANE_STATUS.bc_fault, .ro, 0⟩, ⟨TLK_LANE_STATUS.bc_inverted, .ro, 0⟩, ⟨TLK_LANE_STATUS.bc_locked, .ro, 0⟩, ⟨TLK_LANE_STATUS.bc_signal, .ro, 0⟩, ⟨TLK_LANE_STATUS.short3, .ro, 0⟩, ⟨TLK_LANE_STATUS.open3, .ro, 0⟩, ⟨TLK_LANE_STATUS.term_ok3, .ro, 0⟩, ⟨TLK_LANE_STATUS.driving3, .ro, 0⟩, ⟨TLK_LANE_STATUS.short2, .ro, 0⟩, ⟨TLK_LANE_STATUS.open2, .ro, 0⟩, ⟨TLK_LANE_STATUS.term_ok2, .ro, 0⟩, ⟨TLK_LANE_STATUS.driving2, .ro, 0⟩, ⟨TLK_LANE_STATUS.short1, .ro, 0⟩, ⟨TLK_LANE_STATUS.open1, .ro, 0⟩, ⟨TLK_LANE_STATUS.term_ok1, .ro, 0⟩, ⟨TLK_LANE_STATUS.driving1, .ro, 0⟩, ⟨TLK_LANE_STATUS.short0, .ro, 0⟩, ⟨TLK_LANE_STATUS.open0, .ro, 0⟩, ⟨TLK_LANE_STATUS.term_ok0, .ro, 0⟩, ⟨TLK_LANE_STATUS.driving0, .ro, 0⟩]⟩

/-- TLK_LANE_MAP[i] (07_tile_link.md, R261): address and field constants. -/
def TLK_LANE_MAP.baseAddr : Nat := 0x0061000C
def TLK_LANE_MAP.invert3 : Fld := ⟨0x0061000C, 2048, 0, 28, 1, 0⟩
def TLK_LANE_MAP.physical3 : Fld := ⟨0x0061000C, 2048, 0, 24, 2, 3⟩
def TLK_LANE_MAP.invert2 : Fld := ⟨0x0061000C, 2048, 0, 20, 1, 0⟩
def TLK_LANE_MAP.physical2 : Fld := ⟨0x0061000C, 2048, 0, 16, 2, 2⟩
def TLK_LANE_MAP.invert1 : Fld := ⟨0x0061000C, 2048, 0, 12, 1, 0⟩
def TLK_LANE_MAP.physical1 : Fld := ⟨0x0061000C, 2048, 0, 8, 2, 1⟩
def TLK_LANE_MAP.invert0 : Fld := ⟨0x0061000C, 2048, 0, 4, 1, 0⟩
def TLK_LANE_MAP.physical0 : Fld := ⟨0x0061000C, 2048, 0, 0, 2, 0⟩
def TLK_LANE_MAP.ent : RegEnt := ⟨0x0061000C, 96, 2048, 1, 0, [⟨TLK_LANE_MAP.invert3, .ro, 0⟩, ⟨TLK_LANE_MAP.physical3, .ro, 0⟩, ⟨TLK_LANE_MAP.invert2, .ro, 0⟩, ⟨TLK_LANE_MAP.physical2, .ro, 0⟩, ⟨TLK_LANE_MAP.invert1, .ro, 0⟩, ⟨TLK_LANE_MAP.physical1, .ro, 0⟩, ⟨TLK_LANE_MAP.invert0, .ro, 0⟩, ⟨TLK_LANE_MAP.physical0, .ro, 0⟩]⟩

/-- TLK_ASYM[i] (07_tile_link.md, R276): address and field constants. -/
def TLK_ASYM.baseAddr : Nat := 0x00610010
def TLK_ASYM.asym_ps : Fld := ⟨0x00610010, 2048, 0, 0, 32, 0⟩
def TLK_ASYM.ent : RegEnt := ⟨0x00610010, 96, 2048, 1, 0, [⟨TLK_ASYM.asym_ps, .rw, 0⟩]⟩

/-- TLK_TIME_CFG[i] (07_tile_link.md, R274): address and field constants. -/
def TLK_TIME_CFG.baseAddr : Nat := 0x00610014
def TLK_TIME_CFG.interval : Fld := ⟨0x00610014, 2048, 0, 0, 12, 240⟩
def TLK_TIME_CFG.ent : RegEnt := ⟨0x00610014, 96, 2048, 1, 0, [⟨TLK_TIME_CFG.interval, .rw, 0⟩]⟩

/-- TLK_FWD_DELAY[i] (07_tile_link.md, R276): address and field constants. -/
def TLK_FWD_DELAY.baseAddr : Nat := 0x00610018
def TLK_FWD_DELAY.fwd_ps : Fld := ⟨0x00610018, 2048, 0, 0, 32, 0⟩
def TLK_FWD_DELAY.ent : RegEnt := ⟨0x00610018, 96, 2048, 1, 0, [⟨TLK_FWD_DELAY.fwd_ps, .ro, 0⟩]⟩

/-- TLK_TILE_INFO[i] (07_tile_link.md, R263): address and field constants. -/
def TLK_TILE_INFO.baseAddr : Nat := 0x0061001C
def TLK_TILE_INFO.tile_class : Fld := ⟨0x0061001C, 2048, 0, 16, 16, 0⟩
def TLK_TILE_INFO.rates : Fld := ⟨0x0061001C, 2048, 0, 12, 4, 0⟩
def TLK_TILE_INFO.ent : RegEnt := ⟨0x0061001C, 96, 2048, 1, 0, [⟨TLK_TILE_INFO.tile_class, .ro, 0⟩, ⟨TLK_TILE_INFO.rates, .ro, 0⟩]⟩

/-- TLK_TILE_SERIAL_LO[i] (07_tile_link.md, R263,R48): address and field constants. -/
def TLK_TILE_SERIAL_LO.baseAddr : Nat := 0x00610020
def TLK_TILE_SERIAL_LO.serial_lo : Fld := ⟨0x00610020, 2048, 0, 0, 32, 0⟩
def TLK_TILE_SERIAL_LO.ent : RegEnt := ⟨0x00610020, 96, 2048, 1, 0, [⟨TLK_TILE_SERIAL_LO.serial_lo, .ro, 0⟩]⟩

/-- TLK_TILE_SERIAL_HI[i] (07_tile_link.md, R263,R48): address and field constants. -/
def TLK_TILE_SERIAL_HI.baseAddr : Nat := 0x00610024
def TLK_TILE_SERIAL_HI.serial_hi : Fld := ⟨0x00610024, 2048, 0, 0, 32, 0⟩
def TLK_TILE_SERIAL_HI.ent : RegEnt := ⟨0x00610024, 96, 2048, 1, 0, [⟨TLK_TILE_SERIAL_HI.serial_hi, .ro, 0⟩]⟩

/-- TLK_TEST[i] (07_tile_link.md, R281,R282): address and field constants. -/
def TLK_TEST.baseAddr : Nat := 0x00610028
def TLK_TEST.start : Fld := ⟨0x00610028, 2048, 0, 31, 1, 0⟩
def TLK_TEST.running : Fld := ⟨0x00610028, 2048, 0, 30, 1, 0⟩
def TLK_TEST.mode : Fld := ⟨0x00610028, 2048, 0, 24, 2, 1⟩
def TLK_TEST.duration_ms : Fld := ⟨0x00610028, 2048, 0, 0, 24, 100⟩
def TLK_TEST.ent : RegEnt := ⟨0x00610028, 96, 2048, 1, 0, [⟨TLK_TEST.start, .wo, 0⟩, ⟨TLK_TEST.running, .ro, 0⟩, ⟨TLK_TEST.mode, .rw, 0⟩, ⟨TLK_TEST.duration_ms, .rw, 0⟩]⟩

/-- TLK_BC_EYE[i] (07_tile_link.md, R549,R551): address and field constants. -/
def TLK_BC_EYE.baseAddr : Nat := 0x0061002C
def TLK_BC_EYE.cinder : Fld := ⟨0x0061002C, 2048, 0, 31, 1, 0⟩
def TLK_BC_EYE.width : Fld := ⟨0x0061002C, 2048, 0, 16, 8, 0⟩
def TLK_BC_EYE.height : Fld := ⟨0x0061002C, 2048, 0, 0, 16, 0⟩
def TLK_BC_EYE.ent : RegEnt := ⟨0x0061002C, 96, 2048, 1, 0, [⟨TLK_BC_EYE.cinder, .ro, 0⟩, ⟨TLK_BC_EYE.width, .ro, 0⟩, ⟨TLK_BC_EYE.height, .ro, 0⟩]⟩

/-- TLK_BC_ERR_CNT[i] (07_tile_link.md, R257): address and field constants. -/
def TLK_BC_ERR_CNT.baseAddr : Nat := 0x00610040
def TLK_BC_ERR_CNT.sat : Fld := ⟨0x00610040, 2048, 0, 31, 1, 0⟩
def TLK_BC_ERR_CNT.count : Fld := ⟨0x00610040, 2048, 0, 0, 31, 0⟩
def TLK_BC_ERR_CNT.ent : RegEnt := ⟨0x00610040, 96, 2048, 1, 0, [⟨TLK_BC_ERR_CNT.sat, .w1c, 0⟩, ⟨TLK_BC_ERR_CNT.count, .w1c, 0⟩]⟩

/-- TLK_TILE_ERR_CNT[i] (07_tile_link.md, R258): address and field constants. -/
def TLK_TILE_ERR_CNT.baseAddr : Nat := 0x00610044
def TLK_TILE_ERR_CNT.sat : Fld := ⟨0x00610044, 2048, 0, 31, 1, 0⟩
def TLK_TILE_ERR_CNT.count : Fld := ⟨0x00610044, 2048, 0, 0, 31, 0⟩
def TLK_TILE_ERR_CNT.ent : RegEnt := ⟨0x00610044, 96, 2048, 1, 0, [⟨TLK_TILE_ERR_CNT.sat, .w1c, 0⟩, ⟨TLK_TILE_ERR_CNT.count, .w1c, 0⟩]⟩

/-- TLK_ABORT_CNT[i] (07_tile_link.md, R251): address and field constants. -/
def TLK_ABORT_CNT.baseAddr : Nat := 0x00610048
def TLK_ABORT_CNT.sat : Fld := ⟨0x00610048, 2048, 0, 31, 1, 0⟩
def TLK_ABORT_CNT.count : Fld := ⟨0x00610048, 2048, 0, 0, 31, 0⟩
def TLK_ABORT_CNT.ent : RegEnt := ⟨0x00610048, 96, 2048, 1, 0, [⟨TLK_ABORT_CNT.sat, .w1c, 0⟩, ⟨TLK_ABORT_CNT.count, .w1c, 0⟩]⟩

/-- TLK_RETRAIN_CNT[i] (07_tile_link.md, R259,R265,R268): address and field constants. -/
def TLK_RETRAIN_CNT.baseAddr : Nat := 0x0061004C
def TLK_RETRAIN_CNT.sat : Fld := ⟨0x0061004C, 2048, 0, 31, 1, 0⟩
def TLK_RETRAIN_CNT.count : Fld := ⟨0x0061004C, 2048, 0, 0, 31, 0⟩
def TLK_RETRAIN_CNT.ent : RegEnt := ⟨0x0061004C, 96, 2048, 1, 0, [⟨TLK_RETRAIN_CNT.sat, .w1c, 0⟩, ⟨TLK_RETRAIN_CNT.count, .w1c, 0⟩]⟩

/-- TLK_TIME_MISS_CNT[i] (07_tile_link.md, R277): address and field constants. -/
def TLK_TIME_MISS_CNT.baseAddr : Nat := 0x00610050
def TLK_TIME_MISS_CNT.sat : Fld := ⟨0x00610050, 2048, 0, 31, 1, 0⟩
def TLK_TIME_MISS_CNT.count : Fld := ⟨0x00610050, 2048, 0, 0, 31, 0⟩
def TLK_TIME_MISS_CNT.ent : RegEnt := ⟨0x00610050, 96, 2048, 1, 0, [⟨TLK_TIME_MISS_CNT.sat, .w1c, 0⟩, ⟨TLK_TIME_MISS_CNT.count, .w1c, 0⟩]⟩

/-- TLK_SWAP_MISS_CNT[i] (07_tile_link.md, R258): address and field constants. -/
def TLK_SWAP_MISS_CNT.baseAddr : Nat := 0x00610054
def TLK_SWAP_MISS_CNT.sat : Fld := ⟨0x00610054, 2048, 0, 31, 1, 0⟩
def TLK_SWAP_MISS_CNT.count : Fld := ⟨0x00610054, 2048, 0, 0, 31, 0⟩
def TLK_SWAP_MISS_CNT.ent : RegEnt := ⟨0x00610054, 96, 2048, 1, 0, [⟨TLK_SWAP_MISS_CNT.sat, .w1c, 0⟩, ⟨TLK_SWAP_MISS_CNT.count, .w1c, 0⟩]⟩

/-- TLK_PRBS_ERR_CNT[i] (07_tile_link.md, R281): address and field constants. -/
def TLK_PRBS_ERR_CNT.baseAddr : Nat := 0x00610058
def TLK_PRBS_ERR_CNT.sat : Fld := ⟨0x00610058, 2048, 0, 31, 1, 0⟩
def TLK_PRBS_ERR_CNT.count : Fld := ⟨0x00610058, 2048, 0, 0, 31, 0⟩
def TLK_PRBS_ERR_CNT.ent : RegEnt := ⟨0x00610058, 96, 2048, 1, 0, [⟨TLK_PRBS_ERR_CNT.sat, .w1c, 0⟩, ⟨TLK_PRBS_ERR_CNT.count, .w1c, 0⟩]⟩

/-- Every register of block TLK. -/
def regTableTLK : List RegEnt :=
  [TLK_ID.ent, TLK_SYNC.ent, TLK_STATUS.ent, TLK_UP.ent, TLK_MAP_ABSENT.ent, TLK_EVT_STATUS.ent, TLK_EVT_ENABLE.ent, TLK_LAST_FAULT.ent, TLK_PORT_CTRL.ent, TLK_PORT_STATE.ent] ++
  [TLK_LANE_STATUS.ent, TLK_LANE_MAP.ent, TLK_ASYM.ent, TLK_TIME_CFG.ent, TLK_FWD_DELAY.ent, TLK_TILE_INFO.ent, TLK_TILE_SERIAL_LO.ent, TLK_TILE_SERIAL_HI.ent, TLK_TEST.ent, TLK_BC_EYE.ent] ++
  [TLK_BC_ERR_CNT.ent, TLK_TILE_ERR_CNT.ent, TLK_ABORT_CNT.ent, TLK_RETRAIN_CNT.ent, TLK_TIME_MISS_CNT.ent, TLK_SWAP_MISS_CNT.ent, TLK_PRBS_ERR_CNT.ent]

/-! ### Block TCT at 0x00700000 (08_tile_control.md) -/

/-- TCT_ID (01_architecture.md, R34): address and field constants. -/
def TCT_ID.baseAddr : Nat := 0x00700000
def TCT_ID.block_code : Fld := ⟨0x00700000, 0, 0, 24, 8, 7⟩
def TCT_ID.major : Fld := ⟨0x00700000, 0, 0, 16, 8, 1⟩
def TCT_ID.minor : Fld := ⟨0x00700000, 0, 0, 8, 8, 0⟩
def TCT_ID.ent : RegEnt := ⟨0x00700000, 1, 0, 1, 0, [⟨TCT_ID.block_code, .ro, 0⟩, ⟨TCT_ID.major, .ro, 0⟩, ⟨TCT_ID.minor, .ro, 0⟩]⟩

/-- TCT_SYNC (01_architecture.md, R29,R34): address and field constants. -/
def TCT_SYNC.baseAddr : Nat := 0x00700004
def TCT_SYNC.sync_pending : Fld := ⟨0x00700004, 0, 0, 0, 1, 0⟩
def TCT_SYNC.ent : RegEnt := ⟨0x00700004, 1, 0, 1, 0, [⟨TCT_SYNC.sync_pending, .ro, 0⟩]⟩

/-- TCT_CTRL (08_tile_control.md, R305,R308): address and field constants. -/
def TCT_CTRL.baseAddr : Nat := 0x00700010
def TCT_CTRL.rescan : Fld := ⟨0x00700010, 0, 0, 1, 1, 0⟩
def TCT_CTRL.wall_up : Fld := ⟨0x00700010, 0, 0, 0, 1, 0⟩
def TCT_CTRL.ent : RegEnt := ⟨0x00700010, 1, 0, 1, 0, [⟨TCT_CTRL.rescan, .wo, 0⟩, ⟨TCT_CTRL.wall_up, .wo, 1⟩]⟩

/-- TCT_STATUS (08_tile_control.md, R304,R307): address and field constants. -/
def TCT_STATUS.baseAddr : Nat := 0x00700014
def TCT_STATUS.bus_fault : Fld := ⟨0x00700014, 0, 0, 16, 12, 0⟩
def TCT_STATUS.ports_lit : Fld := ⟨0x00700014, 0, 0, 0, 7, 0⟩
def TCT_STATUS.ent : RegEnt := ⟨0x00700014, 1, 0, 1, 0, [⟨TCT_STATUS.bus_fault, .ro, 0⟩, ⟨TCT_STATUS.ports_lit, .ro, 0⟩]⟩

/-- TCT_BUS_STATUS[i] (08_tile_control.md, R304,R305): address and field constants. -/
def TCT_BUS_STATUS.baseAddr : Nat := 0x00700020
def TCT_BUS_STATUS.found : Fld := ⟨0x00700020, 4, 0, 24, 8, 0⟩
def TCT_BUS_STATUS.short : Fld := ⟨0x00700020, 4, 0, 2, 1, 0⟩
def TCT_BUS_STATUS.open : Fld := ⟨0x00700020, 4, 0, 1, 1, 0⟩
def TCT_BUS_STATUS.inverted : Fld := ⟨0x00700020, 4, 0, 0, 1, 0⟩
def TCT_BUS_STATUS.ent : RegEnt := ⟨0x00700020, 12, 4, 1, 0, [⟨TCT_BUS_STATUS.found, .ro, 0⟩, ⟨TCT_BUS_STATUS.short, .ro, 0⟩, ⟨TCT_BUS_STATUS.open, .ro, 0⟩, ⟨TCT_BUS_STATUS.inverted, .ro, 0⟩]⟩

/-- TCT_EVT_STATUS (08_tile_control.md, R38): address and field constants. -/
def TCT_EVT_STATUS.baseAddr : Nat := 0x00700080
def TCT_EVT_STATUS.status : Fld := ⟨0x00700080, 0, 0, 0, 13, 0⟩
def TCT_EVT_STATUS.ent : RegEnt := ⟨0x00700080, 1, 0, 1, 0, [⟨TCT_EVT_STATUS.status, .w1c, 0⟩]⟩

/-- TCT_EVT_ENABLE (08_tile_control.md, R38): address and field constants. -/
def TCT_EVT_ENABLE.baseAddr : Nat := 0x00700084
def TCT_EVT_ENABLE.enable : Fld := ⟨0x00700084, 0, 0, 0, 13, 0x1BDE⟩
def TCT_EVT_ENABLE.ent : RegEnt := ⟨0x00700084, 1, 0, 1, 0, [⟨TCT_EVT_ENABLE.enable, .rw, 0⟩]⟩

/-- TCT_LAST_FAULT (08_tile_control.md, R307): address and field constants. -/
def TCT_LAST_FAULT.baseAddr : Nat := 0x00700090
def TCT_LAST_FAULT.cause : Fld := ⟨0x00700090, 0, 0, 24, 8, 0⟩
def TCT_LAST_FAULT.port : Fld := ⟨0x00700090, 0, 0, 16, 7, 0⟩
def TCT_LAST_FAULT.ent : RegEnt := ⟨0x00700090, 1, 0, 1, 0, [⟨TCT_LAST_FAULT.cause, .ro, 0⟩, ⟨TCT_LAST_FAULT.port, .ro, 0⟩]⟩

/-- TCT_MGMT_ERR_CNT[i] (08_tile_control.md, R301): address and field constants. -/
def TCT_MGMT_ERR_CNT.baseAddr : Nat := 0x007000C0
def TCT_MGMT_ERR_CNT.sat : Fld := ⟨0x007000C0, 4, 0, 31, 1, 0⟩
def TCT_MGMT_ERR_CNT.count : Fld := ⟨0x007000C0, 4, 0, 0, 31, 0⟩
def TCT_MGMT_ERR_CNT.ent : RegEnt := ⟨0x007000C0, 12, 4, 1, 0, [⟨TCT_MGMT_ERR_CNT.sat, .w1c, 0⟩, ⟨TCT_MGMT_ERR_CNT.count, .w1c, 0⟩]⟩

/-- TCT_PORT_CTRL[i] (08_tile_control.md, R307,R309,R322): address and field constants. -/
def TCT_PORT_CTRL.baseAddr : Nat := 0x00701000
def TCT_PORT_CTRL.power_up : Fld := ⟨0x00701000, 64, 0, 31, 1, 0⟩
def TCT_PORT_CTRL.power_down : Fld := ⟨0x00701000, 64, 0, 30, 1, 0⟩
def TCT_PORT_CTRL.frozen : Fld := ⟨0x00701000, 64, 0, 1, 1, 0⟩
def TCT_PORT_CTRL.freeze : Fld := ⟨0x00701000, 64, 0, 0, 1, 0⟩
def TCT_PORT_CTRL.ent : RegEnt := ⟨0x00701000, 96, 64, 1, 0, [⟨TCT_PORT_CTRL.power_up, .wo, 0⟩, ⟨TCT_PORT_CTRL.power_down, .wo, 0⟩, ⟨TCT_PORT_CTRL.frozen, .ro, 0⟩, ⟨TCT_PORT_CTRL.freeze, .rw, 0⟩]⟩

/-- TCT_PORT_STATE[i] (08_tile_control.md, R307,R313): address and field constants. -/
def TCT_PORT_STATE.baseAddr : Nat := 0x00701004
def TCT_PORT_STATE.cause : Fld := ⟨0x00701004, 64, 0, 24, 8, 0⟩
def TCT_PORT_STATE.band : Fld := ⟨0x00701004, 64, 0, 16, 4, 0⟩
def TCT_PORT_STATE.bus : Fld := ⟨0x00701004, 64, 0, 8, 4, 0⟩
def TCT_PORT_STATE.address : Fld := ⟨0x00701004, 64, 0, 4, 4, 0⟩
def TCT_PORT_STATE.pstate : Fld := ⟨0x00701004, 64, 0, 0, 4, 0⟩
def TCT_PORT_STATE.ent : RegEnt := ⟨0x00701004, 96, 64, 1, 0, [⟨TCT_PORT_STATE.cause, .ro, 0⟩, ⟨TCT_PORT_STATE.band, .ro, 0⟩, ⟨TCT_PORT_STATE.bus, .ro, 0⟩, ⟨TCT_PORT_STATE.address, .ro, 0⟩, ⟨TCT_PORT_STATE.pstate, .ro, 0⟩]⟩

/-- TCT_PORT_TEMP[i] (08_tile_control.md, R313): address and field constants. -/
def TCT_PORT_TEMP.baseAddr : Nat := 0x00701008
def TCT_PORT_TEMP.hottest : Fld := ⟨0x00701008, 64, 0, 0, 16, 0⟩
def TCT_PORT_TEMP.ent : RegEnt := ⟨0x00701008, 96, 64, 1, 0, [⟨TCT_PORT_TEMP.hottest, .ro, 0⟩]⟩

/-- TCT_PORT_REF_RG[i] (08_tile_control.md, R315): address and field constants. -/
def TCT_PORT_REF_RG.baseAddr : Nat := 0x0070100C
def TCT_PORT_REF_RG.red : Fld := ⟨0x0070100C, 64, 0, 16, 16, 0⟩
def TCT_PORT_REF_RG.green : Fld := ⟨0x0070100C, 64, 0, 0, 16, 0⟩
def TCT_PORT_REF_RG.ent : RegEnt := ⟨0x0070100C, 96, 64, 1, 0, [⟨TCT_PORT_REF_RG.red, .ro, 0⟩, ⟨TCT_PORT_REF_RG.green, .ro, 0⟩]⟩

/-- TCT_PORT_REF_B[i] (08_tile_control.md, R315): address and field constants. -/
def TCT_PORT_REF_B.baseAddr : Nat := 0x00701010
def TCT_PORT_REF_B.blue : Fld := ⟨0x00701010, 64, 0, 16, 16, 0⟩
def TCT_PORT_REF_B.ent : RegEnt := ⟨0x00701010, 96, 64, 1, 0, [⟨TCT_PORT_REF_B.blue, .ro, 0⟩]⟩

/-- TCT_PORT_CRC_DEV[i] (08_tile_control.md, R320): address and field constants. -/
def TCT_PORT_CRC_DEV.baseAddr : Nat := 0x00701014
def TCT_PORT_CRC_DEV.crc : Fld := ⟨0x00701014, 64, 0, 0, 32, 0⟩
def TCT_PORT_CRC_DEV.ent : RegEnt := ⟨0x00701014, 96, 64, 1, 0, [⟨TCT_PORT_CRC_DEV.crc, .ro, 0⟩]⟩

/-- TCT_PORT_CRC_TILE[i] (08_tile_control.md, R320): address and field constants. -/
def TCT_PORT_CRC_TILE.baseAddr : Nat := 0x00701018
def TCT_PORT_CRC_TILE.crc : Fld := ⟨0x00701018, 64, 0, 0, 32, 0⟩
def TCT_PORT_CRC_TILE.ent : RegEnt := ⟨0x00701018, 96, 64, 1, 0, [⟨TCT_PORT_CRC_TILE.crc, .ro, 0⟩]⟩

/-- TCT_PORT_SERIAL_LO[i] (08_tile_control.md, R305,R48): address and field constants. -/
def TCT_PORT_SERIAL_LO.baseAddr : Nat := 0x0070101C
def TCT_PORT_SERIAL_LO.serial_lo : Fld := ⟨0x0070101C, 64, 0, 0, 32, 0⟩
def TCT_PORT_SERIAL_LO.ent : RegEnt := ⟨0x0070101C, 96, 64, 1, 0, [⟨TCT_PORT_SERIAL_LO.serial_lo, .ro, 0⟩]⟩

/-- TCT_PORT_SERIAL_HI[i] (08_tile_control.md, R305,R48): address and field constants. -/
def TCT_PORT_SERIAL_HI.baseAddr : Nat := 0x00701020
def TCT_PORT_SERIAL_HI.serial_hi : Fld := ⟨0x00701020, 64, 0, 0, 32, 0⟩
def TCT_PORT_SERIAL_HI.ent : RegEnt := ⟨0x00701020, 96, 64, 1, 0, [⟨TCT_PORT_SERIAL_HI.serial_hi, .ro, 0⟩]⟩

/-- TCT_PORT_HOLD[i] (08_tile_control.md, R319): address and field constants. -/
def TCT_PORT_HOLD.baseAddr : Nat := 0x00701024
def TCT_PORT_HOLD.reasons : Fld := ⟨0x00701024, 64, 0, 0, 8, 0⟩
def TCT_PORT_HOLD.ent : RegEnt := ⟨0x00701024, 96, 64, 1, 0, [⟨TCT_PORT_HOLD.reasons, .ro, 0⟩]⟩

/-- TCT_CSUM_FAIL_CNT[i] (08_tile_control.md, R320): address and field constants. -/
def TCT_CSUM_FAIL_CNT.baseAddr : Nat := 0x00701028
def TCT_CSUM_FAIL_CNT.sat : Fld := ⟨0x00701028, 64, 0, 31, 1, 0⟩
def TCT_CSUM_FAIL_CNT.count : Fld := ⟨0x00701028, 64, 0, 0, 31, 0⟩
def TCT_CSUM_FAIL_CNT.ent : RegEnt := ⟨0x00701028, 96, 64, 1, 0, [⟨TCT_CSUM_FAIL_CNT.sat, .w1c, 0⟩, ⟨TCT_CSUM_FAIL_CNT.count, .w1c, 0⟩]⟩

/-- TCT_CSUM_MISS_CNT[i] (08_tile_control.md, R320): address and field constants. -/
def TCT_CSUM_MISS_CNT.baseAddr : Nat := 0x0070102C
def TCT_CSUM_MISS_CNT.sat : Fld := ⟨0x0070102C, 64, 0, 31, 1, 0⟩
def TCT_CSUM_MISS_CNT.count : Fld := ⟨0x0070102C, 64, 0, 0, 31, 0⟩
def TCT_CSUM_MISS_CNT.ent : RegEnt := ⟨0x0070102C, 96, 64, 1, 0, [⟨TCT_CSUM_MISS_CNT.sat, .w1c, 0⟩, ⟨TCT_CSUM_MISS_CNT.count, .w1c, 0⟩]⟩

/-- TCT_BAND_CNT[i] (08_tile_control.md, R314): address and field constants. -/
def TCT_BAND_CNT.baseAddr : Nat := 0x00701030
def TCT_BAND_CNT.sat : Fld := ⟨0x00701030, 64, 0, 31, 1, 0⟩
def TCT_BAND_CNT.count : Fld := ⟨0x00701030, 64, 0, 0, 31, 0⟩
def TCT_BAND_CNT.ent : RegEnt := ⟨0x00701030, 96, 64, 1, 0, [⟨TCT_BAND_CNT.sat, .w1c, 0⟩, ⟨TCT_BAND_CNT.count, .w1c, 0⟩]⟩

/-- TCT_TELEM_MISS_CNT[i] (08_tile_control.md, R313): address and field constants. -/
def TCT_TELEM_MISS_CNT.baseAddr : Nat := 0x00701034
def TCT_TELEM_MISS_CNT.sat : Fld := ⟨0x00701034, 64, 0, 31, 1, 0⟩
def TCT_TELEM_MISS_CNT.count : Fld := ⟨0x00701034, 64, 0, 0, 31, 0⟩
def TCT_TELEM_MISS_CNT.ent : RegEnt := ⟨0x00701034, 96, 64, 1, 0, [⟨TCT_TELEM_MISS_CNT.sat, .w1c, 0⟩, ⟨TCT_TELEM_MISS_CNT.count, .w1c, 0⟩]⟩

/-- TCT_SMK_PAL[i][j] (08_tile_control.md, R331): address and field constants. -/
def TCT_SMK_PAL.baseAddr : Nat := 0x00704000
def TCT_SMK_PAL.ray : Fld := ⟨0x00704000, 128, 4, 0, 30, 0⟩
def TCT_SMK_PAL.ent : RegEnt := ⟨0x00704000, 96, 128, 8, 4, [⟨TCT_SMK_PAL.ray, .rw, 0⟩]⟩

/-- TCT_SMK_RECT_A[i][j] (08_tile_control.md, R332): address and field constants. -/
def TCT_SMK_RECT_A.baseAddr : Nat := 0x00704020
def TCT_SMK_RECT_A.x0 : Fld := ⟨0x00704020, 128, 8, 16, 16, 0⟩
def TCT_SMK_RECT_A.y0 : Fld := ⟨0x00704020, 128, 8, 0, 16, 0⟩
def TCT_SMK_RECT_A.ent : RegEnt := ⟨0x00704020, 96, 128, 4, 8, [⟨TCT_SMK_RECT_A.x0, .rw, 0⟩, ⟨TCT_SMK_RECT_A.y0, .rw, 0⟩]⟩

/-- TCT_SMK_RECT_B[i][j] (08_tile_control.md, R332): address and field constants. -/
def TCT_SMK_RECT_B.baseAddr : Nat := 0x00704024
def TCT_SMK_RECT_B.x1 : Fld := ⟨0x00704024, 128, 8, 16, 16, 0⟩
def TCT_SMK_RECT_B.y1 : Fld := ⟨0x00704024, 128, 8, 0, 16, 0⟩
def TCT_SMK_RECT_B.ent : RegEnt := ⟨0x00704024, 96, 128, 4, 8, [⟨TCT_SMK_RECT_B.x1, .rw, 0⟩, ⟨TCT_SMK_RECT_B.y1, .rw, 0⟩]⟩

/-- TCT_SMK_SEL[i] (08_tile_control.md, R331,R332): address and field constants. -/
def TCT_SMK_SEL.baseAddr : Nat := 0x00704040
def TCT_SMK_SEL.colour : Fld := ⟨0x00704040, 128, 0, 16, 12, 0⟩
def TCT_SMK_SEL.enable : Fld := ⟨0x00704040, 128, 0, 0, 4, 0⟩
def TCT_SMK_SEL.ent : RegEnt := ⟨0x00704040, 96, 128, 1, 0, [⟨TCT_SMK_SEL.colour, .rw, 0⟩, ⟨TCT_SMK_SEL.enable, .rw, 0⟩]⟩

/-- Every register of block TCT. -/
def regTableTCT : List RegEnt :=
  [TCT_ID.ent, TCT_SYNC.ent, TCT_CTRL.ent, TCT_STATUS.ent, TCT_BUS_STATUS.ent, TCT_EVT_STATUS.ent, TCT_EVT_ENABLE.ent, TCT_LAST_FAULT.ent, TCT_MGMT_ERR_CNT.ent, TCT_PORT_CTRL.ent] ++
  [TCT_PORT_STATE.ent, TCT_PORT_TEMP.ent, TCT_PORT_REF_RG.ent, TCT_PORT_REF_B.ent, TCT_PORT_CRC_DEV.ent, TCT_PORT_CRC_TILE.ent, TCT_PORT_SERIAL_LO.ent, TCT_PORT_SERIAL_HI.ent, TCT_PORT_HOLD.ent, TCT_CSUM_FAIL_CNT.ent] ++
  [TCT_CSUM_MISS_CNT.ent, TCT_BAND_CNT.ent, TCT_TELEM_MISS_CNT.ent, TCT_SMK_PAL.ent, TCT_SMK_RECT_A.ent, TCT_SMK_RECT_B.ent, TCT_SMK_SEL.ent]

end Sys2Proof.Machine
end

