-- ==== Sys2Proof/Machine/RegsB.lean ====
section
/-!
DEFINITION. The register map, blocks MEM to FSC and the BAR2 mailbox: every register and field of the register tables of chapters 8 to 14.
-/
namespace Sys2Proof.Machine

/-! ### Block MEM at 0x00800000 (09_memory_arbitration.md) -/

/-- MEM_ID (01_architecture.md, R34): address and field constants. -/
def MEM_ID.baseAddr : Nat := 0x00800000
def MEM_ID.block_code : Fld := ⟨0x00800000, 0, 0, 24, 8, 8⟩
def MEM_ID.major : Fld := ⟨0x00800000, 0, 0, 16, 8, 1⟩
def MEM_ID.minor : Fld := ⟨0x00800000, 0, 0, 8, 8, 0⟩
def MEM_ID.ent : RegEnt := ⟨0x00800000, 1, 0, 1, 0, [⟨MEM_ID.block_code, .ro, 0⟩, ⟨MEM_ID.major, .ro, 0⟩, ⟨MEM_ID.minor, .ro, 0⟩]⟩

/-- MEM_SYNC (01_architecture.md, R29,R34): address and field constants. -/
def MEM_SYNC.baseAddr : Nat := 0x00800004
def MEM_SYNC.sync_pending : Fld := ⟨0x00800004, 0, 0, 0, 1, 0⟩
def MEM_SYNC.ent : RegEnt := ⟨0x00800004, 1, 0, 1, 0, [⟨MEM_SYNC.sync_pending, .ro, 0⟩]⟩

/-- MEM_STATUS (09_memory_arbitration.md, R373,R374,R381): address and field constants. -/
def MEM_STATUS.baseAddr : Nat := 0x00800010
def MEM_STATUS.failed : Fld := ⟨0x00800010, 0, 0, 8, 8, 0⟩
def MEM_STATUS.temp_high : Fld := ⟨0x00800010, 0, 0, 2, 2, 0⟩
def MEM_STATUS.trained : Fld := ⟨0x00800010, 0, 0, 0, 2, 0⟩
def MEM_STATUS.ent : RegEnt := ⟨0x00800010, 1, 0, 1, 0, [⟨MEM_STATUS.failed, .ro, 0⟩, ⟨MEM_STATUS.temp_high, .ro, 0⟩, ⟨MEM_STATUS.trained, .ro, 0⟩]⟩

/-- MEM_TRAIN_CFG (09_memory_arbitration.md, R375,R378,R393): address and field constants. -/
def MEM_TRAIN_CFG.baseAddr : Nat := 0x00800014
def MEM_TRAIN_CFG.min_margin : Fld := ⟨0x00800014, 0, 0, 16, 8, 4⟩
def MEM_TRAIN_CFG.interval_ms : Fld := ⟨0x00800014, 0, 0, 0, 16, 1000⟩
def MEM_TRAIN_CFG.ent : RegEnt := ⟨0x00800014, 1, 0, 1, 0, [⟨MEM_TRAIN_CFG.min_margin, .rw, 255⟩, ⟨MEM_TRAIN_CFG.interval_ms, .rw, 65535⟩]⟩

/-- MEM_CORD_WM (09_memory_arbitration.md, R368,R370,R393): address and field constants. -/
def MEM_CORD_WM.baseAddr : Nat := 0x00800018
def MEM_CORD_WM.high : Fld := ⟨0x00800018, 0, 0, 8, 6, 40⟩
def MEM_CORD_WM.low : Fld := ⟨0x00800018, 0, 0, 0, 6, 16⟩
def MEM_CORD_WM.ent : RegEnt := ⟨0x00800018, 1, 0, 1, 0, [⟨MEM_CORD_WM.high, .rw, 63⟩, ⟨MEM_CORD_WM.low, .rw, 63⟩]⟩

/-- MEM_PCH_FAILED[i] (09_memory_arbitration.md, R381): address and field constants. -/
def MEM_PCH_FAILED.baseAddr : Nat := 0x00800020
def MEM_PCH_FAILED.failed : Fld := ⟨0x00800020, 4, 0, 0, 32, 0⟩
def MEM_PCH_FAILED.ent : RegEnt := ⟨0x00800020, 2, 4, 1, 0, [⟨MEM_PCH_FAILED.failed, .ro, 0⟩]⟩

/-- MEM_DENY_ADDR_LO (09_memory_arbitration.md, R362,R393,R48): address and field constants. -/
def MEM_DENY_ADDR_LO.baseAddr : Nat := 0x00800030
def MEM_DENY_ADDR_LO.addr_lo : Fld := ⟨0x00800030, 0, 0, 0, 32, 0⟩
def MEM_DENY_ADDR_LO.ent : RegEnt := ⟨0x00800030, 1, 0, 1, 0, [⟨MEM_DENY_ADDR_LO.addr_lo, .ro, 4294967295⟩]⟩

/-- MEM_DENY_ADDR_HI (09_memory_arbitration.md, R362,R393,R48): address and field constants. -/
def MEM_DENY_ADDR_HI.baseAddr : Nat := 0x00800034
def MEM_DENY_ADDR_HI.addr_hi : Fld := ⟨0x00800034, 0, 0, 0, 4, 0⟩
def MEM_DENY_ADDR_HI.ent : RegEnt := ⟨0x00800034, 1, 0, 1, 0, [⟨MEM_DENY_ADDR_HI.addr_hi, .ro, 15⟩]⟩

/-- MEM_DENY_INFO (09_memory_arbitration.md, R362,R393,R48): address and field constants. -/
def MEM_DENY_INFO.baseAddr : Nat := 0x00800038
def MEM_DENY_INFO.secure : Fld := ⟨0x00800038, 0, 0, 9, 1, 0⟩
def MEM_DENY_INFO.write : Fld := ⟨0x00800038, 0, 0, 8, 1, 0⟩
def MEM_DENY_INFO.requester : Fld := ⟨0x00800038, 0, 0, 0, 5, 0⟩
def MEM_DENY_INFO.ent : RegEnt := ⟨0x00800038, 1, 0, 1, 0, [⟨MEM_DENY_INFO.secure, .ro, 1⟩, ⟨MEM_DENY_INFO.write, .ro, 1⟩, ⟨MEM_DENY_INFO.requester, .ro, 31⟩]⟩

/-- MEM_EVT_STATUS (09_memory_arbitration.md, R38): address and field constants. -/
def MEM_EVT_STATUS.baseAddr : Nat := 0x00800080
def MEM_EVT_STATUS.status : Fld := ⟨0x00800080, 0, 0, 0, 8, 0⟩
def MEM_EVT_STATUS.ent : RegEnt := ⟨0x00800080, 1, 0, 1, 0, [⟨MEM_EVT_STATUS.status, .w1c, 8⟩]⟩

/-- MEM_EVT_ENABLE (09_memory_arbitration.md, R38): address and field constants. -/
def MEM_EVT_ENABLE.baseAddr : Nat := 0x00800084
def MEM_EVT_ENABLE.enable : Fld := ⟨0x00800084, 0, 0, 0, 8, 0xFE⟩
def MEM_EVT_ENABLE.ent : RegEnt := ⟨0x00800084, 1, 0, 1, 0, [⟨MEM_EVT_ENABLE.enable, .rw, 8⟩]⟩

/-- MEM_DENY_CNT (09_memory_arbitration.md, R362,R393): address and field constants. -/
def MEM_DENY_CNT.baseAddr : Nat := 0x00800090
def MEM_DENY_CNT.sat : Fld := ⟨0x00800090, 0, 0, 31, 1, 0⟩
def MEM_DENY_CNT.count : Fld := ⟨0x00800090, 0, 0, 0, 31, 0⟩
def MEM_DENY_CNT.ent : RegEnt := ⟨0x00800090, 1, 0, 1, 0, [⟨MEM_DENY_CNT.sat, .w1c, 1⟩, ⟨MEM_DENY_CNT.count, .w1c, 2147483647⟩]⟩

/-- MEM_HASH[i][j] (09_memory_arbitration.md, R354): address and field constants. -/
def MEM_HASH.baseAddr : Nat := 0x00801000
def MEM_HASH.sel : Fld := ⟨0x00801000, 64, 4, 0, 17, 0⟩
def MEM_HASH.ent : RegEnt := ⟨0x00801000, 16, 64, 11, 4, [⟨MEM_HASH.sel, .ro, 0⟩]⟩

/-- MEM_PCH_REMAP[i] (09_memory_arbitration.md, R357): address and field constants. -/
def MEM_PCH_REMAP.baseAddr : Nat := 0x00801400
def MEM_PCH_REMAP.physical : Fld := ⟨0x00801400, 4, 0, 8, 6, 0⟩
def MEM_PCH_REMAP.offset : Fld := ⟨0x00801400, 4, 0, 0, 1, 0⟩
def MEM_PCH_REMAP.ent : RegEnt := ⟨0x00801400, 64, 4, 1, 0, [⟨MEM_PCH_REMAP.physical, .ro, 0⟩, ⟨MEM_PCH_REMAP.offset, .ro, 0⟩]⟩

/-- MEM_PCH_STATUS[i] (09_memory_arbitration.md, R363,R368): address and field constants. -/
def MEM_PCH_STATUS.baseAddr : Nat := 0x00810000
def MEM_PCH_STATUS.state : Fld := ⟨0x00810000, 256, 0, 30, 2, 0⟩
def MEM_PCH_STATUS.in_flight : Fld := ⟨0x00810000, 256, 0, 16, 7, 0⟩
def MEM_PCH_STATUS.wq_depth : Fld := ⟨0x00810000, 256, 0, 8, 6, 0⟩
def MEM_PCH_STATUS.cord : Fld := ⟨0x00810000, 256, 0, 0, 1, 0⟩
def MEM_PCH_STATUS.ent : RegEnt := ⟨0x00810000, 64, 256, 1, 0, [⟨MEM_PCH_STATUS.state, .ro, 0⟩, ⟨MEM_PCH_STATUS.in_flight, .ro, 0⟩, ⟨MEM_PCH_STATUS.wq_depth, .ro, 0⟩, ⟨MEM_PCH_STATUS.cord, .ro, 0⟩]⟩

/-- MEM_TRAIN_STATUS[i] (09_memory_arbitration.md, R378): address and field constants. -/
def MEM_TRAIN_STATUS.baseAddr : Nat := 0x00810004
def MEM_TRAIN_STATUS.cinder : Fld := ⟨0x00810004, 256, 0, 31, 1, 0⟩
def MEM_TRAIN_STATUS.margin : Fld := ⟨0x00810004, 256, 0, 16, 8, 0⟩
def MEM_TRAIN_STATUS.age_ms : Fld := ⟨0x00810004, 256, 0, 0, 16, 0⟩
def MEM_TRAIN_STATUS.ent : RegEnt := ⟨0x00810004, 64, 256, 1, 0, [⟨MEM_TRAIN_STATUS.cinder, .ro, 0⟩, ⟨MEM_TRAIN_STATUS.margin, .ro, 0⟩, ⟨MEM_TRAIN_STATUS.age_ms, .ro, 0⟩]⟩

/-- MEM_ECC_CORR_CNT[i] (09_memory_arbitration.md, R380): address and field constants. -/
def MEM_ECC_CORR_CNT.baseAddr : Nat := 0x00810010
def MEM_ECC_CORR_CNT.sat : Fld := ⟨0x00810010, 256, 0, 31, 1, 0⟩
def MEM_ECC_CORR_CNT.count : Fld := ⟨0x00810010, 256, 0, 0, 31, 0⟩
def MEM_ECC_CORR_CNT.ent : RegEnt := ⟨0x00810010, 64, 256, 1, 0, [⟨MEM_ECC_CORR_CNT.sat, .w1c, 0⟩, ⟨MEM_ECC_CORR_CNT.count, .w1c, 0⟩]⟩

/-- MEM_ECC_UNCORR_CNT[i] (09_memory_arbitration.md, R380): address and field constants. -/
def MEM_ECC_UNCORR_CNT.baseAddr : Nat := 0x00810014
def MEM_ECC_UNCORR_CNT.sat : Fld := ⟨0x00810014, 256, 0, 31, 1, 0⟩
def MEM_ECC_UNCORR_CNT.count : Fld := ⟨0x00810014, 256, 0, 0, 31, 0⟩
def MEM_ECC_UNCORR_CNT.ent : RegEnt := ⟨0x00810014, 64, 256, 1, 0, [⟨MEM_ECC_UNCORR_CNT.sat, .w1c, 0⟩, ⟨MEM_ECC_UNCORR_CNT.count, .w1c, 0⟩]⟩

/-- MEM_PARITY_CNT[i] (09_memory_arbitration.md, R380): address and field constants. -/
def MEM_PARITY_CNT.baseAddr : Nat := 0x00810018
def MEM_PARITY_CNT.sat : Fld := ⟨0x00810018, 256, 0, 31, 1, 0⟩
def MEM_PARITY_CNT.count : Fld := ⟨0x00810018, 256, 0, 0, 31, 0⟩
def MEM_PARITY_CNT.ent : RegEnt := ⟨0x00810018, 64, 256, 1, 0, [⟨MEM_PARITY_CNT.sat, .w1c, 0⟩, ⟨MEM_PARITY_CNT.count, .w1c, 0⟩]⟩

/-- MEM_CORD_CNT[i] (09_memory_arbitration.md, R368): address and field constants. -/
def MEM_CORD_CNT.baseAddr : Nat := 0x0081001C
def MEM_CORD_CNT.sat : Fld := ⟨0x0081001C, 256, 0, 31, 1, 0⟩
def MEM_CORD_CNT.count : Fld := ⟨0x0081001C, 256, 0, 0, 31, 0⟩
def MEM_CORD_CNT.ent : RegEnt := ⟨0x0081001C, 64, 256, 1, 0, [⟨MEM_CORD_CNT.sat, .w1c, 0⟩, ⟨MEM_CORD_CNT.count, .w1c, 0⟩]⟩

/-- MEM_REF_FORCED_CNT[i] (09_memory_arbitration.md, R372): address and field constants. -/
def MEM_REF_FORCED_CNT.baseAddr : Nat := 0x00810020
def MEM_REF_FORCED_CNT.sat : Fld := ⟨0x00810020, 256, 0, 31, 1, 0⟩
def MEM_REF_FORCED_CNT.count : Fld := ⟨0x00810020, 256, 0, 0, 31, 0⟩
def MEM_REF_FORCED_CNT.ent : RegEnt := ⟨0x00810020, 64, 256, 1, 0, [⟨MEM_REF_FORCED_CNT.sat, .w1c, 0⟩, ⟨MEM_REF_FORCED_CNT.count, .w1c, 0⟩]⟩

/-- MEM_TRAIN_DEFER_CNT[i] (09_memory_arbitration.md, R377): address and field constants. -/
def MEM_TRAIN_DEFER_CNT.baseAddr : Nat := 0x00810024
def MEM_TRAIN_DEFER_CNT.sat : Fld := ⟨0x00810024, 256, 0, 31, 1, 0⟩
def MEM_TRAIN_DEFER_CNT.count : Fld := ⟨0x00810024, 256, 0, 0, 31, 0⟩
def MEM_TRAIN_DEFER_CNT.ent : RegEnt := ⟨0x00810024, 64, 256, 1, 0, [⟨MEM_TRAIN_DEFER_CNT.sat, .w1c, 0⟩, ⟨MEM_TRAIN_DEFER_CNT.count, .w1c, 0⟩]⟩

/-- Every register of block MEM. -/
def regTableMEM : List RegEnt :=
  [MEM_ID.ent, MEM_SYNC.ent, MEM_STATUS.ent, MEM_TRAIN_CFG.ent, MEM_CORD_WM.ent, MEM_PCH_FAILED.ent, MEM_DENY_ADDR_LO.ent, MEM_DENY_ADDR_HI.ent, MEM_DENY_INFO.ent, MEM_EVT_STATUS.ent] ++
  [MEM_EVT_ENABLE.ent, MEM_DENY_CNT.ent, MEM_HASH.ent, MEM_PCH_REMAP.ent, MEM_PCH_STATUS.ent, MEM_TRAIN_STATUS.ent, MEM_ECC_CORR_CNT.ent, MEM_ECC_UNCORR_CNT.ent, MEM_PARITY_CNT.ent, MEM_CORD_CNT.ent] ++
  [MEM_REF_FORCED_CNT.ent, MEM_TRAIN_DEFER_CNT.ent]

/-! ### Block ARB at 0x00900000 (09_memory_arbitration.md) -/

/-- ARB_ID (01_architecture.md, R34): address and field constants. -/
def ARB_ID.baseAddr : Nat := 0x00900000
def ARB_ID.block_code : Fld := ⟨0x00900000, 0, 0, 24, 8, 9⟩
def ARB_ID.major : Fld := ⟨0x00900000, 0, 0, 16, 8, 1⟩
def ARB_ID.minor : Fld := ⟨0x00900000, 0, 0, 8, 8, 0⟩
def ARB_ID.ent : RegEnt := ⟨0x00900000, 1, 0, 1, 0, [⟨ARB_ID.block_code, .ro, 0⟩, ⟨ARB_ID.major, .ro, 0⟩, ⟨ARB_ID.minor, .ro, 0⟩]⟩

/-- ARB_SYNC (01_architecture.md, R29,R34): address and field constants. -/
def ARB_SYNC.baseAddr : Nat := 0x00900004
def ARB_SYNC.sync_pending : Fld := ⟨0x00900004, 0, 0, 0, 1, 0⟩
def ARB_SYNC.ent : RegEnt := ⟨0x00900004, 1, 0, 1, 0, [⟨ARB_SYNC.sync_pending, .ro, 0⟩]⟩

/-- ARB_STATUS (09_memory_arbitration.md, R384): address and field constants. -/
def ARB_STATUS.baseAddr : Nat := 0x00900010
def ARB_STATUS.instances : Fld := ⟨0x00900010, 0, 0, 0, 7, 71⟩
def ARB_STATUS.ent : RegEnt := ⟨0x00900010, 1, 0, 1, 0, [⟨ARB_STATUS.instances, .ro, 0⟩]⟩

/-- ARB_EVT_STATUS (09_memory_arbitration.md, R38): address and field constants. -/
def ARB_EVT_STATUS.baseAddr : Nat := 0x00900080
def ARB_EVT_STATUS.status : Fld := ⟨0x00900080, 0, 0, 0, 3, 0⟩
def ARB_EVT_STATUS.ent : RegEnt := ⟨0x00900080, 1, 0, 1, 0, [⟨ARB_EVT_STATUS.status, .w1c, 0⟩]⟩

/-- ARB_EVT_ENABLE (09_memory_arbitration.md, R38): address and field constants. -/
def ARB_EVT_ENABLE.baseAddr : Nat := 0x00900084
def ARB_EVT_ENABLE.enable : Fld := ⟨0x00900084, 0, 0, 0, 3, 0⟩
def ARB_EVT_ENABLE.ent : RegEnt := ⟨0x00900084, 1, 0, 1, 0, [⟨ARB_EVT_ENABLE.enable, .rw, 0⟩]⟩

/-- ARB_INST_CFG[i] (09_memory_arbitration.md, R387,R392,R394): address and field constants. -/
def ARB_INST_CFG.baseAddr : Nat := 0x00910000
def ARB_INST_CFG.mode : Fld := ⟨0x00910000, 1024, 0, 31, 1, 0⟩
def ARB_INST_CFG.window : Fld := ⟨0x00910000, 1024, 0, 0, 16, 0⟩
def ARB_INST_CFG.ent : RegEnt := ⟨0x00910000, 71, 1024, 1, 0, [⟨ARB_INST_CFG.mode, .rw, 1⟩, ⟨ARB_INST_CFG.window, .rw, 65535⟩]⟩

/-- ARB_INST_STATUS[i] (09_memory_arbitration.md, R385): address and field constants. -/
def ARB_INST_STATUS.baseAddr : Nat := 0x00910004
def ARB_INST_STATUS.busy : Fld := ⟨0x00910004, 1024, 0, 21, 1, 0⟩
def ARB_INST_STATUS.holder : Fld := ⟨0x00910004, 1024, 0, 16, 5, 0⟩
def ARB_INST_STATUS.waiting : Fld := ⟨0x00910004, 1024, 0, 0, 6, 0⟩
def ARB_INST_STATUS.ent : RegEnt := ⟨0x00910004, 71, 1024, 1, 0, [⟨ARB_INST_STATUS.busy, .ro, 0⟩, ⟨ARB_INST_STATUS.holder, .ro, 0⟩, ⟨ARB_INST_STATUS.waiting, .ro, 0⟩]⟩

/-- ARB_PREEMPT_CNT[i] (09_memory_arbitration.md, R390): address and field constants. -/
def ARB_PREEMPT_CNT.baseAddr : Nat := 0x00910010
def ARB_PREEMPT_CNT.sat : Fld := ⟨0x00910010, 1024, 0, 31, 1, 0⟩
def ARB_PREEMPT_CNT.count : Fld := ⟨0x00910010, 1024, 0, 0, 31, 0⟩
def ARB_PREEMPT_CNT.ent : RegEnt := ⟨0x00910010, 71, 1024, 1, 0, [⟨ARB_PREEMPT_CNT.sat, .w1c, 0⟩, ⟨ARB_PREEMPT_CNT.count, .w1c, 0⟩]⟩

/-- ARB_QUEUE_FULL_CNT[i] (09_memory_arbitration.md, R384): address and field constants. -/
def ARB_QUEUE_FULL_CNT.baseAddr : Nat := 0x00910014
def ARB_QUEUE_FULL_CNT.sat : Fld := ⟨0x00910014, 1024, 0, 31, 1, 0⟩
def ARB_QUEUE_FULL_CNT.count : Fld := ⟨0x00910014, 1024, 0, 0, 31, 0⟩
def ARB_QUEUE_FULL_CNT.ent : RegEnt := ⟨0x00910014, 71, 1024, 1, 0, [⟨ARB_QUEUE_FULL_CNT.sat, .w1c, 0⟩, ⟨ARB_QUEUE_FULL_CNT.count, .w1c, 0⟩]⟩

/-- ARB_QUOTA_MASK_CNT[i] (09_memory_arbitration.md, R386): address and field constants. -/
def ARB_QUOTA_MASK_CNT.baseAddr : Nat := 0x00910018
def ARB_QUOTA_MASK_CNT.sat : Fld := ⟨0x00910018, 1024, 0, 31, 1, 0⟩
def ARB_QUOTA_MASK_CNT.count : Fld := ⟨0x00910018, 1024, 0, 0, 31, 0⟩
def ARB_QUOTA_MASK_CNT.ent : RegEnt := ⟨0x00910018, 71, 1024, 1, 0, [⟨ARB_QUOTA_MASK_CNT.sat, .w1c, 0⟩, ⟨ARB_QUOTA_MASK_CNT.count, .w1c, 0⟩]⟩

/-- ARB_REQ_CFG[i][j] (09_memory_arbitration.md, R386,R392,R394): address and field constants. -/
def ARB_REQ_CFG.baseAddr : Nat := 0x00910100
def ARB_REQ_CFG.class : Fld := ⟨0x00910100, 1024, 16, 30, 2, 0⟩
def ARB_REQ_CFG.present : Fld := ⟨0x00910100, 1024, 16, 29, 1, 0⟩
def ARB_REQ_CFG.quota : Fld := ⟨0x00910100, 1024, 16, 16, 10, 0⟩
def ARB_REQ_CFG.weight : Fld := ⟨0x00910100, 1024, 16, 0, 14, 0⟩
def ARB_REQ_CFG.ent : RegEnt := ⟨0x00910100, 71, 1024, 32, 16, [⟨ARB_REQ_CFG.class, .rw, 3⟩, ⟨ARB_REQ_CFG.present, .ro, 0⟩, ⟨ARB_REQ_CFG.quota, .rw, 1023⟩, ⟨ARB_REQ_CFG.weight, .rw, 16383⟩]⟩

/-- ARB_REQ_STATE[i][j] (09_memory_arbitration.md, R386,R388): address and field constants. -/
def ARB_REQ_STATE.baseAddr : Nat := 0x00910104
def ARB_REQ_STATE.credit : Fld := ⟨0x00910104, 1024, 16, 16, 16, 0⟩
def ARB_REQ_STATE.masked : Fld := ⟨0x00910104, 1024, 16, 15, 1, 0⟩
def ARB_REQ_STATE.bellows : Fld := ⟨0x00910104, 1024, 16, 14, 1, 0⟩
def ARB_REQ_STATE.pending : Fld := ⟨0x00910104, 1024, 16, 0, 5, 0⟩
def ARB_REQ_STATE.ent : RegEnt := ⟨0x00910104, 71, 1024, 32, 16, [⟨ARB_REQ_STATE.credit, .ro, 0⟩, ⟨ARB_REQ_STATE.masked, .ro, 0⟩, ⟨ARB_REQ_STATE.bellows, .ro, 0⟩, ⟨ARB_REQ_STATE.pending, .ro, 0⟩]⟩

/-- ARB_REQ_QUOTA[i][j] (09_memory_arbitration.md, R388,R391): address and field constants. -/
def ARB_REQ_QUOTA.baseAddr : Nat := 0x00910108
def ARB_REQ_QUOTA.used : Fld := ⟨0x00910108, 1024, 16, 0, 10, 0⟩
def ARB_REQ_QUOTA.ent : RegEnt := ⟨0x00910108, 71, 1024, 32, 16, [⟨ARB_REQ_QUOTA.used, .ro, 0⟩]⟩

/-- Every register of block ARB. -/
def regTableARB : List RegEnt :=
  [ARB_ID.ent, ARB_SYNC.ent, ARB_STATUS.ent, ARB_EVT_STATUS.ent, ARB_EVT_ENABLE.ent, ARB_INST_CFG.ent, ARB_INST_STATUS.ent, ARB_PREEMPT_CNT.ent, ARB_QUEUE_FULL_CNT.ent, ARB_QUOTA_MASK_CNT.ent] ++
  [ARB_REQ_CFG.ent, ARB_REQ_STATE.ent, ARB_REQ_QUOTA.ent]

/-! ### Block CDC at 0x00A00000 (10_codec_2d.md) -/

/-- CDC_ID (01_architecture.md, R34): address and field constants. -/
def CDC_ID.baseAddr : Nat := 0x00A00000
def CDC_ID.block_code : Fld := ⟨0x00A00000, 0, 0, 24, 8, 10⟩
def CDC_ID.major : Fld := ⟨0x00A00000, 0, 0, 16, 8, 1⟩
def CDC_ID.minor : Fld := ⟨0x00A00000, 0, 0, 8, 8, 0⟩
def CDC_ID.ent : RegEnt := ⟨0x00A00000, 1, 0, 1, 0, [⟨CDC_ID.block_code, .ro, 0⟩, ⟨CDC_ID.major, .ro, 0⟩, ⟨CDC_ID.minor, .ro, 0⟩]⟩

/-- CDC_SYNC (01_architecture.md, R29,R34): address and field constants. -/
def CDC_SYNC.baseAddr : Nat := 0x00A00004
def CDC_SYNC.sync_pending : Fld := ⟨0x00A00004, 0, 0, 0, 1, 0⟩
def CDC_SYNC.ent : RegEnt := ⟨0x00A00004, 1, 0, 1, 0, [⟨CDC_SYNC.sync_pending, .ro, 0⟩]⟩

/-- CDC_STATUS (10_codec_2d.md, R395): address and field constants. -/
def CDC_STATUS.baseAddr : Nat := 0x00A00010
def CDC_STATUS.running : Fld := ⟨0x00A00010, 0, 0, 0, 3, 0⟩
def CDC_STATUS.ent : RegEnt := ⟨0x00A00010, 1, 0, 1, 0, [⟨CDC_STATUS.running, .ro, 0⟩]⟩

/-- CDC_CTRL (10_codec_2d.md, R395): address and field constants. -/
def CDC_CTRL.baseAddr : Nat := 0x00A00014
def CDC_CTRL.pause : Fld := ⟨0x00A00014, 0, 0, 0, 1, 0⟩
def CDC_CTRL.ent : RegEnt := ⟨0x00A00014, 1, 0, 1, 0, [⟨CDC_CTRL.pause, .rw, 0⟩]⟩

/-- CDC_EVT_STATUS (10_codec_2d.md, R38): address and field constants. -/
def CDC_EVT_STATUS.baseAddr : Nat := 0x00A00080
def CDC_EVT_STATUS.status : Fld := ⟨0x00A00080, 0, 0, 0, 4, 0⟩
def CDC_EVT_STATUS.ent : RegEnt := ⟨0x00A00080, 1, 0, 1, 0, [⟨CDC_EVT_STATUS.status, .w1c, 0⟩]⟩

/-- CDC_EVT_ENABLE (10_codec_2d.md, R38): address and field constants. -/
def CDC_EVT_ENABLE.baseAddr : Nat := 0x00A00084
def CDC_EVT_ENABLE.enable : Fld := ⟨0x00A00084, 0, 0, 0, 4, 0xE⟩
def CDC_EVT_ENABLE.ent : RegEnt := ⟨0x00A00084, 1, 0, 1, 0, [⟨CDC_EVT_ENABLE.enable, .rw, 0⟩]⟩

/-- CDC_LAST_ERR (10_codec_2d.md, R397,R409): address and field constants. -/
def CDC_LAST_ERR.baseAddr : Nat := 0x00A00090
def CDC_LAST_ERR.status : Fld := ⟨0x00A00090, 0, 0, 24, 8, 0⟩
def CDC_LAST_ERR.fault : Fld := ⟨0x00A00090, 0, 0, 16, 8, 0⟩
def CDC_LAST_ERR.ring : Fld := ⟨0x00A00090, 0, 0, 0, 12, 0⟩
def CDC_LAST_ERR.ent : RegEnt := ⟨0x00A00090, 1, 0, 1, 0, [⟨CDC_LAST_ERR.status, .ro, 0⟩, ⟨CDC_LAST_ERR.fault, .ro, 0⟩, ⟨CDC_LAST_ERR.ring, .ro, 0⟩]⟩

/-- CDC_JOB_CNT (10_codec_2d.md, R407): address and field constants. -/
def CDC_JOB_CNT.baseAddr : Nat := 0x00A000A0
def CDC_JOB_CNT.sat : Fld := ⟨0x00A000A0, 0, 0, 31, 1, 0⟩
def CDC_JOB_CNT.count : Fld := ⟨0x00A000A0, 0, 0, 0, 31, 0⟩
def CDC_JOB_CNT.ent : RegEnt := ⟨0x00A000A0, 1, 0, 1, 0, [⟨CDC_JOB_CNT.sat, .w1c, 0⟩, ⟨CDC_JOB_CNT.count, .w1c, 0⟩]⟩

/-- CDC_SPACE_CNT (10_codec_2d.md, R403): address and field constants. -/
def CDC_SPACE_CNT.baseAddr : Nat := 0x00A000A4
def CDC_SPACE_CNT.sat : Fld := ⟨0x00A000A4, 0, 0, 31, 1, 0⟩
def CDC_SPACE_CNT.count : Fld := ⟨0x00A000A4, 0, 0, 0, 31, 0⟩
def CDC_SPACE_CNT.ent : RegEnt := ⟨0x00A000A4, 1, 0, 1, 0, [⟨CDC_SPACE_CNT.sat, .w1c, 0⟩, ⟨CDC_SPACE_CNT.count, .w1c, 0⟩]⟩

/-- CDC_FAULT_CNT (10_codec_2d.md, R409): address and field constants. -/
def CDC_FAULT_CNT.baseAddr : Nat := 0x00A000A8
def CDC_FAULT_CNT.sat : Fld := ⟨0x00A000A8, 0, 0, 31, 1, 0⟩
def CDC_FAULT_CNT.count : Fld := ⟨0x00A000A8, 0, 0, 0, 31, 0⟩
def CDC_FAULT_CNT.ent : RegEnt := ⟨0x00A000A8, 1, 0, 1, 0, [⟨CDC_FAULT_CNT.sat, .w1c, 0⟩, ⟨CDC_FAULT_CNT.count, .w1c, 0⟩]⟩

/-- CDC_REJECT_CNT (10_codec_2d.md, R397): address and field constants. -/
def CDC_REJECT_CNT.baseAddr : Nat := 0x00A000AC
def CDC_REJECT_CNT.sat : Fld := ⟨0x00A000AC, 0, 0, 31, 1, 0⟩
def CDC_REJECT_CNT.count : Fld := ⟨0x00A000AC, 0, 0, 0, 31, 0⟩
def CDC_REJECT_CNT.ent : RegEnt := ⟨0x00A000AC, 1, 0, 1, 0, [⟨CDC_REJECT_CNT.sat, .w1c, 0⟩, ⟨CDC_REJECT_CNT.count, .w1c, 0⟩]⟩

/-- Every register of block CDC. -/
def regTableCDC : List RegEnt :=
  [CDC_ID.ent, CDC_SYNC.ent, CDC_STATUS.ent, CDC_CTRL.ent, CDC_EVT_STATUS.ent, CDC_EVT_ENABLE.ent, CDC_LAST_ERR.ent, CDC_JOB_CNT.ent, CDC_SPACE_CNT.ent, CDC_FAULT_CNT.ent] ++
  [CDC_REJECT_CNT.ent]

/-! ### Block TWD at 0x00B00000 (10_codec_2d.md) -/

/-- TWD_ID (01_architecture.md, R34): address and field constants. -/
def TWD_ID.baseAddr : Nat := 0x00B00000
def TWD_ID.block_code : Fld := ⟨0x00B00000, 0, 0, 24, 8, 11⟩
def TWD_ID.major : Fld := ⟨0x00B00000, 0, 0, 16, 8, 1⟩
def TWD_ID.minor : Fld := ⟨0x00B00000, 0, 0, 8, 8, 0⟩
def TWD_ID.ent : RegEnt := ⟨0x00B00000, 1, 0, 1, 0, [⟨TWD_ID.block_code, .ro, 0⟩, ⟨TWD_ID.major, .ro, 0⟩, ⟨TWD_ID.minor, .ro, 0⟩]⟩

/-- TWD_SYNC (01_architecture.md, R29,R34): address and field constants. -/
def TWD_SYNC.baseAddr : Nat := 0x00B00004
def TWD_SYNC.sync_pending : Fld := ⟨0x00B00004, 0, 0, 0, 1, 0⟩
def TWD_SYNC.ent : RegEnt := ⟨0x00B00004, 1, 0, 1, 0, [⟨TWD_SYNC.sync_pending, .ro, 0⟩]⟩

/-- TWD_STATUS (10_codec_2d.md, R418,R419): address and field constants. -/
def TWD_STATUS.baseAddr : Nat := 0x00B00010
def TWD_STATUS.waiting : Fld := ⟨0x00B00010, 0, 0, 16, 7, 0⟩
def TWD_STATUS.held : Fld := ⟨0x00B00010, 0, 0, 8, 7, 0⟩
def TWD_STATUS.running : Fld := ⟨0x00B00010, 0, 0, 0, 3, 0⟩
def TWD_STATUS.ent : RegEnt := ⟨0x00B00010, 1, 0, 1, 0, [⟨TWD_STATUS.waiting, .ro, 0⟩, ⟨TWD_STATUS.held, .ro, 0⟩, ⟨TWD_STATUS.running, .ro, 0⟩]⟩

/-- TWD_DAMPER (10_codec_2d.md, R420): address and field constants. -/
def TWD_DAMPER.baseAddr : Nat := 0x00B00014
def TWD_DAMPER.gap : Fld := ⟨0x00B00014, 0, 0, 0, 8, 0⟩
def TWD_DAMPER.ent : RegEnt := ⟨0x00B00014, 1, 0, 1, 0, [⟨TWD_DAMPER.gap, .rw, 0⟩]⟩

/-- TWD_EVT_STATUS (10_codec_2d.md, R38): address and field constants. -/
def TWD_EVT_STATUS.baseAddr : Nat := 0x00B00080
def TWD_EVT_STATUS.status : Fld := ⟨0x00B00080, 0, 0, 0, 3, 0⟩
def TWD_EVT_STATUS.ent : RegEnt := ⟨0x00B00080, 1, 0, 1, 0, [⟨TWD_EVT_STATUS.status, .w1c, 0⟩]⟩

/-- TWD_EVT_ENABLE (10_codec_2d.md, R38): address and field constants. -/
def TWD_EVT_ENABLE.baseAddr : Nat := 0x00B00084
def TWD_EVT_ENABLE.enable : Fld := ⟨0x00B00084, 0, 0, 0, 3, 3⟩
def TWD_EVT_ENABLE.ent : RegEnt := ⟨0x00B00084, 1, 0, 1, 0, [⟨TWD_EVT_ENABLE.enable, .rw, 0⟩]⟩

/-- TWD_LAST_ERR (10_codec_2d.md, R421): address and field constants. -/
def TWD_LAST_ERR.baseAddr : Nat := 0x00B00090
def TWD_LAST_ERR.status : Fld := ⟨0x00B00090, 0, 0, 24, 8, 0⟩
def TWD_LAST_ERR.ring : Fld := ⟨0x00B00090, 0, 0, 0, 12, 0⟩
def TWD_LAST_ERR.ent : RegEnt := ⟨0x00B00090, 1, 0, 1, 0, [⟨TWD_LAST_ERR.status, .ro, 0⟩, ⟨TWD_LAST_ERR.ring, .ro, 0⟩]⟩

/-- TWD_JOB_CNT (10_codec_2d.md, R421): address and field constants. -/
def TWD_JOB_CNT.baseAddr : Nat := 0x00B000A0
def TWD_JOB_CNT.sat : Fld := ⟨0x00B000A0, 0, 0, 31, 1, 0⟩
def TWD_JOB_CNT.count : Fld := ⟨0x00B000A0, 0, 0, 0, 31, 0⟩
def TWD_JOB_CNT.ent : RegEnt := ⟨0x00B000A0, 1, 0, 1, 0, [⟨TWD_JOB_CNT.sat, .w1c, 0⟩, ⟨TWD_JOB_CNT.count, .w1c, 0⟩]⟩

/-- TWD_REJECT_CNT (10_codec_2d.md, R421): address and field constants. -/
def TWD_REJECT_CNT.baseAddr : Nat := 0x00B000A4
def TWD_REJECT_CNT.sat : Fld := ⟨0x00B000A4, 0, 0, 31, 1, 0⟩
def TWD_REJECT_CNT.count : Fld := ⟨0x00B000A4, 0, 0, 0, 31, 0⟩
def TWD_REJECT_CNT.ent : RegEnt := ⟨0x00B000A4, 1, 0, 1, 0, [⟨TWD_REJECT_CNT.sat, .w1c, 0⟩, ⟨TWD_REJECT_CNT.count, .w1c, 0⟩]⟩

/-- TWD_OVERLAP_WAIT_CNT (10_codec_2d.md, R418): address and field constants. -/
def TWD_OVERLAP_WAIT_CNT.baseAddr : Nat := 0x00B000A8
def TWD_OVERLAP_WAIT_CNT.sat : Fld := ⟨0x00B000A8, 0, 0, 31, 1, 0⟩
def TWD_OVERLAP_WAIT_CNT.count : Fld := ⟨0x00B000A8, 0, 0, 0, 31, 0⟩
def TWD_OVERLAP_WAIT_CNT.ent : RegEnt := ⟨0x00B000A8, 1, 0, 1, 0, [⟨TWD_OVERLAP_WAIT_CNT.sat, .w1c, 0⟩, ⟨TWD_OVERLAP_WAIT_CNT.count, .w1c, 0⟩]⟩

/-- TWD_STALL_CNT (10_codec_2d.md, R419): address and field constants. -/
def TWD_STALL_CNT.baseAddr : Nat := 0x00B000AC
def TWD_STALL_CNT.sat : Fld := ⟨0x00B000AC, 0, 0, 31, 1, 0⟩
def TWD_STALL_CNT.count : Fld := ⟨0x00B000AC, 0, 0, 0, 31, 0⟩
def TWD_STALL_CNT.ent : RegEnt := ⟨0x00B000AC, 1, 0, 1, 0, [⟨TWD_STALL_CNT.sat, .w1c, 0⟩, ⟨TWD_STALL_CNT.count, .w1c, 0⟩]⟩

/-- Every register of block TWD. -/
def regTableTWD : List RegEnt :=
  [TWD_ID.ent, TWD_SYNC.ent, TWD_STATUS.ent, TWD_DAMPER.ent, TWD_EVT_STATUS.ent, TWD_EVT_ENABLE.ent, TWD_LAST_ERR.ent, TWD_JOB_CNT.ent, TWD_REJECT_CNT.ent, TWD_OVERLAP_WAIT_CNT.ent] ++
  [TWD_STALL_CNT.ent]

/-! ### Block STK at 0x00C00000 (11_stokers_rings.md) -/

/-- STK_ID (01_architecture.md, R34): address and field constants. -/
def STK_ID.baseAddr : Nat := 0x00C00000
def STK_ID.block_code : Fld := ⟨0x00C00000, 0, 0, 24, 8, 12⟩
def STK_ID.major : Fld := ⟨0x00C00000, 0, 0, 16, 8, 1⟩
def STK_ID.minor : Fld := ⟨0x00C00000, 0, 0, 8, 8, 0⟩
def STK_ID.ent : RegEnt := ⟨0x00C00000, 1, 0, 1, 0, [⟨STK_ID.block_code, .ro, 0⟩, ⟨STK_ID.major, .ro, 0⟩, ⟨STK_ID.minor, .ro, 0⟩]⟩

/-- STK_SYNC (01_architecture.md, R29,R34): address and field constants. -/
def STK_SYNC.baseAddr : Nat := 0x00C00004
def STK_SYNC.sync_pending : Fld := ⟨0x00C00004, 0, 0, 0, 1, 0⟩
def STK_SYNC.ent : RegEnt := ⟨0x00C00004, 1, 0, 1, 0, [⟨STK_SYNC.sync_pending, .ro, 0⟩]⟩

/-- STK_STATUS (11_stokers_rings.md, R432,R453): address and field constants. -/
def STK_STATUS.baseAddr : Nat := 0x00C00010
def STK_STATUS.parked : Fld := ⟨0x00C00010, 0, 0, 16, 13, 0⟩
def STK_STATUS.failed : Fld := ⟨0x00C00010, 0, 0, 0, 7, 0⟩
def STK_STATUS.ent : RegEnt := ⟨0x00C00010, 1, 0, 1, 0, [⟨STK_STATUS.parked, .ro, 0⟩, ⟨STK_STATUS.failed, .ro, 0⟩]⟩

/-- STK_FAILED[i] (11_stokers_rings.md, R432): address and field constants. -/
def STK_FAILED.baseAddr : Nat := 0x00C00020
def STK_FAILED.failed : Fld := ⟨0x00C00020, 4, 0, 0, 32, 0⟩
def STK_FAILED.ent : RegEnt := ⟨0x00C00020, 2, 4, 1, 0, [⟨STK_FAILED.failed, .ro, 0⟩]⟩

/-- STK_EVT_STATUS (11_stokers_rings.md, R38): address and field constants. -/
def STK_EVT_STATUS.baseAddr : Nat := 0x00C00080
def STK_EVT_STATUS.status : Fld := ⟨0x00C00080, 0, 0, 0, 6, 0⟩
def STK_EVT_STATUS.ent : RegEnt := ⟨0x00C00080, 1, 0, 1, 0, [⟨STK_EVT_STATUS.status, .w1c, 7⟩]⟩

/-- STK_EVT_ENABLE (11_stokers_rings.md, R38): address and field constants. -/
def STK_EVT_ENABLE.baseAddr : Nat := 0x00C00084
def STK_EVT_ENABLE.enable : Fld := ⟨0x00C00084, 0, 0, 0, 6, 0x3F⟩
def STK_EVT_ENABLE.ent : RegEnt := ⟨0x00C00084, 1, 0, 1, 0, [⟨STK_EVT_ENABLE.enable, .rw, 7⟩]⟩

/-- STK_LAST_FAULT (11_stokers_rings.md, R431,R432): address and field constants. -/
def STK_LAST_FAULT.baseAddr : Nat := 0x00C00090
def STK_LAST_FAULT.cause : Fld := ⟨0x00C00090, 0, 0, 24, 8, 0⟩
def STK_LAST_FAULT.stoker : Fld := ⟨0x00C00090, 0, 0, 0, 6, 0⟩
def STK_LAST_FAULT.ent : RegEnt := ⟨0x00C00090, 1, 0, 1, 0, [⟨STK_LAST_FAULT.cause, .ro, 255⟩, ⟨STK_LAST_FAULT.stoker, .ro, 63⟩]⟩

/-- STK_RING_ERR_CNT (11_stokers_rings.md, R439): address and field constants. -/
def STK_RING_ERR_CNT.baseAddr : Nat := 0x00C000A0
def STK_RING_ERR_CNT.sat : Fld := ⟨0x00C000A0, 0, 0, 31, 1, 0⟩
def STK_RING_ERR_CNT.count : Fld := ⟨0x00C000A0, 0, 0, 0, 31, 0⟩
def STK_RING_ERR_CNT.ent : RegEnt := ⟨0x00C000A0, 1, 0, 1, 0, [⟨STK_RING_ERR_CNT.sat, .w1c, 0⟩, ⟨STK_RING_ERR_CNT.count, .w1c, 0⟩]⟩

/-- STK_LOCK_MISUSE_CNT (11_stokers_rings.md, R458): address and field constants. -/
def STK_LOCK_MISUSE_CNT.baseAddr : Nat := 0x00C000A4
def STK_LOCK_MISUSE_CNT.sat : Fld := ⟨0x00C000A4, 0, 0, 31, 1, 0⟩
def STK_LOCK_MISUSE_CNT.count : Fld := ⟨0x00C000A4, 0, 0, 0, 31, 0⟩
def STK_LOCK_MISUSE_CNT.ent : RegEnt := ⟨0x00C000A4, 1, 0, 1, 0, [⟨STK_LOCK_MISUSE_CNT.sat, .w1c, 0⟩, ⟨STK_LOCK_MISUSE_CNT.count, .w1c, 0⟩]⟩

/-- STK_ABANDON_CNT (11_stokers_rings.md, R459): address and field constants. -/
def STK_ABANDON_CNT.baseAddr : Nat := 0x00C000A8
def STK_ABANDON_CNT.sat : Fld := ⟨0x00C000A8, 0, 0, 31, 1, 0⟩
def STK_ABANDON_CNT.count : Fld := ⟨0x00C000A8, 0, 0, 0, 31, 0⟩
def STK_ABANDON_CNT.ent : RegEnt := ⟨0x00C000A8, 1, 0, 1, 0, [⟨STK_ABANDON_CNT.sat, .w1c, 0⟩, ⟨STK_ABANDON_CNT.count, .w1c, 0⟩]⟩

/-- STK_STOKER_CTRL[i] (11_stokers_rings.md, R431,R436,R461): address and field constants. -/
def STK_STOKER_CTRL.baseAddr : Nat := 0x00C10000
def STK_STOKER_CTRL.reset : Fld := ⟨0x00C10000, 256, 0, 31, 1, 0⟩
def STK_STOKER_CTRL.force_fail : Fld := ⟨0x00C10000, 256, 0, 30, 1, 0⟩
def STK_STOKER_CTRL.ent : RegEnt := ⟨0x00C10000, 64, 256, 1, 0, [⟨STK_STOKER_CTRL.reset, .wo, 1⟩, ⟨STK_STOKER_CTRL.force_fail, .wo, 1⟩]⟩

/-- STK_STOKER_STATUS[i] (11_stokers_rings.md, R424,R428): address and field constants. -/
def STK_STOKER_STATUS.baseAddr : Nat := 0x00C10004
def STK_STOKER_STATUS.state : Fld := ⟨0x00C10004, 256, 0, 30, 2, 0⟩
def STK_STOKER_STATUS.user : Fld := ⟨0x00C10004, 256, 0, 29, 1, 0⟩
def STK_STOKER_STATUS.secure : Fld := ⟨0x00C10004, 256, 0, 28, 1, 0⟩
def STK_STOKER_STATUS.queue : Fld := ⟨0x00C10004, 256, 0, 0, 7, 0⟩
def STK_STOKER_STATUS.ent : RegEnt := ⟨0x00C10004, 64, 256, 1, 0, [⟨STK_STOKER_STATUS.state, .ro, 0⟩, ⟨STK_STOKER_STATUS.user, .ro, 0⟩, ⟨STK_STOKER_STATUS.secure, .ro, 0⟩, ⟨STK_STOKER_STATUS.queue, .ro, 0⟩]⟩

/-- STK_STOKER_PC[i] (11_stokers_rings.md, R432): address and field constants. -/
def STK_STOKER_PC.baseAddr : Nat := 0x00C10008
def STK_STOKER_PC.pc : Fld := ⟨0x00C10008, 256, 0, 0, 32, 0⟩
def STK_STOKER_PC.ent : RegEnt := ⟨0x00C10008, 64, 256, 1, 0, [⟨STK_STOKER_PC.pc, .ro, 4294967295⟩]⟩

/-- STK_STOKER_WDT[i] (11_stokers_rings.md, R431): address and field constants. -/
def STK_STOKER_WDT.baseAddr : Nat := 0x00C1000C
def STK_STOKER_WDT.period_ms : Fld := ⟨0x00C1000C, 256, 0, 16, 16, 0⟩
def STK_STOKER_WDT.age_ms : Fld := ⟨0x00C1000C, 256, 0, 0, 16, 0⟩
def STK_STOKER_WDT.ent : RegEnt := ⟨0x00C1000C, 64, 256, 1, 0, [⟨STK_STOKER_WDT.period_ms, .ro, 0⟩, ⟨STK_STOKER_WDT.age_ms, .ro, 0⟩]⟩

/-- STK_IF_SEL (11_stokers_rings.md, R449): address and field constants. -/
def STK_IF_SEL.baseAddr : Nat := 0x00C30000
def STK_IF_SEL.ring : Fld := ⟨0x00C30000, 0, 0, 0, 12, 0⟩
def STK_IF_SEL.ent : RegEnt := ⟨0x00C30000, 1, 0, 1, 0, [⟨STK_IF_SEL.ring, .rw, 0⟩]⟩

/-- STK_IF_ENTRY0[i] (11_stokers_rings.md, R449): address and field constants. -/
def STK_IF_ENTRY0.baseAddr : Nat := 0x00C30010
def STK_IF_ENTRY0.valid : Fld := ⟨0x00C30010, 16, 0, 31, 1, 0⟩
def STK_IF_ENTRY0.state : Fld := ⟨0x00C30010, 16, 0, 28, 3, 0⟩
def STK_IF_ENTRY0.engine : Fld := ⟨0x00C30010, 16, 0, 24, 4, 0⟩
def STK_IF_ENTRY0.index : Fld := ⟨0x00C30010, 16, 0, 0, 16, 0⟩
def STK_IF_ENTRY0.ent : RegEnt := ⟨0x00C30010, 8, 16, 1, 0, [⟨STK_IF_ENTRY0.valid, .ro, 0⟩, ⟨STK_IF_ENTRY0.state, .ro, 0⟩, ⟨STK_IF_ENTRY0.engine, .ro, 0⟩, ⟨STK_IF_ENTRY0.index, .ro, 0⟩]⟩

/-- STK_IF_ENTRY1[i] (11_stokers_rings.md, R450): address and field constants. -/
def STK_IF_ENTRY1.baseAddr : Nat := 0x00C30014
def STK_IF_ENTRY1.progress : Fld := ⟨0x00C30014, 16, 0, 0, 32, 0⟩
def STK_IF_ENTRY1.ent : RegEnt := ⟨0x00C30014, 8, 16, 1, 0, [⟨STK_IF_ENTRY1.progress, .ro, 0⟩]⟩

/-- STK_IF_ENTRY2[i] (11_stokers_rings.md, R450): address and field constants. -/
def STK_IF_ENTRY2.baseAddr : Nat := 0x00C30018
def STK_IF_ENTRY2.progress : Fld := ⟨0x00C30018, 16, 0, 0, 32, 0⟩
def STK_IF_ENTRY2.ent : RegEnt := ⟨0x00C30018, 8, 16, 1, 0, [⟨STK_IF_ENTRY2.progress, .ro, 0⟩]⟩

/-- STK_IF_ENTRY3[i] (11_stokers_rings.md, R450): address and field constants. -/
def STK_IF_ENTRY3.baseAddr : Nat := 0x00C3001C
def STK_IF_ENTRY3.progress : Fld := ⟨0x00C3001C, 16, 0, 0, 32, 0⟩
def STK_IF_ENTRY3.ent : RegEnt := ⟨0x00C3001C, 8, 16, 1, 0, [⟨STK_IF_ENTRY3.progress, .ro, 0⟩]⟩

/-- STK_LOCK_ACQ[i] (11_stokers_rings.md, R457,R460): address and field constants. -/
def STK_LOCK_ACQ.baseAddr : Nat := 0x00C40000
def STK_LOCK_ACQ.granted : Fld := ⟨0x00C40000, 16, 0, 31, 1, 0⟩
def STK_LOCK_ACQ.again : Fld := ⟨0x00C40000, 16, 0, 30, 1, 0⟩
def STK_LOCK_ACQ.abandoned : Fld := ⟨0x00C40000, 16, 0, 29, 1, 0⟩
def STK_LOCK_ACQ.last_owner : Fld := ⟨0x00C40000, 16, 0, 8, 8, 0xFF⟩
def STK_LOCK_ACQ.owner : Fld := ⟨0x00C40000, 16, 0, 0, 8, 0xFF⟩
def STK_LOCK_ACQ.ent : RegEnt := ⟨0x00C40000, 256, 16, 1, 0, [⟨STK_LOCK_ACQ.granted, .ro, 0⟩, ⟨STK_LOCK_ACQ.again, .ro, 0⟩, ⟨STK_LOCK_ACQ.abandoned, .ro, 0⟩, ⟨STK_LOCK_ACQ.last_owner, .ro, 0⟩, ⟨STK_LOCK_ACQ.owner, .ro, 0⟩]⟩

/-- STK_LOCK_REL[i] (11_stokers_rings.md, R458): address and field constants. -/
def STK_LOCK_REL.baseAddr : Nat := 0x00C40004
def STK_LOCK_REL.release : Fld := ⟨0x00C40004, 16, 0, 0, 1, 0⟩
def STK_LOCK_REL.ent : RegEnt := ⟨0x00C40004, 256, 16, 1, 0, [⟨STK_LOCK_REL.release, .wo, 0⟩]⟩

/-- STK_LOCK_PEEK[i] (11_stokers_rings.md, R460): address and field constants. -/
def STK_LOCK_PEEK.baseAddr : Nat := 0x00C40008
def STK_LOCK_PEEK.state : Fld := ⟨0x00C40008, 16, 0, 0, 32, 0x0000FFFF⟩
def STK_LOCK_PEEK.ent : RegEnt := ⟨0x00C40008, 256, 16, 1, 0, [⟨STK_LOCK_PEEK.state, .ro, 0⟩]⟩

/-- STK_RING_CFG[i] (11_stokers_rings.md, R437,R453,R454): address and field constants. -/
def STK_RING_CFG.baseAddr : Nat := 0x00C80000
def STK_RING_CFG.kind : Fld := ⟨0x00C80000, 64, 0, 30, 2, 0⟩
def STK_RING_CFG.secure : Fld := ⟨0x00C80000, 64, 0, 29, 1, 0⟩
def STK_RING_CFG.size_log2 : Fld := ⟨0x00C80000, 64, 0, 20, 4, 0⟩
def STK_RING_CFG.entry : Fld := ⟨0x00C80000, 64, 0, 18, 2, 0⟩
def STK_RING_CFG.parked : Fld := ⟨0x00C80000, 64, 0, 17, 1, 0⟩
def STK_RING_CFG.reassigned : Fld := ⟨0x00C80000, 64, 0, 16, 1, 0⟩
def STK_RING_CFG.cq : Fld := ⟨0x00C80000, 64, 0, 0, 12, 0⟩
def STK_RING_CFG.ent : RegEnt := ⟨0x00C80000, 4096, 64, 1, 0, [⟨STK_RING_CFG.kind, .ro, 0⟩, ⟨STK_RING_CFG.secure, .ro, 0⟩, ⟨STK_RING_CFG.size_log2, .ro, 0⟩, ⟨STK_RING_CFG.entry, .ro, 0⟩, ⟨STK_RING_CFG.parked, .ro, 0⟩, ⟨STK_RING_CFG.reassigned, .ro, 0⟩, ⟨STK_RING_CFG.cq, .ro, 0⟩]⟩

/-- STK_RING_ENDS[i] (11_stokers_rings.md, R437,R454): address and field constants. -/
def STK_RING_ENDS.baseAddr : Nat := 0x00C80004
def STK_RING_ENDS.producer : Fld := ⟨0x00C80004, 64, 0, 24, 8, 0⟩
def STK_RING_ENDS.consumer : Fld := ⟨0x00C80004, 64, 0, 16, 8, 0⟩
def STK_RING_ENDS.alt_producer : Fld := ⟨0x00C80004, 64, 0, 8, 8, 0⟩
def STK_RING_ENDS.alt_consumer : Fld := ⟨0x00C80004, 64, 0, 0, 8, 0⟩
def STK_RING_ENDS.ent : RegEnt := ⟨0x00C80004, 4096, 64, 1, 0, [⟨STK_RING_ENDS.producer, .ro, 0⟩, ⟨STK_RING_ENDS.consumer, .ro, 0⟩, ⟨STK_RING_ENDS.alt_producer, .ro, 0⟩, ⟨STK_RING_ENDS.alt_consumer, .ro, 0⟩]⟩

/-- STK_RING_BASE_LO[i] (11_stokers_rings.md, R437): address and field constants. -/
def STK_RING_BASE_LO.baseAddr : Nat := 0x00C80008
def STK_RING_BASE_LO.base_lo : Fld := ⟨0x00C80008, 64, 0, 0, 32, 0⟩
def STK_RING_BASE_LO.ent : RegEnt := ⟨0x00C80008, 4096, 64, 1, 0, [⟨STK_RING_BASE_LO.base_lo, .ro, 0⟩]⟩

/-- STK_RING_BASE_HI[i] (11_stokers_rings.md, R437): address and field constants. -/
def STK_RING_BASE_HI.baseAddr : Nat := 0x00C8000C
def STK_RING_BASE_HI.base_hi : Fld := ⟨0x00C8000C, 64, 0, 0, 4, 0⟩
def STK_RING_BASE_HI.ent : RegEnt := ⟨0x00C8000C, 4096, 64, 1, 0, [⟨STK_RING_BASE_HI.base_hi, .ro, 0⟩]⟩

/-- STK_RING_PI[i] (11_stokers_rings.md, R438-R440): address and field constants. -/
def STK_RING_PI.baseAddr : Nat := 0x00C80010
def STK_RING_PI.pi : Fld := ⟨0x00C80010, 64, 0, 0, 16, 0⟩
def STK_RING_PI.ent : RegEnt := ⟨0x00C80010, 4096, 64, 1, 0, [⟨STK_RING_PI.pi, .rw, 0⟩]⟩

/-- STK_RING_CI[i] (11_stokers_rings.md, R438-R442): address and field constants. -/
def STK_RING_CI.baseAddr : Nat := 0x00C80014
def STK_RING_CI.arm : Fld := ⟨0x00C80014, 64, 0, 16, 1, 0⟩
def STK_RING_CI.ci : Fld := ⟨0x00C80014, 64, 0, 0, 16, 0⟩
def STK_RING_CI.ent : RegEnt := ⟨0x00C80014, 4096, 64, 1, 0, [⟨STK_RING_CI.arm, .wo, 0⟩, ⟨STK_RING_CI.ci, .rw, 0⟩]⟩

/-- STK_RING_CTRL[i] (11_stokers_rings.md, R452-R455): address and field constants. -/
def STK_RING_CTRL.baseAddr : Nat := 0x00C80018
def STK_RING_CTRL.park : Fld := ⟨0x00C80018, 64, 0, 31, 1, 0⟩
def STK_RING_CTRL.unpark : Fld := ⟨0x00C80018, 64, 0, 30, 1, 0⟩
def STK_RING_CTRL.reassign : Fld := ⟨0x00C80018, 64, 0, 29, 1, 0⟩
def STK_RING_CTRL.clear_inflight : Fld := ⟨0x00C80018, 64, 0, 28, 1, 0⟩
def STK_RING_CTRL.ent : RegEnt := ⟨0x00C80018, 4096, 64, 1, 0, [⟨STK_RING_CTRL.park, .wo, 1⟩, ⟨STK_RING_CTRL.unpark, .wo, 1⟩, ⟨STK_RING_CTRL.reassign, .wo, 1⟩, ⟨STK_RING_CTRL.clear_inflight, .wo, 0⟩]⟩

/-- STK_RING_NOTIFY[i] (11_stokers_rings.md, R442): address and field constants. -/
def STK_RING_NOTIFY.baseAddr : Nat := 0x00C8001C
def STK_RING_NOTIFY.target : Fld := ⟨0x00C8001C, 64, 0, 30, 2, 0⟩
def STK_RING_NOTIFY.armed : Fld := ⟨0x00C8001C, 64, 0, 29, 1, 1⟩
def STK_RING_NOTIFY.vector : Fld := ⟨0x00C8001C, 64, 0, 0, 11, 0⟩
def STK_RING_NOTIFY.ent : RegEnt := ⟨0x00C8001C, 4096, 64, 1, 0, [⟨STK_RING_NOTIFY.target, .ro, 0⟩, ⟨STK_RING_NOTIFY.armed, .ro, 0⟩, ⟨STK_RING_NOTIFY.vector, .ro, 0⟩]⟩

/-- Every register of block STK. -/
def regTableSTK : List RegEnt :=
  [STK_ID.ent, STK_SYNC.ent, STK_STATUS.ent, STK_FAILED.ent, STK_EVT_STATUS.ent, STK_EVT_ENABLE.ent, STK_LAST_FAULT.ent, STK_RING_ERR_CNT.ent, STK_LOCK_MISUSE_CNT.ent, STK_ABANDON_CNT.ent] ++
  [STK_STOKER_CTRL.ent, STK_STOKER_STATUS.ent, STK_STOKER_PC.ent, STK_STOKER_WDT.ent, STK_IF_SEL.ent, STK_IF_ENTRY0.ent, STK_IF_ENTRY1.ent, STK_IF_ENTRY2.ent, STK_IF_ENTRY3.ent, STK_LOCK_ACQ.ent] ++
  [STK_LOCK_REL.ent, STK_LOCK_PEEK.ent, STK_RING_CFG.ent, STK_RING_ENDS.ent, STK_RING_BASE_LO.ent, STK_RING_BASE_HI.ent, STK_RING_PI.ent, STK_RING_CI.ent, STK_RING_CTRL.ent, STK_RING_NOTIFY.ent]

/-! ### Block NET at 0x00D00000 (12_network_time.md) -/

/-- NET_ID (01_architecture.md, R34): address and field constants. -/
def NET_ID.baseAddr : Nat := 0x00D00000
def NET_ID.block_code : Fld := ⟨0x00D00000, 0, 0, 24, 8, 13⟩
def NET_ID.major : Fld := ⟨0x00D00000, 0, 0, 16, 8, 1⟩
def NET_ID.minor : Fld := ⟨0x00D00000, 0, 0, 8, 8, 0⟩
def NET_ID.ent : RegEnt := ⟨0x00D00000, 1, 0, 1, 0, [⟨NET_ID.block_code, .ro, 0⟩, ⟨NET_ID.major, .ro, 0⟩, ⟨NET_ID.minor, .ro, 0⟩]⟩

/-- NET_SYNC (01_architecture.md, R29,R34): address and field constants. -/
def NET_SYNC.baseAddr : Nat := 0x00D00004
def NET_SYNC.sync_pending : Fld := ⟨0x00D00004, 0, 0, 0, 1, 0⟩
def NET_SYNC.ent : RegEnt := ⟨0x00D00004, 1, 0, 1, 0, [⟨NET_SYNC.sync_pending, .ro, 0⟩]⟩

/-- NET_STATUS (12_network_time.md, R463,R478): address and field constants. -/
def NET_STATUS.baseAddr : Nat := 0x00D00010
def NET_STATUS.genlocked : Fld := ⟨0x00D00010, 0, 0, 8, 4, 0⟩
def NET_STATUS.link : Fld := ⟨0x00D00010, 0, 0, 0, 4, 0⟩
def NET_STATUS.ent : RegEnt := ⟨0x00D00010, 1, 0, 1, 0, [⟨NET_STATUS.genlocked, .ro, 0⟩, ⟨NET_STATUS.link, .ro, 0⟩]⟩

/-- NET_EVT_TB (12_network_time.md, R495): address and field constants. -/
def NET_EVT_TB.baseAddr : Nat := 0x00D00014
def NET_EVT_TB.tb : Fld := ⟨0x00D00014, 0, 0, 0, 2, 0⟩
def NET_EVT_TB.ent : RegEnt := ⟨0x00D00014, 1, 0, 1, 0, [⟨NET_EVT_TB.tb, .ro, 0⟩]⟩

/-- NET_SNAP_CTRL (12_network_time.md, R476): address and field constants. -/
def NET_SNAP_CTRL.baseAddr : Nat := 0x00D00018
def NET_SNAP_CTRL.take : Fld := ⟨0x00D00018, 0, 0, 31, 1, 0⟩
def NET_SNAP_CTRL.valid : Fld := ⟨0x00D00018, 0, 0, 0, 1, 0⟩
def NET_SNAP_CTRL.ent : RegEnt := ⟨0x00D00018, 1, 0, 1, 0, [⟨NET_SNAP_CTRL.take, .wo, 0⟩, ⟨NET_SNAP_CTRL.valid, .ro, 0⟩]⟩

/-- NET_TB_SNAP0[i] (12_network_time.md, R476): address and field constants. -/
def NET_TB_SNAP0.baseAddr : Nat := 0x00D00020
def NET_TB_SNAP0.fraction : Fld := ⟨0x00D00020, 16, 0, 0, 16, 0⟩
def NET_TB_SNAP0.ent : RegEnt := ⟨0x00D00020, 4, 16, 1, 0, [⟨NET_TB_SNAP0.fraction, .ro, 0⟩]⟩

/-- NET_TB_SNAP1[i] (12_network_time.md, R476): address and field constants. -/
def NET_TB_SNAP1.baseAddr : Nat := 0x00D00024
def NET_TB_SNAP1.nanoseconds : Fld := ⟨0x00D00024, 16, 0, 0, 32, 0⟩
def NET_TB_SNAP1.ent : RegEnt := ⟨0x00D00024, 4, 16, 1, 0, [⟨NET_TB_SNAP1.nanoseconds, .ro, 0⟩]⟩

/-- NET_TB_SNAP2[i] (12_network_time.md, R476): address and field constants. -/
def NET_TB_SNAP2.baseAddr : Nat := 0x00D00028
def NET_TB_SNAP2.seconds_lo : Fld := ⟨0x00D00028, 16, 0, 0, 32, 0⟩
def NET_TB_SNAP2.ent : RegEnt := ⟨0x00D00028, 4, 16, 1, 0, [⟨NET_TB_SNAP2.seconds_lo, .ro, 0⟩]⟩

/-- NET_TB_SNAP3[i] (12_network_time.md, R476): address and field constants. -/
def NET_TB_SNAP3.baseAddr : Nat := 0x00D0002C
def NET_TB_SNAP3.seconds_hi : Fld := ⟨0x00D0002C, 16, 0, 0, 16, 0⟩
def NET_TB_SNAP3.ent : RegEnt := ⟨0x00D0002C, 4, 16, 1, 0, [⟨NET_TB_SNAP3.seconds_hi, .ro, 0⟩]⟩

/-- NET_EVT_STATUS (12_network_time.md, R38): address and field constants. -/
def NET_EVT_STATUS.baseAddr : Nat := 0x00D00080
def NET_EVT_STATUS.status : Fld := ⟨0x00D00080, 0, 0, 0, 11, 0⟩
def NET_EVT_STATUS.ent : RegEnt := ⟨0x00D00080, 1, 0, 1, 0, [⟨NET_EVT_STATUS.status, .w1c, 0⟩]⟩

/-- NET_EVT_ENABLE (12_network_time.md, R38): address and field constants. -/
def NET_EVT_ENABLE.baseAddr : Nat := 0x00D00084
def NET_EVT_ENABLE.enable : Fld := ⟨0x00D00084, 0, 0, 0, 11, 0x7BE⟩
def NET_EVT_ENABLE.ent : RegEnt := ⟨0x00D00084, 1, 0, 1, 0, [⟨NET_EVT_ENABLE.enable, .rw, 0⟩]⟩

/-- NET_Q_EVT_STATUS (12_network_time.md, R38,R469): address and field constants. -/
def NET_Q_EVT_STATUS.baseAddr : Nat := 0x00D00088
def NET_Q_EVT_STATUS.status : Fld := ⟨0x00D00088, 0, 0, 0, 16, 0⟩
def NET_Q_EVT_STATUS.ent : RegEnt := ⟨0x00D00088, 1, 0, 1, 0, [⟨NET_Q_EVT_STATUS.status, .w1c, 0⟩]⟩

/-- NET_Q_EVT_ENABLE (12_network_time.md, R38): address and field constants. -/
def NET_Q_EVT_ENABLE.baseAddr : Nat := 0x00D0008C
def NET_Q_EVT_ENABLE.enable : Fld := ⟨0x00D0008C, 0, 0, 0, 16, 0xFFFF⟩
def NET_Q_EVT_ENABLE.ent : RegEnt := ⟨0x00D0008C, 1, 0, 1, 0, [⟨NET_Q_EVT_ENABLE.enable, .rw, 0⟩]⟩

/-- NET_ETH_CTRL[i] (12_network_time.md, R462,R463): address and field constants. -/
def NET_ETH_CTRL.baseAddr : Nat := 0x00D01000
def NET_ETH_CTRL.restart : Fld := ⟨0x00D01000, 1024, 0, 31, 1, 0⟩
def NET_ETH_CTRL.pmd : Fld := ⟨0x00D01000, 1024, 0, 1, 1, 0⟩
def NET_ETH_CTRL.enable : Fld := ⟨0x00D01000, 1024, 0, 0, 1, 0⟩
def NET_ETH_CTRL.ent : RegEnt := ⟨0x00D01000, 4, 1024, 1, 0, [⟨NET_ETH_CTRL.restart, .wo, 0⟩, ⟨NET_ETH_CTRL.pmd, .ro, 0⟩, ⟨NET_ETH_CTRL.enable, .rw, 0⟩]⟩

/-- NET_ETH_STATUS[i] (12_network_time.md, R463): address and field constants. -/
def NET_ETH_STATUS.baseAddr : Nat := 0x00D01004
def NET_ETH_STATUS.an_done : Fld := ⟨0x00D01004, 1024, 0, 4, 1, 0⟩
def NET_ETH_STATUS.trained : Fld := ⟨0x00D01004, 1024, 0, 3, 1, 0⟩
def NET_ETH_STATUS.fec_aligned : Fld := ⟨0x00D01004, 1024, 0, 2, 1, 0⟩
def NET_ETH_STATUS.pcs_locked : Fld := ⟨0x00D01004, 1024, 0, 1, 1, 0⟩
def NET_ETH_STATUS.up : Fld := ⟨0x00D01004, 1024, 0, 0, 1, 0⟩
def NET_ETH_STATUS.ent : RegEnt := ⟨0x00D01004, 4, 1024, 1, 0, [⟨NET_ETH_STATUS.an_done, .ro, 0⟩, ⟨NET_ETH_STATUS.trained, .ro, 0⟩, ⟨NET_ETH_STATUS.fec_aligned, .ro, 0⟩, ⟨NET_ETH_STATUS.pcs_locked, .ro, 0⟩, ⟨NET_ETH_STATUS.up, .ro, 0⟩]⟩

/-- NET_ETH_MAC_LO[i] (12_network_time.md, R464): address and field constants. -/
def NET_ETH_MAC_LO.baseAddr : Nat := 0x00D01008
def NET_ETH_MAC_LO.mac_lo : Fld := ⟨0x00D01008, 1024, 0, 0, 32, 0⟩
def NET_ETH_MAC_LO.ent : RegEnt := ⟨0x00D01008, 4, 1024, 1, 0, [⟨NET_ETH_MAC_LO.mac_lo, .rw, 0⟩]⟩

/-- NET_ETH_MAC_HI[i] (12_network_time.md, R464): address and field constants. -/
def NET_ETH_MAC_HI.baseAddr : Nat := 0x00D0100C
def NET_ETH_MAC_HI.mac_hi : Fld := ⟨0x00D0100C, 1024, 0, 0, 16, 0⟩
def NET_ETH_MAC_HI.ent : RegEnt := ⟨0x00D0100C, 4, 1024, 1, 0, [⟨NET_ETH_MAC_HI.mac_hi, .rw, 0⟩]⟩

/-- NET_ETH_VLAN[i] (12_network_time.md, R464): address and field constants. -/
def NET_ETH_VLAN.baseAddr : Nat := 0x00D01010
def NET_ETH_VLAN.vid : Fld := ⟨0x00D01010, 1024, 0, 0, 12, 0⟩
def NET_ETH_VLAN.ent : RegEnt := ⟨0x00D01010, 4, 1024, 1, 0, [⟨NET_ETH_VLAN.vid, .rw, 0⟩]⟩

/-- NET_ETH_ASYM[i] (12_network_time.md, R482): address and field constants. -/
def NET_ETH_ASYM.baseAddr : Nat := 0x00D01014
def NET_ETH_ASYM.egress_ps : Fld := ⟨0x00D01014, 1024, 0, 16, 16, 0⟩
def NET_ETH_ASYM.ingress_ps : Fld := ⟨0x00D01014, 1024, 0, 0, 16, 0⟩
def NET_ETH_ASYM.ent : RegEnt := ⟨0x00D01014, 4, 1024, 1, 0, [⟨NET_ETH_ASYM.egress_ps, .rw, 0⟩, ⟨NET_ETH_ASYM.ingress_ps, .rw, 0⟩]⟩

/-- NET_ETH_FCS_ERR_CNT[i] (12_network_time.md, R464): address and field constants. -/
def NET_ETH_FCS_ERR_CNT.baseAddr : Nat := 0x00D01020
def NET_ETH_FCS_ERR_CNT.sat : Fld := ⟨0x00D01020, 1024, 0, 31, 1, 0⟩
def NET_ETH_FCS_ERR_CNT.count : Fld := ⟨0x00D01020, 1024, 0, 0, 31, 0⟩
def NET_ETH_FCS_ERR_CNT.ent : RegEnt := ⟨0x00D01020, 4, 1024, 1, 0, [⟨NET_ETH_FCS_ERR_CNT.sat, .w1c, 0⟩, ⟨NET_ETH_FCS_ERR_CNT.count, .w1c, 0⟩]⟩

/-- NET_ETH_FILTER_DROP_CNT[i] (12_network_time.md, R464): address and field constants. -/
def NET_ETH_FILTER_DROP_CNT.baseAddr : Nat := 0x00D01024
def NET_ETH_FILTER_DROP_CNT.sat : Fld := ⟨0x00D01024, 1024, 0, 31, 1, 0⟩
def NET_ETH_FILTER_DROP_CNT.count : Fld := ⟨0x00D01024, 1024, 0, 0, 31, 0⟩
def NET_ETH_FILTER_DROP_CNT.ent : RegEnt := ⟨0x00D01024, 4, 1024, 1, 0, [⟨NET_ETH_FILTER_DROP_CNT.sat, .w1c, 0⟩, ⟨NET_ETH_FILTER_DROP_CNT.count, .w1c, 0⟩]⟩

/-- NET_ETH_SIZE_ERR_CNT[i] (12_network_time.md, R464): address and field constants. -/
def NET_ETH_SIZE_ERR_CNT.baseAddr : Nat := 0x00D01028
def NET_ETH_SIZE_ERR_CNT.sat : Fld := ⟨0x00D01028, 1024, 0, 31, 1, 0⟩
def NET_ETH_SIZE_ERR_CNT.count : Fld := ⟨0x00D01028, 1024, 0, 0, 31, 0⟩
def NET_ETH_SIZE_ERR_CNT.ent : RegEnt := ⟨0x00D01028, 4, 1024, 1, 0, [⟨NET_ETH_SIZE_ERR_CNT.sat, .w1c, 0⟩, ⟨NET_ETH_SIZE_ERR_CNT.count, .w1c, 0⟩]⟩

/-- NET_ETH_MACCTL_DROP_CNT[i] (12_network_time.md, R462): address and field constants. -/
def NET_ETH_MACCTL_DROP_CNT.baseAddr : Nat := 0x00D0102C
def NET_ETH_MACCTL_DROP_CNT.sat : Fld := ⟨0x00D0102C, 1024, 0, 31, 1, 0⟩
def NET_ETH_MACCTL_DROP_CNT.count : Fld := ⟨0x00D0102C, 1024, 0, 0, 31, 0⟩
def NET_ETH_MACCTL_DROP_CNT.ent : RegEnt := ⟨0x00D0102C, 4, 1024, 1, 0, [⟨NET_ETH_MACCTL_DROP_CNT.sat, .w1c, 0⟩, ⟨NET_ETH_MACCTL_DROP_CNT.count, .w1c, 0⟩]⟩

/-- NET_ETH_FRAG_DROP_CNT[i] (12_network_time.md, R465): address and field constants. -/
def NET_ETH_FRAG_DROP_CNT.baseAddr : Nat := 0x00D01030
def NET_ETH_FRAG_DROP_CNT.sat : Fld := ⟨0x00D01030, 1024, 0, 31, 1, 0⟩
def NET_ETH_FRAG_DROP_CNT.count : Fld := ⟨0x00D01030, 1024, 0, 0, 31, 0⟩
def NET_ETH_FRAG_DROP_CNT.ent : RegEnt := ⟨0x00D01030, 4, 1024, 1, 0, [⟨NET_ETH_FRAG_DROP_CNT.sat, .w1c, 0⟩, ⟨NET_ETH_FRAG_DROP_CNT.count, .w1c, 0⟩]⟩

/-- NET_ETH_CSUM_ERR_CNT[i] (12_network_time.md, R465): address and field constants. -/
def NET_ETH_CSUM_ERR_CNT.baseAddr : Nat := 0x00D01034
def NET_ETH_CSUM_ERR_CNT.sat : Fld := ⟨0x00D01034, 1024, 0, 31, 1, 0⟩
def NET_ETH_CSUM_ERR_CNT.count : Fld := ⟨0x00D01034, 1024, 0, 0, 31, 0⟩
def NET_ETH_CSUM_ERR_CNT.ent : RegEnt := ⟨0x00D01034, 4, 1024, 1, 0, [⟨NET_ETH_CSUM_ERR_CNT.sat, .w1c, 0⟩, ⟨NET_ETH_CSUM_ERR_CNT.count, .w1c, 0⟩]⟩

/-- NET_ETH_TYPE_DROP_CNT[i] (12_network_time.md, R465): address and field constants. -/
def NET_ETH_TYPE_DROP_CNT.baseAddr : Nat := 0x00D01038
def NET_ETH_TYPE_DROP_CNT.sat : Fld := ⟨0x00D01038, 1024, 0, 31, 1, 0⟩
def NET_ETH_TYPE_DROP_CNT.count : Fld := ⟨0x00D01038, 1024, 0, 0, 31, 0⟩
def NET_ETH_TYPE_DROP_CNT.ent : RegEnt := ⟨0x00D01038, 4, 1024, 1, 0, [⟨NET_ETH_TYPE_DROP_CNT.sat, .w1c, 0⟩, ⟨NET_ETH_TYPE_DROP_CNT.count, .w1c, 0⟩]⟩

/-- NET_ETH_PTP_DROP_CNT[i] (12_network_time.md, R479): address and field constants. -/
def NET_ETH_PTP_DROP_CNT.baseAddr : Nat := 0x00D0103C
def NET_ETH_PTP_DROP_CNT.sat : Fld := ⟨0x00D0103C, 1024, 0, 31, 1, 0⟩
def NET_ETH_PTP_DROP_CNT.count : Fld := ⟨0x00D0103C, 1024, 0, 0, 31, 0⟩
def NET_ETH_PTP_DROP_CNT.ent : RegEnt := ⟨0x00D0103C, 4, 1024, 1, 0, [⟨NET_ETH_PTP_DROP_CNT.sat, .w1c, 0⟩, ⟨NET_ETH_PTP_DROP_CNT.count, .w1c, 0⟩]⟩

/-- NET_ETH_STAMP_OVF_CNT[i] (12_network_time.md, R484): address and field constants. -/
def NET_ETH_STAMP_OVF_CNT.baseAddr : Nat := 0x00D01040
def NET_ETH_STAMP_OVF_CNT.sat : Fld := ⟨0x00D01040, 1024, 0, 31, 1, 0⟩
def NET_ETH_STAMP_OVF_CNT.count : Fld := ⟨0x00D01040, 1024, 0, 0, 31, 0⟩
def NET_ETH_STAMP_OVF_CNT.ent : RegEnt := ⟨0x00D01040, 4, 1024, 1, 0, [⟨NET_ETH_STAMP_OVF_CNT.sat, .w1c, 0⟩, ⟨NET_ETH_STAMP_OVF_CNT.count, .w1c, 0⟩]⟩

/-- NET_ETH_MCAST_LO[i][j] (12_network_time.md, R464): address and field constants. -/
def NET_ETH_MCAST_LO.baseAddr : Nat := 0x00D01100
def NET_ETH_MCAST_LO.mac_lo : Fld := ⟨0x00D01100, 1024, 8, 0, 32, 0⟩
def NET_ETH_MCAST_LO.ent : RegEnt := ⟨0x00D01100, 4, 1024, 32, 8, [⟨NET_ETH_MCAST_LO.mac_lo, .rw, 0⟩]⟩

/-- NET_ETH_MCAST_HI[i][j] (12_network_time.md, R464): address and field constants. -/
def NET_ETH_MCAST_HI.baseAddr : Nat := 0x00D01104
def NET_ETH_MCAST_HI.valid : Fld := ⟨0x00D01104, 1024, 8, 31, 1, 0⟩
def NET_ETH_MCAST_HI.mac_hi : Fld := ⟨0x00D01104, 1024, 8, 0, 16, 0⟩
def NET_ETH_MCAST_HI.ent : RegEnt := ⟨0x00D01104, 4, 1024, 32, 8, [⟨NET_ETH_MCAST_HI.valid, .rw, 0⟩, ⟨NET_ETH_MCAST_HI.mac_hi, .rw, 0⟩]⟩

/-- NET_ETH_CTRL_UDP[i][j] (12_network_time.md, R465): address and field constants. -/
def NET_ETH_CTRL_UDP.baseAddr : Nat := 0x00D01200
def NET_ETH_CTRL_UDP.valid : Fld := ⟨0x00D01200, 1024, 4, 31, 1, 0⟩
def NET_ETH_CTRL_UDP.udp_port : Fld := ⟨0x00D01200, 1024, 4, 0, 16, 0⟩
def NET_ETH_CTRL_UDP.ent : RegEnt := ⟨0x00D01200, 4, 1024, 8, 4, [⟨NET_ETH_CTRL_UDP.valid, .rw, 0⟩, ⟨NET_ETH_CTRL_UDP.udp_port, .rw, 0⟩]⟩

/-- NET_Q_CFG[i] (12_network_time.md, R468): address and field constants. -/
def NET_Q_CFG.baseAddr : Nat := 0x00D02000
def NET_Q_CFG.dir : Fld := ⟨0x00D02000, 64, 0, 31, 1, 0⟩
def NET_Q_CFG.owner : Fld := ⟨0x00D02000, 64, 0, 24, 6, 0⟩
def NET_Q_CFG.size_log2 : Fld := ⟨0x00D02000, 64, 0, 16, 4, 0⟩
def NET_Q_CFG.source : Fld := ⟨0x00D02000, 64, 0, 0, 2, 0⟩
def NET_Q_CFG.ent : RegEnt := ⟨0x00D02000, 16, 64, 1, 0, [⟨NET_Q_CFG.dir, .ro, 0⟩, ⟨NET_Q_CFG.owner, .ro, 0⟩, ⟨NET_Q_CFG.size_log2, .ro, 0⟩, ⟨NET_Q_CFG.source, .ro, 0⟩]⟩

/-- NET_Q_BASE_LO[i] (12_network_time.md, R468): address and field constants. -/
def NET_Q_BASE_LO.baseAddr : Nat := 0x00D02004
def NET_Q_BASE_LO.base_lo : Fld := ⟨0x00D02004, 64, 0, 0, 32, 0⟩
def NET_Q_BASE_LO.ent : RegEnt := ⟨0x00D02004, 16, 64, 1, 0, [⟨NET_Q_BASE_LO.base_lo, .ro, 0⟩]⟩

/-- NET_Q_BASE_HI[i] (12_network_time.md, R468): address and field constants. -/
def NET_Q_BASE_HI.baseAddr : Nat := 0x00D02008
def NET_Q_BASE_HI.base_hi : Fld := ⟨0x00D02008, 64, 0, 0, 4, 0⟩
def NET_Q_BASE_HI.ent : RegEnt := ⟨0x00D02008, 16, 64, 1, 0, [⟨NET_Q_BASE_HI.base_hi, .ro, 0⟩]⟩

/-- NET_Q_HEAD[i] (12_network_time.md, R468): address and field constants. -/
def NET_Q_HEAD.baseAddr : Nat := 0x00D0200C
def NET_Q_HEAD.index : Fld := ⟨0x00D0200C, 64, 0, 0, 13, 0⟩
def NET_Q_HEAD.ent : RegEnt := ⟨0x00D0200C, 16, 64, 1, 0, [⟨NET_Q_HEAD.index, .rw, 0⟩]⟩

/-- NET_Q_TAIL[i] (12_network_time.md, R468): address and field constants. -/
def NET_Q_TAIL.baseAddr : Nat := 0x00D02010
def NET_Q_TAIL.index : Fld := ⟨0x00D02010, 64, 0, 0, 13, 0⟩
def NET_Q_TAIL.ent : RegEnt := ⟨0x00D02010, 16, 64, 1, 0, [⟨NET_Q_TAIL.index, .rw, 0⟩]⟩

/-- NET_Q_DROP_CNT[i] (12_network_time.md, R469): address and field constants. -/
def NET_Q_DROP_CNT.baseAddr : Nat := 0x00D02014
def NET_Q_DROP_CNT.sat : Fld := ⟨0x00D02014, 64, 0, 31, 1, 0⟩
def NET_Q_DROP_CNT.count : Fld := ⟨0x00D02014, 64, 0, 0, 31, 0⟩
def NET_Q_DROP_CNT.ent : RegEnt := ⟨0x00D02014, 16, 64, 1, 0, [⟨NET_Q_DROP_CNT.sat, .w1c, 0⟩, ⟨NET_Q_DROP_CNT.count, .w1c, 0⟩]⟩

/-- NET_TB_CTRL[i] (12_network_time.md, R473,R477,R478): address and field constants. -/
def NET_TB_CTRL.baseAddr : Nat := 0x00D03000
def NET_TB_CTRL.set : Fld := ⟨0x00D03000, 256, 0, 31, 1, 0⟩
def NET_TB_CTRL.state : Fld := ⟨0x00D03000, 256, 0, 28, 2, 0⟩
def NET_TB_CTRL.bandwidth : Fld := ⟨0x00D03000, 256, 0, 8, 2, 0⟩
def NET_TB_CTRL.gl_input : Fld := ⟨0x00D03000, 256, 0, 4, 3, 0⟩
def NET_TB_CTRL.discipline : Fld := ⟨0x00D03000, 256, 0, 0, 2, 0⟩
def NET_TB_CTRL.ent : RegEnt := ⟨0x00D03000, 4, 256, 1, 0, [⟨NET_TB_CTRL.set, .wo, 0⟩, ⟨NET_TB_CTRL.state, .rw, 0⟩, ⟨NET_TB_CTRL.bandwidth, .rw, 0⟩, ⟨NET_TB_CTRL.gl_input, .rw, 0⟩, ⟨NET_TB_CTRL.discipline, .rw, 0⟩]⟩

/-- NET_TB_STATUS[i] (12_network_time.md, R473): address and field constants. -/
def NET_TB_STATUS.baseAddr : Nat := 0x00D03004
def NET_TB_STATUS.wr_dropped : Fld := ⟨0x00D03004, 256, 0, 31, 1, 0⟩
def NET_TB_STATUS.set_refused : Fld := ⟨0x00D03004, 256, 0, 30, 1, 0⟩
def NET_TB_STATUS.ent : RegEnt := ⟨0x00D03004, 4, 256, 1, 0, [⟨NET_TB_STATUS.wr_dropped, .w1c, 0⟩, ⟨NET_TB_STATUS.set_refused, .w1c, 0⟩]⟩

/-- NET_TB_TIME0[i] (12_network_time.md, R471,R48): address and field constants. -/
def NET_TB_TIME0.baseAddr : Nat := 0x00D03010
def NET_TB_TIME0.fraction : Fld := ⟨0x00D03010, 256, 0, 0, 16, 0⟩
def NET_TB_TIME0.ent : RegEnt := ⟨0x00D03010, 4, 256, 1, 0, [⟨NET_TB_TIME0.fraction, .ro, 0⟩]⟩

/-- NET_TB_TIME1[i] (12_network_time.md, R471,R48): address and field constants. -/
def NET_TB_TIME1.baseAddr : Nat := 0x00D03014
def NET_TB_TIME1.nanoseconds : Fld := ⟨0x00D03014, 256, 0, 0, 32, 0⟩
def NET_TB_TIME1.ent : RegEnt := ⟨0x00D03014, 4, 256, 1, 0, [⟨NET_TB_TIME1.nanoseconds, .ro, 0⟩]⟩

/-- NET_TB_TIME2[i] (12_network_time.md, R471,R48): address and field constants. -/
def NET_TB_TIME2.baseAddr : Nat := 0x00D03018
def NET_TB_TIME2.seconds_lo : Fld := ⟨0x00D03018, 256, 0, 0, 32, 0⟩
def NET_TB_TIME2.ent : RegEnt := ⟨0x00D03018, 4, 256, 1, 0, [⟨NET_TB_TIME2.seconds_lo, .ro, 0⟩]⟩

/-- NET_TB_TIME3[i] (12_network_time.md, R471,R48): address and field constants. -/
def NET_TB_TIME3.baseAddr : Nat := 0x00D0301C
def NET_TB_TIME3.seconds_hi : Fld := ⟨0x00D0301C, 256, 0, 0, 16, 0⟩
def NET_TB_TIME3.ent : RegEnt := ⟨0x00D0301C, 4, 256, 1, 0, [⟨NET_TB_TIME3.seconds_hi, .ro, 0⟩]⟩

/-- NET_TB_RATE[i] (12_network_time.md, R471,R472): address and field constants. -/
def NET_TB_RATE.baseAddr : Nat := 0x00D03020
def NET_TB_RATE.rate : Fld := ⟨0x00D03020, 256, 0, 0, 32, 0⟩
def NET_TB_RATE.ent : RegEnt := ⟨0x00D03020, 4, 256, 1, 0, [⟨NET_TB_RATE.rate, .rw, 0⟩]⟩

/-- NET_TB_STEP_NS[i] (12_network_time.md, R473): address and field constants. -/
def NET_TB_STEP_NS.baseAddr : Nat := 0x00D03024
def NET_TB_STEP_NS.step_ns : Fld := ⟨0x00D03024, 256, 0, 0, 32, 0⟩
def NET_TB_STEP_NS.ent : RegEnt := ⟨0x00D03024, 4, 256, 1, 0, [⟨NET_TB_STEP_NS.step_ns, .rw, 0⟩]⟩

/-- NET_TB_STEP_CTRL[i] (12_network_time.md, R473): address and field constants. -/
def NET_TB_STEP_CTRL.baseAddr : Nat := 0x00D03028
def NET_TB_STEP_CTRL.go : Fld := ⟨0x00D03028, 256, 0, 31, 1, 0⟩
def NET_TB_STEP_CTRL.frac : Fld := ⟨0x00D03028, 256, 0, 0, 16, 0⟩
def NET_TB_STEP_CTRL.ent : RegEnt := ⟨0x00D03028, 4, 256, 1, 0, [⟨NET_TB_STEP_CTRL.go, .wo, 0⟩, ⟨NET_TB_STEP_CTRL.frac, .rw, 0⟩]⟩

/-- NET_TB_SET0[i] (12_network_time.md, R473): address and field constants. -/
def NET_TB_SET0.baseAddr : Nat := 0x00D03030
def NET_TB_SET0.fraction : Fld := ⟨0x00D03030, 256, 0, 0, 16, 0⟩
def NET_TB_SET0.ent : RegEnt := ⟨0x00D03030, 4, 256, 1, 0, [⟨NET_TB_SET0.fraction, .rw, 0⟩]⟩

/-- NET_TB_SET1[i] (12_network_time.md, R473): address and field constants. -/
def NET_TB_SET1.baseAddr : Nat := 0x00D03034
def NET_TB_SET1.nanoseconds : Fld := ⟨0x00D03034, 256, 0, 0, 32, 0⟩
def NET_TB_SET1.ent : RegEnt := ⟨0x00D03034, 4, 256, 1, 0, [⟨NET_TB_SET1.nanoseconds, .rw, 0⟩]⟩

/-- NET_TB_SET2[i] (12_network_time.md, R473): address and field constants. -/
def NET_TB_SET2.baseAddr : Nat := 0x00D03038
def NET_TB_SET2.seconds_lo : Fld := ⟨0x00D03038, 256, 0, 0, 32, 0⟩
def NET_TB_SET2.ent : RegEnt := ⟨0x00D03038, 4, 256, 1, 0, [⟨NET_TB_SET2.seconds_lo, .rw, 0⟩]⟩

/-- NET_TB_SET3[i] (12_network_time.md, R473): address and field constants. -/
def NET_TB_SET3.baseAddr : Nat := 0x00D0303C
def NET_TB_SET3.seconds_hi : Fld := ⟨0x00D0303C, 256, 0, 0, 16, 0⟩
def NET_TB_SET3.ent : RegEnt := ⟨0x00D0303C, 4, 256, 1, 0, [⟨NET_TB_SET3.seconds_hi, .rw, 0⟩]⟩

/-- NET_TB_LAST_STEP[i] (12_network_time.md, R473): address and field constants. -/
def NET_TB_LAST_STEP.baseAddr : Nat := 0x00D03040
def NET_TB_LAST_STEP.step_ns : Fld := ⟨0x00D03040, 256, 0, 0, 32, 0⟩
def NET_TB_LAST_STEP.ent : RegEnt := ⟨0x00D03040, 4, 256, 1, 0, [⟨NET_TB_LAST_STEP.step_ns, .ro, 0⟩]⟩

/-- NET_TB_GL_PERIOD[i] (12_network_time.md, R477,R478): address and field constants. -/
def NET_TB_GL_PERIOD.baseAddr : Nat := 0x00D03044
def NET_TB_GL_PERIOD.p_num : Fld := ⟨0x00D03044, 256, 0, 16, 16, 0⟩
def NET_TB_GL_PERIOD.p_den : Fld := ⟨0x00D03044, 256, 0, 0, 16, 0⟩
def NET_TB_GL_PERIOD.ent : RegEnt := ⟨0x00D03044, 4, 256, 1, 0, [⟨NET_TB_GL_PERIOD.p_num, .rw, 0⟩, ⟨NET_TB_GL_PERIOD.p_den, .rw, 0⟩]⟩

/-- NET_TB_GL_OFFSET[i] (12_network_time.md, R477): address and field constants. -/
def NET_TB_GL_OFFSET.baseAddr : Nat := 0x00D03048
def NET_TB_GL_OFFSET.offset_ns : Fld := ⟨0x00D03048, 256, 0, 0, 32, 0⟩
def NET_TB_GL_OFFSET.ent : RegEnt := ⟨0x00D03048, 4, 256, 1, 0, [⟨NET_TB_GL_OFFSET.offset_ns, .rw, 0⟩]⟩

/-- NET_TB_GL_ERR[i] (12_network_time.md, R477): address and field constants. -/
def NET_TB_GL_ERR.baseAddr : Nat := 0x00D0304C
def NET_TB_GL_ERR.e_ns : Fld := ⟨0x00D0304C, 256, 0, 0, 32, 0⟩
def NET_TB_GL_ERR.ent : RegEnt := ⟨0x00D0304C, 4, 256, 1, 0, [⟨NET_TB_GL_ERR.e_ns, .ro, 0⟩]⟩

/-- NET_TB_PTP[i] (12_network_time.md, R479,R480): address and field constants. -/
def NET_TB_PTP.baseAddr : Nat := 0x00D03050
def NET_TB_PTP.enable : Fld := ⟨0x00D03050, 256, 0, 31, 1, 0⟩
def NET_TB_PTP.port_mask : Fld := ⟨0x00D03050, 256, 0, 24, 4, 0⟩
def NET_TB_PTP.transport : Fld := ⟨0x00D03050, 256, 0, 20, 2, 0⟩
def NET_TB_PTP.profile : Fld := ⟨0x00D03050, 256, 0, 16, 3, 0⟩
def NET_TB_PTP.boundary : Fld := ⟨0x00D03050, 256, 0, 15, 1, 0⟩
def NET_TB_PTP.domain : Fld := ⟨0x00D03050, 256, 0, 0, 8, 0⟩
def NET_TB_PTP.ent : RegEnt := ⟨0x00D03050, 4, 256, 1, 0, [⟨NET_TB_PTP.enable, .rw, 0⟩, ⟨NET_TB_PTP.port_mask, .rw, 0⟩, ⟨NET_TB_PTP.transport, .rw, 0⟩, ⟨NET_TB_PTP.profile, .rw, 0⟩, ⟨NET_TB_PTP.boundary, .rw, 0⟩, ⟨NET_TB_PTP.domain, .rw, 0⟩]⟩

/-- NET_TB_STEP_CNT[i] (12_network_time.md, R473): address and field constants. -/
def NET_TB_STEP_CNT.baseAddr : Nat := 0x00D03060
def NET_TB_STEP_CNT.sat : Fld := ⟨0x00D03060, 256, 0, 31, 1, 0⟩
def NET_TB_STEP_CNT.count : Fld := ⟨0x00D03060, 256, 0, 0, 31, 0⟩
def NET_TB_STEP_CNT.ent : RegEnt := ⟨0x00D03060, 4, 256, 1, 0, [⟨NET_TB_STEP_CNT.sat, .w1c, 0⟩, ⟨NET_TB_STEP_CNT.count, .w1c, 0⟩]⟩

/-- NET_TPO_CTRL[i] (12_network_time.md, R485-R489): address and field constants. -/
def NET_TPO_CTRL.baseAddr : Nat := 0x00D04000
def NET_TPO_CTRL.arm : Fld := ⟨0x00D04000, 64, 0, 31, 1, 0⟩
def NET_TPO_CTRL.disarm : Fld := ⟨0x00D04000, 64, 0, 30, 1, 0⟩
def NET_TPO_CTRL.src : Fld := ⟨0x00D04000, 64, 0, 16, 1, 0⟩
def NET_TPO_CTRL.index : Fld := ⟨0x00D04000, 64, 0, 12, 2, 0⟩
def NET_TPO_CTRL.polarity : Fld := ⟨0x00D04000, 64, 0, 8, 1, 0⟩
def NET_TPO_CTRL.mode : Fld := ⟨0x00D04000, 64, 0, 0, 1, 0⟩
def NET_TPO_CTRL.ent : RegEnt := ⟨0x00D04000, 8, 64, 1, 0, [⟨NET_TPO_CTRL.arm, .wo, 0⟩, ⟨NET_TPO_CTRL.disarm, .wo, 0⟩, ⟨NET_TPO_CTRL.src, .rw, 0⟩, ⟨NET_TPO_CTRL.index, .rw, 0⟩, ⟨NET_TPO_CTRL.polarity, .rw, 0⟩, ⟨NET_TPO_CTRL.mode, .rw, 0⟩]⟩

/-- NET_TPO_STATUS[i] (12_network_time.md, R485,R488): address and field constants. -/
def NET_TPO_STATUS.baseAddr : Nat := 0x00D04004
def NET_TPO_STATUS.armed : Fld := ⟨0x00D04004, 64, 0, 31, 1, 0⟩
def NET_TPO_STATUS.active : Fld := ⟨0x00D04004, 64, 0, 30, 1, 0⟩
def NET_TPO_STATUS.err : Fld := ⟨0x00D04004, 64, 0, 29, 1, 0⟩
def NET_TPO_STATUS.ent : RegEnt := ⟨0x00D04004, 8, 64, 1, 0, [⟨NET_TPO_STATUS.armed, .ro, 0⟩, ⟨NET_TPO_STATUS.active, .ro, 0⟩, ⟨NET_TPO_STATUS.err, .ro, 0⟩]⟩

/-- NET_TPO_START0[i] (12_network_time.md, R485): address and field constants. -/
def NET_TPO_START0.baseAddr : Nat := 0x00D04008
def NET_TPO_START0.fraction : Fld := ⟨0x00D04008, 64, 0, 0, 16, 0⟩
def NET_TPO_START0.ent : RegEnt := ⟨0x00D04008, 8, 64, 1, 0, [⟨NET_TPO_START0.fraction, .rw, 0⟩]⟩

/-- NET_TPO_START1[i] (12_network_time.md, R485): address and field constants. -/
def NET_TPO_START1.baseAddr : Nat := 0x00D0400C
def NET_TPO_START1.nanoseconds : Fld := ⟨0x00D0400C, 64, 0, 0, 32, 0⟩
def NET_TPO_START1.ent : RegEnt := ⟨0x00D0400C, 8, 64, 1, 0, [⟨NET_TPO_START1.nanoseconds, .rw, 0⟩]⟩

/-- NET_TPO_START2[i] (12_network_time.md, R485): address and field constants. -/
def NET_TPO_START2.baseAddr : Nat := 0x00D04010
def NET_TPO_START2.seconds_lo : Fld := ⟨0x00D04010, 64, 0, 0, 32, 0⟩
def NET_TPO_START2.ent : RegEnt := ⟨0x00D04010, 8, 64, 1, 0, [⟨NET_TPO_START2.seconds_lo, .rw, 0⟩]⟩

/-- NET_TPO_START3[i] (12_network_time.md, R485): address and field constants. -/
def NET_TPO_START3.baseAddr : Nat := 0x00D04014
def NET_TPO_START3.seconds_hi : Fld := ⟨0x00D04014, 64, 0, 0, 16, 0⟩
def NET_TPO_START3.ent : RegEnt := ⟨0x00D04014, 8, 64, 1, 0, [⟨NET_TPO_START3.seconds_hi, .rw, 0⟩]⟩

/-- NET_TPO_PER_NUM[i] (12_network_time.md, R485,R488): address and field constants. -/
def NET_TPO_PER_NUM.baseAddr : Nat := 0x00D04018
def NET_TPO_PER_NUM.per : Fld := ⟨0x00D04018, 64, 0, 0, 32, 1⟩
def NET_TPO_PER_NUM.ent : RegEnt := ⟨0x00D04018, 8, 64, 1, 0, [⟨NET_TPO_PER_NUM.per, .rw, 0⟩]⟩

/-- NET_TPO_PER_DEN[i] (12_network_time.md, R485,R488): address and field constants. -/
def NET_TPO_PER_DEN.baseAddr : Nat := 0x00D0401C
def NET_TPO_PER_DEN.per : Fld := ⟨0x00D0401C, 64, 0, 0, 32, 1⟩
def NET_TPO_PER_DEN.ent : RegEnt := ⟨0x00D0401C, 8, 64, 1, 0, [⟨NET_TPO_PER_DEN.per, .rw, 0⟩]⟩

/-- NET_TPO_WIDTH[i] (12_network_time.md, R485,R488): address and field constants. -/
def NET_TPO_WIDTH.baseAddr : Nat := 0x00D04020
def NET_TPO_WIDTH.width_ns : Fld := ⟨0x00D04020, 64, 0, 0, 32, 1000⟩
def NET_TPO_WIDTH.ent : RegEnt := ⟨0x00D04020, 8, 64, 1, 0, [⟨NET_TPO_WIDTH.width_ns, .rw, 0⟩]⟩

/-- NET_TPO_LATE_CNT[i] (12_network_time.md, R487): address and field constants. -/
def NET_TPO_LATE_CNT.baseAddr : Nat := 0x00D04024
def NET_TPO_LATE_CNT.sat : Fld := ⟨0x00D04024, 64, 0, 31, 1, 0⟩
def NET_TPO_LATE_CNT.count : Fld := ⟨0x00D04024, 64, 0, 0, 31, 0⟩
def NET_TPO_LATE_CNT.ent : RegEnt := ⟨0x00D04024, 8, 64, 1, 0, [⟨NET_TPO_LATE_CNT.sat, .w1c, 0⟩, ⟨NET_TPO_LATE_CNT.count, .w1c, 0⟩]⟩

/-- NET_TPO_SKIP_CNT[i] (12_network_time.md, R490): address and field constants. -/
def NET_TPO_SKIP_CNT.baseAddr : Nat := 0x00D04028
def NET_TPO_SKIP_CNT.sat : Fld := ⟨0x00D04028, 64, 0, 31, 1, 0⟩
def NET_TPO_SKIP_CNT.count : Fld := ⟨0x00D04028, 64, 0, 0, 31, 0⟩
def NET_TPO_SKIP_CNT.ent : RegEnt := ⟨0x00D04028, 8, 64, 1, 0, [⟨NET_TPO_SKIP_CNT.sat, .w1c, 0⟩, ⟨NET_TPO_SKIP_CNT.count, .w1c, 0⟩]⟩

/-- NET_CAP_CTRL[i] (12_network_time.md, R492): address and field constants. -/
def NET_CAP_CTRL.baseAddr : Nat := 0x00D05000
def NET_CAP_CTRL.enable : Fld := ⟨0x00D05000, 64, 0, 31, 1, 0⟩
def NET_CAP_CTRL.edge : Fld := ⟨0x00D05000, 64, 0, 8, 2, 1⟩
def NET_CAP_CTRL.filter : Fld := ⟨0x00D05000, 64, 0, 4, 2, 1⟩
def NET_CAP_CTRL.tb : Fld := ⟨0x00D05000, 64, 0, 0, 2, 0⟩
def NET_CAP_CTRL.ent : RegEnt := ⟨0x00D05000, 8, 64, 1, 0, [⟨NET_CAP_CTRL.enable, .rw, 0⟩, ⟨NET_CAP_CTRL.edge, .rw, 0⟩, ⟨NET_CAP_CTRL.filter, .rw, 0⟩, ⟨NET_CAP_CTRL.tb, .rw, 0⟩]⟩

/-- NET_CAP_STATUS[i] (12_network_time.md, R493,R494): address and field constants. -/
def NET_CAP_STATUS.baseAddr : Nat := 0x00D05004
def NET_CAP_STATUS.overvolt : Fld := ⟨0x00D05004, 64, 0, 31, 1, 0⟩
def NET_CAP_STATUS.level : Fld := ⟨0x00D05004, 64, 0, 30, 1, 0⟩
def NET_CAP_STATUS.fill : Fld := ⟨0x00D05004, 64, 0, 0, 5, 0⟩
def NET_CAP_STATUS.ent : RegEnt := ⟨0x00D05004, 8, 64, 1, 0, [⟨NET_CAP_STATUS.overvolt, .ro, 0⟩, ⟨NET_CAP_STATUS.level, .ro, 0⟩, ⟨NET_CAP_STATUS.fill, .ro, 0⟩]⟩

/-- NET_CAP_STAMP0[i] (12_network_time.md, R493,R6): address and field constants. -/
def NET_CAP_STAMP0.baseAddr : Nat := 0x00D05008
def NET_CAP_STAMP0.valid : Fld := ⟨0x00D05008, 64, 0, 31, 1, 0⟩
def NET_CAP_STAMP0.rising : Fld := ⟨0x00D05008, 64, 0, 30, 1, 0⟩
def NET_CAP_STAMP0.fraction : Fld := ⟨0x00D05008, 64, 0, 0, 16, 0⟩
def NET_CAP_STAMP0.ent : RegEnt := ⟨0x00D05008, 8, 64, 1, 0, [⟨NET_CAP_STAMP0.valid, .rc, 0⟩, ⟨NET_CAP_STAMP0.rising, .rc, 0⟩, ⟨NET_CAP_STAMP0.fraction, .rc, 0⟩]⟩

/-- NET_CAP_STAMP1[i] (12_network_time.md, R493,R48): address and field constants. -/
def NET_CAP_STAMP1.baseAddr : Nat := 0x00D0500C
def NET_CAP_STAMP1.nanoseconds : Fld := ⟨0x00D0500C, 64, 0, 0, 32, 0⟩
def NET_CAP_STAMP1.ent : RegEnt := ⟨0x00D0500C, 8, 64, 1, 0, [⟨NET_CAP_STAMP1.nanoseconds, .ro, 0⟩]⟩

/-- NET_CAP_STAMP2[i] (12_network_time.md, R493,R48): address and field constants. -/
def NET_CAP_STAMP2.baseAddr : Nat := 0x00D05010
def NET_CAP_STAMP2.seconds_lo : Fld := ⟨0x00D05010, 64, 0, 0, 32, 0⟩
def NET_CAP_STAMP2.ent : RegEnt := ⟨0x00D05010, 8, 64, 1, 0, [⟨NET_CAP_STAMP2.seconds_lo, .ro, 0⟩]⟩

/-- NET_CAP_STAMP3[i] (12_network_time.md, R493,R48): address and field constants. -/
def NET_CAP_STAMP3.baseAddr : Nat := 0x00D05014
def NET_CAP_STAMP3.seconds_hi : Fld := ⟨0x00D05014, 64, 0, 0, 16, 0⟩
def NET_CAP_STAMP3.ent : RegEnt := ⟨0x00D05014, 8, 64, 1, 0, [⟨NET_CAP_STAMP3.seconds_hi, .ro, 0⟩]⟩

/-- NET_CAP_OVF_CNT[i] (12_network_time.md, R493): address and field constants. -/
def NET_CAP_OVF_CNT.baseAddr : Nat := 0x00D05018
def NET_CAP_OVF_CNT.sat : Fld := ⟨0x00D05018, 64, 0, 31, 1, 0⟩
def NET_CAP_OVF_CNT.count : Fld := ⟨0x00D05018, 64, 0, 0, 31, 0⟩
def NET_CAP_OVF_CNT.ent : RegEnt := ⟨0x00D05018, 8, 64, 1, 0, [⟨NET_CAP_OVF_CNT.sat, .w1c, 0⟩, ⟨NET_CAP_OVF_CNT.count, .w1c, 0⟩]⟩

/-- Every register of block NET. -/
def regTableNET : List RegEnt :=
  [NET_ID.ent, NET_SYNC.ent, NET_STATUS.ent, NET_EVT_TB.ent, NET_SNAP_CTRL.ent, NET_TB_SNAP0.ent, NET_TB_SNAP1.ent, NET_TB_SNAP2.ent, NET_TB_SNAP3.ent, NET_EVT_STATUS.ent] ++
  [NET_EVT_ENABLE.ent, NET_Q_EVT_STATUS.ent, NET_Q_EVT_ENABLE.ent, NET_ETH_CTRL.ent, NET_ETH_STATUS.ent, NET_ETH_MAC_LO.ent, NET_ETH_MAC_HI.ent, NET_ETH_VLAN.ent, NET_ETH_ASYM.ent, NET_ETH_FCS_ERR_CNT.ent] ++
  [NET_ETH_FILTER_DROP_CNT.ent, NET_ETH_SIZE_ERR_CNT.ent, NET_ETH_MACCTL_DROP_CNT.ent, NET_ETH_FRAG_DROP_CNT.ent, NET_ETH_CSUM_ERR_CNT.ent, NET_ETH_TYPE_DROP_CNT.ent, NET_ETH_PTP_DROP_CNT.ent, NET_ETH_STAMP_OVF_CNT.ent, NET_ETH_MCAST_LO.ent, NET_ETH_MCAST_HI.ent] ++
  [NET_ETH_CTRL_UDP.ent, NET_Q_CFG.ent, NET_Q_BASE_LO.ent, NET_Q_BASE_HI.ent, NET_Q_HEAD.ent, NET_Q_TAIL.ent, NET_Q_DROP_CNT.ent, NET_TB_CTRL.ent, NET_TB_STATUS.ent, NET_TB_TIME0.ent] ++
  [NET_TB_TIME1.ent, NET_TB_TIME2.ent, NET_TB_TIME3.ent, NET_TB_RATE.ent, NET_TB_STEP_NS.ent, NET_TB_STEP_CTRL.ent, NET_TB_SET0.ent, NET_TB_SET1.ent, NET_TB_SET2.ent, NET_TB_SET3.ent] ++
  [NET_TB_LAST_STEP.ent, NET_TB_GL_PERIOD.ent, NET_TB_GL_OFFSET.ent, NET_TB_GL_ERR.ent, NET_TB_PTP.ent, NET_TB_STEP_CNT.ent, NET_TPO_CTRL.ent, NET_TPO_STATUS.ent, NET_TPO_START0.ent, NET_TPO_START1.ent] ++
  [NET_TPO_START2.ent, NET_TPO_START3.ent, NET_TPO_PER_NUM.ent, NET_TPO_PER_DEN.ent, NET_TPO_WIDTH.ent, NET_TPO_LATE_CNT.ent, NET_TPO_SKIP_CNT.ent, NET_CAP_CTRL.ent, NET_CAP_STATUS.ent, NET_CAP_STAMP0.ent] ++
  [NET_CAP_STAMP1.ent, NET_CAP_STAMP2.ent, NET_CAP_STAMP3.ent, NET_CAP_OVF_CNT.ent]

/-! ### Block SEC at 0x00E00000 (13_security.md) -/

/-- SEC_ID (01_architecture.md, R34): address and field constants. -/
def SEC_ID.baseAddr : Nat := 0x00E00000
def SEC_ID.block_code : Fld := ⟨0x00E00000, 0, 0, 24, 8, 14⟩
def SEC_ID.major : Fld := ⟨0x00E00000, 0, 0, 16, 8, 1⟩
def SEC_ID.minor : Fld := ⟨0x00E00000, 0, 0, 8, 8, 0⟩
def SEC_ID.ent : RegEnt := ⟨0x00E00000, 1, 0, 1, 0, [⟨SEC_ID.block_code, .ro, 0⟩, ⟨SEC_ID.major, .ro, 0⟩, ⟨SEC_ID.minor, .ro, 0⟩]⟩

/-- SEC_SYNC (01_architecture.md, R29,R34): address and field constants. -/
def SEC_SYNC.baseAddr : Nat := 0x00E00004
def SEC_SYNC.sync_pending : Fld := ⟨0x00E00004, 0, 0, 0, 1, 0⟩
def SEC_SYNC.ent : RegEnt := ⟨0x00E00004, 1, 0, 1, 0, [⟨SEC_SYNC.sync_pending, .ro, 0⟩]⟩

/-- SEC_STATUS (13_security.md, R504,R518): address and field constants. -/
def SEC_STATUS.baseAddr : Nat := 0x00E00010
def SEC_STATUS.mbx_open : Fld := ⟨0x00E00010, 0, 0, 11, 1, 0⟩
def SEC_STATUS.debug_open : Fld := ⟨0x00E00010, 0, 0, 10, 1, 0⟩
def SEC_STATUS.key_killed : Fld := ⟨0x00E00010, 0, 0, 9, 1, 0⟩
def SEC_STATUS.key_present : Fld := ⟨0x00E00010, 0, 0, 8, 1, 0⟩
def SEC_STATUS.lifecycle : Fld := ⟨0x00E00010, 0, 0, 0, 2, 0⟩
def SEC_STATUS.ent : RegEnt := ⟨0x00E00010, 1, 0, 1, 0, [⟨SEC_STATUS.mbx_open, .ro, 0⟩, ⟨SEC_STATUS.debug_open, .ro, 0⟩, ⟨SEC_STATUS.key_killed, .ro, 0⟩, ⟨SEC_STATUS.key_present, .ro, 0⟩, ⟨SEC_STATUS.lifecycle, .ro, 0⟩]⟩

/-- SEC_WORLD (13_security.md, R498): address and field constants. -/
def SEC_WORLD.baseAddr : Nat := 0x00E00014
def SEC_WORLD.secure : Fld := ⟨0x00E00014, 0, 0, 0, 18, 0⟩
def SEC_WORLD.ent : RegEnt := ⟨0x00E00014, 1, 0, 1, 0, [⟨SEC_WORLD.secure, .ro, 0⟩]⟩

/-- SEC_DEVICE_ID_LO (13_security.md, R520,R48): address and field constants. -/
def SEC_DEVICE_ID_LO.baseAddr : Nat := 0x00E00018
def SEC_DEVICE_ID_LO.id : Fld := ⟨0x00E00018, 0, 0, 0, 32, 0⟩
def SEC_DEVICE_ID_LO.ent : RegEnt := ⟨0x00E00018, 1, 0, 1, 0, [⟨SEC_DEVICE_ID_LO.id, .ro, 0⟩]⟩

/-- SEC_DEVICE_ID_HI (13_security.md, R520,R48): address and field constants. -/
def SEC_DEVICE_ID_HI.baseAddr : Nat := 0x00E0001C
def SEC_DEVICE_ID_HI.id : Fld := ⟨0x00E0001C, 0, 0, 0, 32, 0⟩
def SEC_DEVICE_ID_HI.ent : RegEnt := ⟨0x00E0001C, 1, 0, 1, 0, [⟨SEC_DEVICE_ID_HI.id, .ro, 0⟩]⟩

/-- SEC_KEY_STATUS (13_security.md, R510,R520): address and field constants. -/
def SEC_KEY_STATUS.baseAddr : Nat := 0x00E00020
def SEC_KEY_STATUS.slots : Fld := ⟨0x00E00020, 0, 0, 0, 16, 0⟩
def SEC_KEY_STATUS.ent : RegEnt := ⟨0x00E00020, 1, 0, 1, 0, [⟨SEC_KEY_STATUS.slots, .ro, 0⟩]⟩

/-- SEC_ROLLBACK (13_security.md, R513): address and field constants. -/
def SEC_ROLLBACK.baseAddr : Nat := 0x00E00024
def SEC_ROLLBACK.count : Fld := ⟨0x00E00024, 0, 0, 0, 7, 0⟩
def SEC_ROLLBACK.ent : RegEnt := ⟨0x00E00024, 1, 0, 1, 0, [⟨SEC_ROLLBACK.count, .ro, 0⟩]⟩

/-- SEC_PORT_DIS[i] (13_security.md, R528): address and field constants. -/
def SEC_PORT_DIS.baseAddr : Nat := 0x00E00028
def SEC_PORT_DIS.ports : Fld := ⟨0x00E00028, 4, 0, 0, 32, 0⟩
def SEC_PORT_DIS.ent : RegEnt := ⟨0x00E00028, 3, 4, 1, 0, [⟨SEC_PORT_DIS.ports, .ro, 0⟩]⟩

/-- SEC_RAISE_LEFT (13_security.md, R526): address and field constants. -/
def SEC_RAISE_LEFT.baseAddr : Nat := 0x00E00034
def SEC_RAISE_LEFT.wall : Fld := ⟨0x00E00034, 0, 0, 16, 4, 0⟩
def SEC_RAISE_LEFT.class3 : Fld := ⟨0x00E00034, 0, 0, 12, 4, 0⟩
def SEC_RAISE_LEFT.class2 : Fld := ⟨0x00E00034, 0, 0, 8, 4, 0⟩
def SEC_RAISE_LEFT.class1 : Fld := ⟨0x00E00034, 0, 0, 4, 4, 0⟩
def SEC_RAISE_LEFT.class0 : Fld := ⟨0x00E00034, 0, 0, 0, 4, 0⟩
def SEC_RAISE_LEFT.ent : RegEnt := ⟨0x00E00034, 1, 0, 1, 0, [⟨SEC_RAISE_LEFT.wall, .ro, 0⟩, ⟨SEC_RAISE_LEFT.class3, .ro, 0⟩, ⟨SEC_RAISE_LEFT.class2, .ro, 0⟩, ⟨SEC_RAISE_LEFT.class1, .ro, 0⟩, ⟨SEC_RAISE_LEFT.class0, .ro, 0⟩]⟩

/-- SEC_BLOCK_ADDR (13_security.md, R503): address and field constants. -/
def SEC_BLOCK_ADDR.baseAddr : Nat := 0x00E00040
def SEC_BLOCK_ADDR.addr : Fld := ⟨0x00E00040, 0, 0, 0, 32, 0⟩
def SEC_BLOCK_ADDR.ent : RegEnt := ⟨0x00E00040, 1, 0, 1, 0, [⟨SEC_BLOCK_ADDR.addr, .ro, 4294967295⟩]⟩

/-- SEC_BLOCK_INFO (13_security.md, R503): address and field constants. -/
def SEC_BLOCK_INFO.baseAddr : Nat := 0x00E00044
def SEC_BLOCK_INFO.write : Fld := ⟨0x00E00044, 0, 0, 8, 1, 0⟩
def SEC_BLOCK_INFO.initiator : Fld := ⟨0x00E00044, 0, 0, 0, 8, 0⟩
def SEC_BLOCK_INFO.ent : RegEnt := ⟨0x00E00044, 1, 0, 1, 0, [⟨SEC_BLOCK_INFO.write, .ro, 1⟩, ⟨SEC_BLOCK_INFO.initiator, .ro, 255⟩]⟩

/-- SEC_BLOCK_CNT (13_security.md, R503): address and field constants. -/
def SEC_BLOCK_CNT.baseAddr : Nat := 0x00E00048
def SEC_BLOCK_CNT.sat : Fld := ⟨0x00E00048, 0, 0, 31, 1, 0⟩
def SEC_BLOCK_CNT.count : Fld := ⟨0x00E00048, 0, 0, 0, 31, 0⟩
def SEC_BLOCK_CNT.ent : RegEnt := ⟨0x00E00048, 1, 0, 1, 0, [⟨SEC_BLOCK_CNT.sat, .w1c, 1⟩, ⟨SEC_BLOCK_CNT.count, .w1c, 2147483647⟩]⟩

/-- SEC_EVT_STATUS (13_security.md, R38): address and field constants. -/
def SEC_EVT_STATUS.baseAddr : Nat := 0x00E00080
def SEC_EVT_STATUS.status : Fld := ⟨0x00E00080, 0, 0, 0, 5, 0⟩
def SEC_EVT_STATUS.ent : RegEnt := ⟨0x00E00080, 1, 0, 1, 0, [⟨SEC_EVT_STATUS.status, .w1c, 31⟩]⟩

/-- SEC_EVT_ENABLE (13_security.md, R38): address and field constants. -/
def SEC_EVT_ENABLE.baseAddr : Nat := 0x00E00084
def SEC_EVT_ENABLE.enable : Fld := ⟨0x00E00084, 0, 0, 0, 5, 0x1F⟩
def SEC_EVT_ENABLE.ent : RegEnt := ⟨0x00E00084, 1, 0, 1, 0, [⟨SEC_EVT_ENABLE.enable, .rw, 31⟩]⟩

/-- SEC_NONCE_CTRL (13_security.md, R515): address and field constants. -/
def SEC_NONCE_CTRL.baseAddr : Nat := 0x00E00100
def SEC_NONCE_CTRL.new : Fld := ⟨0x00E00100, 0, 0, 31, 1, 0⟩
def SEC_NONCE_CTRL.valid : Fld := ⟨0x00E00100, 0, 0, 0, 1, 0⟩
def SEC_NONCE_CTRL.ent : RegEnt := ⟨0x00E00100, 1, 0, 1, 0, [⟨SEC_NONCE_CTRL.new, .wo, 1⟩, ⟨SEC_NONCE_CTRL.valid, .ro, 1⟩]⟩

/-- SEC_NONCE[i] (13_security.md, R515): address and field constants. -/
def SEC_NONCE.baseAddr : Nat := 0x00E00104
def SEC_NONCE.nonce : Fld := ⟨0x00E00104, 4, 0, 0, 32, 0⟩
def SEC_NONCE.ent : RegEnt := ⟨0x00E00104, 4, 4, 1, 0, [⟨SEC_NONCE.nonce, .ro, 4294967295⟩]⟩

/-- SEC_TOKEN_CTRL (13_security.md, R516): address and field constants. -/
def SEC_TOKEN_CTRL.baseAddr : Nat := 0x00E00120
def SEC_TOKEN_CTRL.check : Fld := ⟨0x00E00120, 0, 0, 31, 1, 0⟩
def SEC_TOKEN_CTRL.ent : RegEnt := ⟨0x00E00120, 1, 0, 1, 0, [⟨SEC_TOKEN_CTRL.check, .wo, 1⟩]⟩

/-- SEC_TOKEN_STATUS (13_security.md, R516): address and field constants. -/
def SEC_TOKEN_STATUS.baseAddr : Nat := 0x00E00124
def SEC_TOKEN_STATUS.busy : Fld := ⟨0x00E00124, 0, 0, 31, 1, 0⟩
def SEC_TOKEN_STATUS.held : Fld := ⟨0x00E00124, 0, 0, 30, 1, 0⟩
def SEC_TOKEN_STATUS.purpose : Fld := ⟨0x00E00124, 0, 0, 8, 8, 0⟩
def SEC_TOKEN_STATUS.code : Fld := ⟨0x00E00124, 0, 0, 0, 8, 0⟩
def SEC_TOKEN_STATUS.ent : RegEnt := ⟨0x00E00124, 1, 0, 1, 0, [⟨SEC_TOKEN_STATUS.busy, .ro, 1⟩, ⟨SEC_TOKEN_STATUS.held, .ro, 1⟩, ⟨SEC_TOKEN_STATUS.purpose, .ro, 255⟩, ⟨SEC_TOKEN_STATUS.code, .ro, 255⟩]⟩

/-- SEC_TOKEN[i] (13_security.md, R514): address and field constants. -/
def SEC_TOKEN.baseAddr : Nat := 0x00E00200
def SEC_TOKEN.token : Fld := ⟨0x00E00200, 4, 0, 0, 32, 0⟩
def SEC_TOKEN.ent : RegEnt := ⟨0x00E00200, 40, 4, 1, 0, [⟨SEC_TOKEN.token, .wo, 4294967295⟩]⟩

/-- SEC_OTP_CMD (13_security.md, R524): address and field constants. -/
def SEC_OTP_CMD.baseAddr : Nat := 0x00E00300
def SEC_OTP_CMD.op : Fld := ⟨0x00E00300, 0, 0, 28, 4, 0⟩
def SEC_OTP_CMD.kind : Fld := ⟨0x00E00300, 0, 0, 24, 4, 0⟩
def SEC_OTP_CMD.target : Fld := ⟨0x00E00300, 0, 0, 16, 8, 0⟩
def SEC_OTP_CMD.value : Fld := ⟨0x00E00300, 0, 0, 0, 16, 0⟩
def SEC_OTP_CMD.ent : RegEnt := ⟨0x00E00300, 1, 0, 1, 0, [⟨SEC_OTP_CMD.op, .wo, 15⟩, ⟨SEC_OTP_CMD.kind, .wo, 15⟩, ⟨SEC_OTP_CMD.target, .wo, 255⟩, ⟨SEC_OTP_CMD.value, .wo, 65535⟩]⟩

/-- SEC_OTP_STATUS (13_security.md, R524,R525): address and field constants. -/
def SEC_OTP_STATUS.baseAddr : Nat := 0x00E00304
def SEC_OTP_STATUS.busy : Fld := ⟨0x00E00304, 0, 0, 31, 1, 0⟩
def SEC_OTP_STATUS.status : Fld := ⟨0x00E00304, 0, 0, 0, 8, 0⟩
def SEC_OTP_STATUS.ent : RegEnt := ⟨0x00E00304, 1, 0, 1, 0, [⟨SEC_OTP_STATUS.busy, .ro, 1⟩, ⟨SEC_OTP_STATUS.status, .ro, 255⟩]⟩

/-- SEC_OTP_DATA[i] (13_security.md, R524): address and field constants. -/
def SEC_OTP_DATA.baseAddr : Nat := 0x00E00340
def SEC_OTP_DATA.data : Fld := ⟨0x00E00340, 4, 0, 0, 32, 0⟩
def SEC_OTP_DATA.ent : RegEnt := ⟨0x00E00340, 16, 4, 1, 0, [⟨SEC_OTP_DATA.data, .rw, 4294967295⟩]⟩

/-- SEC_OTP_RD_ADDR (13_security.md, R512): address and field constants. -/
def SEC_OTP_RD_ADDR.baseAddr : Nat := 0x00E00380
def SEC_OTP_RD_ADDR.word : Fld := ⟨0x00E00380, 0, 0, 0, 8, 0⟩
def SEC_OTP_RD_ADDR.ent : RegEnt := ⟨0x00E00380, 1, 0, 1, 0, [⟨SEC_OTP_RD_ADDR.word, .rw, 255⟩]⟩

/-- SEC_OTP_RD_DATA (13_security.md, R512): address and field constants. -/
def SEC_OTP_RD_DATA.baseAddr : Nat := 0x00E00384
def SEC_OTP_RD_DATA.data : Fld := ⟨0x00E00384, 0, 0, 0, 32, 0⟩
def SEC_OTP_RD_DATA.ent : RegEnt := ⟨0x00E00384, 1, 0, 1, 0, [⟨SEC_OTP_RD_DATA.data, .ro, 4294967295⟩]⟩

/-- SEC_REGION[i][j] (13_security.md, R359): address and field constants. -/
def SEC_REGION.baseAddr : Nat := 0x00E10000
def SEC_REGION.descriptor : Fld := ⟨0x00E10000, 16, 4, 0, 32, 0⟩
def SEC_REGION.ent : RegEnt := ⟨0x00E10000, 256, 16, 4, 4, [⟨SEC_REGION.descriptor, .ro, 4294967295⟩]⟩

/-- Every register of block SEC. -/
def regTableSEC : List RegEnt :=
  [SEC_ID.ent, SEC_SYNC.ent, SEC_STATUS.ent, SEC_WORLD.ent, SEC_DEVICE_ID_LO.ent, SEC_DEVICE_ID_HI.ent, SEC_KEY_STATUS.ent, SEC_ROLLBACK.ent, SEC_PORT_DIS.ent, SEC_RAISE_LEFT.ent] ++
  [SEC_BLOCK_ADDR.ent, SEC_BLOCK_INFO.ent, SEC_BLOCK_CNT.ent, SEC_EVT_STATUS.ent, SEC_EVT_ENABLE.ent, SEC_NONCE_CTRL.ent, SEC_NONCE.ent, SEC_TOKEN_CTRL.ent, SEC_TOKEN_STATUS.ent, SEC_TOKEN.ent] ++
  [SEC_OTP_CMD.ent, SEC_OTP_STATUS.ent, SEC_OTP_DATA.ent, SEC_OTP_RD_ADDR.ent, SEC_OTP_RD_DATA.ent, SEC_REGION.ent]

/-! ### Block EVR at 0x00F00000 (14_recorder_kiln.md) -/

/-- EVR_ID (01_architecture.md, R34): address and field constants. -/
def EVR_ID.baseAddr : Nat := 0x00F00000
def EVR_ID.block_code : Fld := ⟨0x00F00000, 0, 0, 24, 8, 15⟩
def EVR_ID.major : Fld := ⟨0x00F00000, 0, 0, 16, 8, 1⟩
def EVR_ID.minor : Fld := ⟨0x00F00000, 0, 0, 8, 8, 0⟩
def EVR_ID.ent : RegEnt := ⟨0x00F00000, 1, 0, 1, 0, [⟨EVR_ID.block_code, .ro, 0⟩, ⟨EVR_ID.major, .ro, 0⟩, ⟨EVR_ID.minor, .ro, 0⟩]⟩

/-- EVR_SYNC (01_architecture.md, R29,R34): address and field constants. -/
def EVR_SYNC.baseAddr : Nat := 0x00F00004
def EVR_SYNC.sync_pending : Fld := ⟨0x00F00004, 0, 0, 0, 1, 0⟩
def EVR_SYNC.ent : RegEnt := ⟨0x00F00004, 1, 0, 1, 0, [⟨EVR_SYNC.sync_pending, .ro, 0⟩]⟩

/-- EVR_STATUS (14_recorder_kiln.md, R541,R544): address and field constants. -/
def EVR_STATUS.baseAddr : Nat := 0x00F00010
def EVR_STATUS.full : Fld := ⟨0x00F00010, 0, 0, 31, 1, 0⟩
def EVR_STATUS.ready : Fld := ⟨0x00F00010, 0, 0, 30, 1, 0⟩
def EVR_STATUS.count : Fld := ⟨0x00F00010, 0, 0, 0, 17, 0⟩
def EVR_STATUS.ent : RegEnt := ⟨0x00F00010, 1, 0, 1, 0, [⟨EVR_STATUS.full, .ro, 0⟩, ⟨EVR_STATUS.ready, .ro, 0⟩, ⟨EVR_STATUS.count, .ro, 0⟩]⟩

/-- EVR_SEQ_NEXT (14_recorder_kiln.md, R541): address and field constants. -/
def EVR_SEQ_NEXT.baseAddr : Nat := 0x00F00014
def EVR_SEQ_NEXT.seq : Fld := ⟨0x00F00014, 0, 0, 0, 32, 0⟩
def EVR_SEQ_NEXT.ent : RegEnt := ⟨0x00F00014, 1, 0, 1, 0, [⟨EVR_SEQ_NEXT.seq, .ro, 4294967295⟩]⟩

/-- EVR_FIRST_SEQ (14_recorder_kiln.md, R541): address and field constants. -/
def EVR_FIRST_SEQ.baseAddr : Nat := 0x00F00018
def EVR_FIRST_SEQ.seq : Fld := ⟨0x00F00018, 0, 0, 0, 32, 0⟩
def EVR_FIRST_SEQ.ent : RegEnt := ⟨0x00F00018, 1, 0, 1, 0, [⟨EVR_FIRST_SEQ.seq, .ro, 4294967295⟩]⟩

/-- EVR_SHADOW (14_recorder_kiln.md, R538): address and field constants. -/
def EVR_SHADOW.baseAddr : Nat := 0x00F0001C
def EVR_SHADOW.repeat : Fld := ⟨0x00F0001C, 0, 0, 0, 32, 0⟩
def EVR_SHADOW.ent : RegEnt := ⟨0x00F0001C, 1, 0, 1, 0, [⟨EVR_SHADOW.repeat, .ro, 4294967295⟩]⟩

/-- EVR_CURSOR (14_recorder_kiln.md, R539): address and field constants. -/
def EVR_CURSOR.baseAddr : Nat := 0x00F00020
def EVR_CURSOR.slot : Fld := ⟨0x00F00020, 0, 0, 0, 16, 0⟩
def EVR_CURSOR.ent : RegEnt := ⟨0x00F00020, 1, 0, 1, 0, [⟨EVR_CURSOR.slot, .rw, 65535⟩]⟩

/-- EVR_CLEAR_CTRL (14_recorder_kiln.md, R547): address and field constants. -/
def EVR_CLEAR_CTRL.baseAddr : Nat := 0x00F00024
def EVR_CLEAR_CTRL.go : Fld := ⟨0x00F00024, 0, 0, 31, 1, 0⟩
def EVR_CLEAR_CTRL.ent : RegEnt := ⟨0x00F00024, 1, 0, 1, 0, [⟨EVR_CLEAR_CTRL.go, .wo, 1⟩]⟩

/-- EVR_CLEAR_STATUS (14_recorder_kiln.md, R547): address and field constants. -/
def EVR_CLEAR_STATUS.baseAddr : Nat := 0x00F00028
def EVR_CLEAR_STATUS.status : Fld := ⟨0x00F00028, 0, 0, 0, 8, 0⟩
def EVR_CLEAR_STATUS.ent : RegEnt := ⟨0x00F00028, 1, 0, 1, 0, [⟨EVR_CLEAR_STATUS.status, .ro, 255⟩]⟩

/-- EVR_EVT_STATUS (14_recorder_kiln.md, R38): address and field constants. -/
def EVR_EVT_STATUS.baseAddr : Nat := 0x00F00080
def EVR_EVT_STATUS.status : Fld := ⟨0x00F00080, 0, 0, 0, 4, 0⟩
def EVR_EVT_STATUS.ent : RegEnt := ⟨0x00F00080, 1, 0, 1, 0, [⟨EVR_EVT_STATUS.status, .w1c, 12⟩]⟩

/-- EVR_EVT_ENABLE (14_recorder_kiln.md, R38): address and field constants. -/
def EVR_EVT_ENABLE.baseAddr : Nat := 0x00F00084
def EVR_EVT_ENABLE.enable : Fld := ⟨0x00F00084, 0, 0, 0, 4, 0xF⟩
def EVR_EVT_ENABLE.ent : RegEnt := ⟨0x00F00084, 1, 0, 1, 0, [⟨EVR_EVT_ENABLE.enable, .rw, 12⟩]⟩

/-- EVR_LOST_CNT (14_recorder_kiln.md, R543): address and field constants. -/
def EVR_LOST_CNT.baseAddr : Nat := 0x00F000A0
def EVR_LOST_CNT.sat : Fld := ⟨0x00F000A0, 0, 0, 31, 1, 0⟩
def EVR_LOST_CNT.count : Fld := ⟨0x00F000A0, 0, 0, 0, 31, 0⟩
def EVR_LOST_CNT.ent : RegEnt := ⟨0x00F000A0, 1, 0, 1, 0, [⟨EVR_LOST_CNT.sat, .w1c, 1⟩, ⟨EVR_LOST_CNT.count, .w1c, 2147483647⟩]⟩

/-- EVR_FULL_DROP_CNT (14_recorder_kiln.md, R544): address and field constants. -/
def EVR_FULL_DROP_CNT.baseAddr : Nat := 0x00F000A4
def EVR_FULL_DROP_CNT.sat : Fld := ⟨0x00F000A4, 0, 0, 31, 1, 0⟩
def EVR_FULL_DROP_CNT.count : Fld := ⟨0x00F000A4, 0, 0, 0, 31, 0⟩
def EVR_FULL_DROP_CNT.ent : RegEnt := ⟨0x00F000A4, 1, 0, 1, 0, [⟨EVR_FULL_DROP_CNT.sat, .w1c, 1⟩, ⟨EVR_FULL_DROP_CNT.count, .w1c, 2147483647⟩]⟩

/-- EVR_MEND_CNT (14_recorder_kiln.md, R541): address and field constants. -/
def EVR_MEND_CNT.baseAddr : Nat := 0x00F000A8
def EVR_MEND_CNT.sat : Fld := ⟨0x00F000A8, 0, 0, 31, 1, 0⟩
def EVR_MEND_CNT.count : Fld := ⟨0x00F000A8, 0, 0, 0, 31, 0⟩
def EVR_MEND_CNT.ent : RegEnt := ⟨0x00F000A8, 1, 0, 1, 0, [⟨EVR_MEND_CNT.sat, .w1c, 1⟩, ⟨EVR_MEND_CNT.count, .w1c, 2147483647⟩]⟩

/-- EVR_WIN[i] (14_recorder_kiln.md, R539): address and field constants. -/
def EVR_WIN.baseAddr : Nat := 0x00F00100
def EVR_WIN.word : Fld := ⟨0x00F00100, 4, 0, 0, 32, 0⟩
def EVR_WIN.ent : RegEnt := ⟨0x00F00100, 64, 4, 1, 0, [⟨EVR_WIN.word, .ro, 4294967295⟩]⟩

/-- Every register of block EVR. -/
def regTableEVR : List RegEnt :=
  [EVR_ID.ent, EVR_SYNC.ent, EVR_STATUS.ent, EVR_SEQ_NEXT.ent, EVR_FIRST_SEQ.ent, EVR_SHADOW.ent, EVR_CURSOR.ent, EVR_CLEAR_CTRL.ent, EVR_CLEAR_STATUS.ent, EVR_EVT_STATUS.ent] ++
  [EVR_EVT_ENABLE.ent, EVR_LOST_CNT.ent, EVR_FULL_DROP_CNT.ent, EVR_MEND_CNT.ent, EVR_WIN.ent]

/-! ### Block KLN at 0x01000000 (14_recorder_kiln.md) -/

/-- KLN_ID (01_architecture.md, R34): address and field constants. -/
def KLN_ID.baseAddr : Nat := 0x01000000
def KLN_ID.block_code : Fld := ⟨0x01000000, 0, 0, 24, 8, 16⟩
def KLN_ID.major : Fld := ⟨0x01000000, 0, 0, 16, 8, 1⟩
def KLN_ID.minor : Fld := ⟨0x01000000, 0, 0, 8, 8, 0⟩
def KLN_ID.ent : RegEnt := ⟨0x01000000, 1, 0, 1, 0, [⟨KLN_ID.block_code, .ro, 0⟩, ⟨KLN_ID.major, .ro, 0⟩, ⟨KLN_ID.minor, .ro, 0⟩]⟩

/-- KLN_SYNC (01_architecture.md, R29,R34): address and field constants. -/
def KLN_SYNC.baseAddr : Nat := 0x01000004
def KLN_SYNC.sync_pending : Fld := ⟨0x01000004, 0, 0, 0, 1, 0⟩
def KLN_SYNC.ent : RegEnt := ⟨0x01000004, 1, 0, 1, 0, [⟨KLN_SYNC.sync_pending, .ro, 0⟩]⟩

/-- KLN_STATUS (14_recorder_kiln.md, R555,R556): address and field constants. -/
def KLN_STATUS.baseAddr : Nat := 0x01000010
def KLN_STATUS.boot_done : Fld := ⟨0x01000010, 0, 0, 31, 1, 0⟩
def KLN_STATUS.internal : Fld := ⟨0x01000010, 0, 0, 30, 1, 0⟩
def KLN_STATUS.cause : Fld := ⟨0x01000010, 0, 0, 28, 2, 0⟩
def KLN_STATUS.busy : Fld := ⟨0x01000010, 0, 0, 0, 3, 0⟩
def KLN_STATUS.ent : RegEnt := ⟨0x01000010, 1, 0, 1, 0, [⟨KLN_STATUS.boot_done, .ro, 0⟩, ⟨KLN_STATUS.internal, .ro, 0⟩, ⟨KLN_STATUS.cause, .ro, 0⟩, ⟨KLN_STATUS.busy, .ro, 0⟩]⟩

/-- KLN_CFG (14_recorder_kiln.md, R554): address and field constants. -/
def KLN_CFG.baseAddr : Nat := 0x01000014
def KLN_CFG.res_limit_ppm : Fld := ⟨0x01000014, 0, 0, 16, 16, 1000⟩
def KLN_CFG.eye_limit : Fld := ⟨0x01000014, 0, 0, 8, 8, 0x60⟩
def KLN_CFG.term_limit : Fld := ⟨0x01000014, 0, 0, 0, 8, 30⟩
def KLN_CFG.ent : RegEnt := ⟨0x01000014, 1, 0, 1, 0, [⟨KLN_CFG.res_limit_ppm, .rw, 0⟩, ⟨KLN_CFG.eye_limit, .rw, 0⟩, ⟨KLN_CFG.term_limit, .rw, 0⟩]⟩

/-- KLN_RES (14_recorder_kiln.md, R549,R551): address and field constants. -/
def KLN_RES.baseAddr : Nat := 0x01000018
def KLN_RES.cinder : Fld := ⟨0x01000018, 0, 0, 31, 1, 0⟩
def KLN_RES.residual_ppm : Fld := ⟨0x01000018, 0, 0, 0, 24, 0⟩
def KLN_RES.ent : RegEnt := ⟨0x01000018, 1, 0, 1, 0, [⟨KLN_RES.cinder, .ro, 0⟩, ⟨KLN_RES.residual_ppm, .ro, 0⟩]⟩

/-- KLN_TEMP_LIMIT (14_recorder_kiln.md, R557): address and field constants. -/
def KLN_TEMP_LIMIT.baseAddr : Nat := 0x0100001C
def KLN_TEMP_LIMIT.limit : Fld := ⟨0x0100001C, 0, 0, 0, 16, 0x6E00⟩
def KLN_TEMP_LIMIT.ent : RegEnt := ⟨0x0100001C, 1, 0, 1, 0, [⟨KLN_TEMP_LIMIT.limit, .rw, 0⟩]⟩

/-- KLN_EVT_STATUS (14_recorder_kiln.md, R38): address and field constants. -/
def KLN_EVT_STATUS.baseAddr : Nat := 0x01000080
def KLN_EVT_STATUS.status : Fld := ⟨0x01000080, 0, 0, 0, 6, 0⟩
def KLN_EVT_STATUS.ent : RegEnt := ⟨0x01000080, 1, 0, 1, 0, [⟨KLN_EVT_STATUS.status, .w1c, 0⟩]⟩

/-- KLN_EVT_ENABLE (14_recorder_kiln.md, R38): address and field constants. -/
def KLN_EVT_ENABLE.baseAddr : Nat := 0x01000084
def KLN_EVT_ENABLE.enable : Fld := ⟨0x01000084, 0, 0, 0, 6, 0x3B⟩
def KLN_EVT_ENABLE.ent : RegEnt := ⟨0x01000084, 1, 0, 1, 0, [⟨KLN_EVT_ENABLE.enable, .rw, 0⟩]⟩

/-- KLN_DEFER_CNT (14_recorder_kiln.md, R553): address and field constants. -/
def KLN_DEFER_CNT.baseAddr : Nat := 0x010000A0
def KLN_DEFER_CNT.sat : Fld := ⟨0x010000A0, 0, 0, 31, 1, 0⟩
def KLN_DEFER_CNT.count : Fld := ⟨0x010000A0, 0, 0, 0, 31, 0⟩
def KLN_DEFER_CNT.ent : RegEnt := ⟨0x010000A0, 1, 0, 1, 0, [⟨KLN_DEFER_CNT.sat, .w1c, 0⟩, ⟨KLN_DEFER_CNT.count, .w1c, 0⟩]⟩

/-- KLN_QUALITY_CNT (14_recorder_kiln.md, R554): address and field constants. -/
def KLN_QUALITY_CNT.baseAddr : Nat := 0x010000A4
def KLN_QUALITY_CNT.sat : Fld := ⟨0x010000A4, 0, 0, 31, 1, 0⟩
def KLN_QUALITY_CNT.count : Fld := ⟨0x010000A4, 0, 0, 0, 31, 0⟩
def KLN_QUALITY_CNT.ent : RegEnt := ⟨0x010000A4, 1, 0, 1, 0, [⟨KLN_QUALITY_CNT.sat, .w1c, 0⟩, ⟨KLN_QUALITY_CNT.count, .w1c, 0⟩]⟩

/-- KLN_TEMP[i] (14_recorder_kiln.md, R549,R551): address and field constants. -/
def KLN_TEMP.baseAddr : Nat := 0x01000100
def KLN_TEMP.cinder : Fld := ⟨0x01000100, 4, 0, 31, 1, 0⟩
def KLN_TEMP.temp : Fld := ⟨0x01000100, 4, 0, 0, 16, 0⟩
def KLN_TEMP.ent : RegEnt := ⟨0x01000100, 32, 4, 1, 0, [⟨KLN_TEMP.cinder, .ro, 0⟩, ⟨KLN_TEMP.temp, .ro, 0⟩]⟩

/-- KLN_VMON[i] (14_recorder_kiln.md, R549,R557): address and field constants. -/
def KLN_VMON.baseAddr : Nat := 0x01000200
def KLN_VMON.cinder : Fld := ⟨0x01000200, 4, 0, 31, 1, 0⟩
def KLN_VMON.alarm : Fld := ⟨0x01000200, 4, 0, 30, 1, 0⟩
def KLN_VMON.mv : Fld := ⟨0x01000200, 4, 0, 0, 16, 0⟩
def KLN_VMON.ent : RegEnt := ⟨0x01000200, 8, 4, 1, 0, [⟨KLN_VMON.cinder, .ro, 0⟩, ⟨KLN_VMON.alarm, .ro, 0⟩, ⟨KLN_VMON.mv, .ro, 0⟩]⟩

/-- KLN_PG_STATUS[i] (14_recorder_kiln.md, R549,R553): address and field constants. -/
def KLN_PG_STATUS.baseAddr : Nat := 0x01000300
def KLN_PG_STATUS.cinder : Fld := ⟨0x01000300, 4, 0, 31, 1, 0⟩
def KLN_PG_STATUS.deferred : Fld := ⟨0x01000300, 4, 0, 30, 1, 0⟩
def KLN_PG_STATUS.swing : Fld := ⟨0x01000300, 4, 0, 16, 8, 0⟩
def KLN_PG_STATUS.term : Fld := ⟨0x01000300, 4, 0, 8, 8, 0⟩
def KLN_PG_STATUS.term_err : Fld := ⟨0x01000300, 4, 0, 0, 8, 0⟩
def KLN_PG_STATUS.ent : RegEnt := ⟨0x01000300, 24, 4, 1, 0, [⟨KLN_PG_STATUS.cinder, .ro, 0⟩, ⟨KLN_PG_STATUS.deferred, .ro, 0⟩, ⟨KLN_PG_STATUS.swing, .ro, 0⟩, ⟨KLN_PG_STATUS.term, .ro, 0⟩, ⟨KLN_PG_STATUS.term_err, .ro, 0⟩]⟩

/-- KLN_BIAS_STATUS (14_recorder_kiln.md, R549,R553): address and field constants. -/
def KLN_BIAS_STATUS.baseAddr : Nat := 0x01000380
def KLN_BIAS_STATUS.cinder : Fld := ⟨0x01000380, 0, 0, 31, 1, 0⟩
def KLN_BIAS_STATUS.deferred : Fld := ⟨0x01000380, 0, 0, 30, 1, 0⟩
def KLN_BIAS_STATUS.worst_err : Fld := ⟨0x01000380, 0, 0, 0, 8, 0⟩
def KLN_BIAS_STATUS.ent : RegEnt := ⟨0x01000380, 1, 0, 1, 0, [⟨KLN_BIAS_STATUS.cinder, .ro, 0⟩, ⟨KLN_BIAS_STATUS.deferred, .ro, 0⟩, ⟨KLN_BIAS_STATUS.worst_err, .ro, 0⟩]⟩

/-- Every register of block KLN. -/
def regTableKLN : List RegEnt :=
  [KLN_ID.ent, KLN_SYNC.ent, KLN_STATUS.ent, KLN_CFG.ent, KLN_RES.ent, KLN_TEMP_LIMIT.ent, KLN_EVT_STATUS.ent, KLN_EVT_ENABLE.ent, KLN_DEFER_CNT.ent, KLN_QUALITY_CNT.ent] ++
  [KLN_TEMP.ent, KLN_VMON.ent, KLN_PG_STATUS.ent, KLN_BIAS_STATUS.ent]

/-! ### Block FSC at 0x01100000 (08_tile_control.md) -/

/-- FSC_ID (01_architecture.md, R34): address and field constants. -/
def FSC_ID.baseAddr : Nat := 0x01100000
def FSC_ID.block_code : Fld := ⟨0x01100000, 0, 0, 24, 8, 17⟩
def FSC_ID.major : Fld := ⟨0x01100000, 0, 0, 16, 8, 1⟩
def FSC_ID.minor : Fld := ⟨0x01100000, 0, 0, 8, 8, 0⟩
def FSC_ID.ent : RegEnt := ⟨0x01100000, 1, 0, 1, 0, [⟨FSC_ID.block_code, .ro, 0⟩, ⟨FSC_ID.major, .ro, 0⟩, ⟨FSC_ID.minor, .ro, 0⟩]⟩

/-- FSC_SYNC (01_architecture.md, R29,R34): address and field constants. -/
def FSC_SYNC.baseAddr : Nat := 0x01100004
def FSC_SYNC.sync_pending : Fld := ⟨0x01100004, 0, 0, 0, 1, 0⟩
def FSC_SYNC.ent : RegEnt := ⟨0x01100004, 1, 0, 1, 0, [⟨FSC_SYNC.sync_pending, .ro, 0⟩]⟩

/-- FSC_STATUS (08_tile_control.md, R340,R348,R350): address and field constants. -/
def FSC_STATUS.baseAddr : Nat := 0x01100010
def FSC_STATUS.hb_expired : Fld := ⟨0x01100010, 0, 0, 2, 1, 0⟩
def FSC_STATUS.fading : Fld := ⟨0x01100010, 0, 0, 1, 1, 0⟩
def FSC_STATUS.wall_limit : Fld := ⟨0x01100010, 0, 0, 0, 1, 0⟩
def FSC_STATUS.ent : RegEnt := ⟨0x01100010, 1, 0, 1, 0, [⟨FSC_STATUS.hb_expired, .ro, 0⟩, ⟨FSC_STATUS.fading, .ro, 0⟩, ⟨FSC_STATUS.wall_limit, .ro, 0⟩]⟩

/-- FSC_HEARTBEAT (08_tile_control.md, R347): address and field constants. -/
def FSC_HEARTBEAT.baseAddr : Nat := 0x01100014
def FSC_HEARTBEAT.refresh : Fld := ⟨0x01100014, 0, 0, 0, 1, 0⟩
def FSC_HEARTBEAT.ent : RegEnt := ⟨0x01100014, 1, 0, 1, 0, [⟨FSC_HEARTBEAT.refresh, .wo, 1⟩]⟩

/-- FSC_HB_AGE (08_tile_control.md, R347,R348): address and field constants. -/
def FSC_HB_AGE.baseAddr : Nat := 0x01100018
def FSC_HB_AGE.expired : Fld := ⟨0x01100018, 0, 0, 31, 1, 0⟩
def FSC_HB_AGE.age_ms : Fld := ⟨0x01100018, 0, 0, 0, 16, 0⟩
def FSC_HB_AGE.ent : RegEnt := ⟨0x01100018, 1, 0, 1, 0, [⟨FSC_HB_AGE.expired, .ro, 0⟩, ⟨FSC_HB_AGE.age_ms, .ro, 0⟩]⟩

/-- FSC_WALL_CEIL (08_tile_control.md, R57,R336): address and field constants. -/
def FSC_WALL_CEIL.baseAddr : Nat := 0x01100020
def FSC_WALL_CEIL.ceiling : Fld := ⟨0x01100020, 0, 0, 0, 32, 0⟩
def FSC_WALL_CEIL.ent : RegEnt := ⟨0x01100020, 1, 0, 1, 0, [⟨FSC_WALL_CEIL.ceiling, .ro, 0⟩]⟩

/-- FSC_WALL_TRIM (08_tile_control.md, R336): address and field constants. -/
def FSC_WALL_TRIM.baseAddr : Nat := 0x01100024
def FSC_WALL_TRIM.trim : Fld := ⟨0x01100024, 0, 0, 0, 32, 0⟩
def FSC_WALL_TRIM.ent : RegEnt := ⟨0x01100024, 1, 0, 1, 0, [⟨FSC_WALL_TRIM.trim, .rw, 4294967295⟩]⟩

/-- FSC_WALL_POWER (08_tile_control.md, R343): address and field constants. -/
def FSC_WALL_POWER.baseAddr : Nat := 0x01100028
def FSC_WALL_POWER.power : Fld := ⟨0x01100028, 0, 0, 0, 32, 0⟩
def FSC_WALL_POWER.ent : RegEnt := ⟨0x01100028, 1, 0, 1, 0, [⟨FSC_WALL_POWER.power, .ro, 0⟩]⟩

/-- FSC_WALL_K (08_tile_control.md, R340): address and field constants. -/
def FSC_WALL_K.baseAddr : Nat := 0x0110002C
def FSC_WALL_K.k_wall : Fld := ⟨0x0110002C, 0, 0, 0, 17, 65536⟩
def FSC_WALL_K.ent : RegEnt := ⟨0x0110002C, 1, 0, 1, 0, [⟨FSC_WALL_K.k_wall, .ro, 0⟩]⟩

/-- FSC_EVT_STATUS (08_tile_control.md, R38): address and field constants. -/
def FSC_EVT_STATUS.baseAddr : Nat := 0x01100080
def FSC_EVT_STATUS.status : Fld := ⟨0x01100080, 0, 0, 0, 9, 0⟩
def FSC_EVT_STATUS.ent : RegEnt := ⟨0x01100080, 1, 0, 1, 0, [⟨FSC_EVT_STATUS.status, .w1c, 0⟩]⟩

/-- FSC_EVT_ENABLE (08_tile_control.md, R38): address and field constants. -/
def FSC_EVT_ENABLE.baseAddr : Nat := 0x01100084
def FSC_EVT_ENABLE.enable : Fld := ⟨0x01100084, 0, 0, 0, 9, 0x1FA⟩
def FSC_EVT_ENABLE.ent : RegEnt := ⟨0x01100084, 1, 0, 1, 0, [⟨FSC_EVT_ENABLE.enable, .rw, 0⟩]⟩

/-- FSC_PORT_LEVEL[i] (08_tile_control.md, R337): address and field constants. -/
def FSC_PORT_LEVEL.baseAddr : Nat := 0x01101000
def FSC_PORT_LEVEL.active_level : Fld := ⟨0x01101000, 64, 0, 16, 4, 0⟩
def FSC_PORT_LEVEL.level_count : Fld := ⟨0x01101000, 64, 0, 8, 4, 0⟩
def FSC_PORT_LEVEL.pending_level : Fld := ⟨0x01101000, 64, 0, 0, 4, 0⟩
def FSC_PORT_LEVEL.ent : RegEnt := ⟨0x01101000, 96, 64, 1, 0, [⟨FSC_PORT_LEVEL.active_level, .ro, 0⟩, ⟨FSC_PORT_LEVEL.level_count, .ro, 0⟩, ⟨FSC_PORT_LEVEL.pending_level, .rw, 0⟩]⟩

/-- FSC_PORT_LUM_RG[i] (08_tile_control.md, R337): address and field constants. -/
def FSC_PORT_LUM_RG.baseAddr : Nat := 0x01101004
def FSC_PORT_LUM_RG.lum_r : Fld := ⟨0x01101004, 64, 0, 16, 16, 0⟩
def FSC_PORT_LUM_RG.lum_g : Fld := ⟨0x01101004, 64, 0, 0, 16, 0⟩
def FSC_PORT_LUM_RG.ent : RegEnt := ⟨0x01101004, 96, 64, 1, 0, [⟨FSC_PORT_LUM_RG.lum_r, .ro, 0⟩, ⟨FSC_PORT_LUM_RG.lum_g, .ro, 0⟩]⟩

/-- FSC_PORT_LUM_B[i] (08_tile_control.md, R337): address and field constants. -/
def FSC_PORT_LUM_B.baseAddr : Nat := 0x01101008
def FSC_PORT_LUM_B.lum_b : Fld := ⟨0x01101008, 64, 0, 16, 16, 0⟩
def FSC_PORT_LUM_B.ent : RegEnt := ⟨0x01101008, 96, 64, 1, 0, [⟨FSC_PORT_LUM_B.lum_b, .ro, 0⟩]⟩

/-- FSC_PORT_CEIL[i] (08_tile_control.md, R57,R336): address and field constants. -/
def FSC_PORT_CEIL.baseAddr : Nat := 0x0110100C
def FSC_PORT_CEIL.ceiling : Fld := ⟨0x0110100C, 64, 0, 0, 32, 0⟩
def FSC_PORT_CEIL.ent : RegEnt := ⟨0x0110100C, 96, 64, 1, 0, [⟨FSC_PORT_CEIL.ceiling, .ro, 0⟩]⟩

/-- FSC_PORT_POWER[i] (08_tile_control.md, R343): address and field constants. -/
def FSC_PORT_POWER.baseAddr : Nat := 0x01101010
def FSC_PORT_POWER.power : Fld := ⟨0x01101010, 64, 0, 0, 32, 0⟩
def FSC_PORT_POWER.ent : RegEnt := ⟨0x01101010, 96, 64, 1, 0, [⟨FSC_PORT_POWER.power, .ro, 0⟩]⟩

/-- FSC_PORT_RAW[i] (08_tile_control.md, R339): address and field constants. -/
def FSC_PORT_RAW.baseAddr : Nat := 0x01101014
def FSC_PORT_RAW.power : Fld := ⟨0x01101014, 64, 0, 0, 32, 0⟩
def FSC_PORT_RAW.ent : RegEnt := ⟨0x01101014, 96, 64, 1, 0, [⟨FSC_PORT_RAW.power, .ro, 0⟩]⟩

/-- FSC_PORT_K[i] (08_tile_control.md, R340): address and field constants. -/
def FSC_PORT_K.baseAddr : Nat := 0x01101018
def FSC_PORT_K.k_tile : Fld := ⟨0x01101018, 64, 0, 0, 17, 65536⟩
def FSC_PORT_K.ent : RegEnt := ⟨0x01101018, 96, 64, 1, 0, [⟨FSC_PORT_K.k_tile, .ro, 0⟩]⟩

/-- FSC_PORT_FLASH[i] (08_tile_control.md, R344,R346): address and field constants. -/
def FSC_PORT_FLASH.baseAddr : Nat := 0x0110101C
def FSC_PORT_FLASH.damped3 : Fld := ⟨0x0110101C, 64, 0, 31, 1, 0⟩
def FSC_PORT_FLASH.dir3 : Fld := ⟨0x0110101C, 64, 0, 29, 2, 0⟩
def FSC_PORT_FLASH.reversals3 : Fld := ⟨0x0110101C, 64, 0, 24, 2, 0⟩
def FSC_PORT_FLASH.damped2 : Fld := ⟨0x0110101C, 64, 0, 23, 1, 0⟩
def FSC_PORT_FLASH.dir2 : Fld := ⟨0x0110101C, 64, 0, 21, 2, 0⟩
def FSC_PORT_FLASH.reversals2 : Fld := ⟨0x0110101C, 64, 0, 16, 2, 0⟩
def FSC_PORT_FLASH.damped1 : Fld := ⟨0x0110101C, 64, 0, 15, 1, 0⟩
def FSC_PORT_FLASH.dir1 : Fld := ⟨0x0110101C, 64, 0, 13, 2, 0⟩
def FSC_PORT_FLASH.reversals1 : Fld := ⟨0x0110101C, 64, 0, 8, 2, 0⟩
def FSC_PORT_FLASH.damped0 : Fld := ⟨0x0110101C, 64, 0, 7, 1, 0⟩
def FSC_PORT_FLASH.dir0 : Fld := ⟨0x0110101C, 64, 0, 5, 2, 0⟩
def FSC_PORT_FLASH.reversals0 : Fld := ⟨0x0110101C, 64, 0, 0, 2, 0⟩
def FSC_PORT_FLASH.ent : RegEnt := ⟨0x0110101C, 96, 64, 1, 0, [⟨FSC_PORT_FLASH.damped3, .ro, 0⟩, ⟨FSC_PORT_FLASH.dir3, .ro, 0⟩, ⟨FSC_PORT_FLASH.reversals3, .ro, 0⟩, ⟨FSC_PORT_FLASH.damped2, .ro, 0⟩, ⟨FSC_PORT_FLASH.dir2, .ro, 0⟩, ⟨FSC_PORT_FLASH.reversals2, .ro, 0⟩, ⟨FSC_PORT_FLASH.damped1, .ro, 0⟩, ⟨FSC_PORT_FLASH.dir1, .ro, 0⟩, ⟨FSC_PORT_FLASH.reversals1, .ro, 0⟩, ⟨FSC_PORT_FLASH.damped0, .ro, 0⟩, ⟨FSC_PORT_FLASH.dir0, .ro, 0⟩, ⟨FSC_PORT_FLASH.reversals0, .ro, 0⟩]⟩

/-- FSC_POWER_HOLD_CNT[i] (08_tile_control.md, R342): address and field constants. -/
def FSC_POWER_HOLD_CNT.baseAddr : Nat := 0x01101020
def FSC_POWER_HOLD_CNT.sat : Fld := ⟨0x01101020, 64, 0, 31, 1, 0⟩
def FSC_POWER_HOLD_CNT.count : Fld := ⟨0x01101020, 64, 0, 0, 31, 0⟩
def FSC_POWER_HOLD_CNT.ent : RegEnt := ⟨0x01101020, 96, 64, 1, 0, [⟨FSC_POWER_HOLD_CNT.sat, .w1c, 0⟩, ⟨FSC_POWER_HOLD_CNT.count, .w1c, 0⟩]⟩

/-- FSC_WALL_HOLD_CNT[i] (08_tile_control.md, R343): address and field constants. -/
def FSC_WALL_HOLD_CNT.baseAddr : Nat := 0x01101024
def FSC_WALL_HOLD_CNT.sat : Fld := ⟨0x01101024, 64, 0, 31, 1, 0⟩
def FSC_WALL_HOLD_CNT.count : Fld := ⟨0x01101024, 64, 0, 0, 31, 0⟩
def FSC_WALL_HOLD_CNT.ent : RegEnt := ⟨0x01101024, 96, 64, 1, 0, [⟨FSC_WALL_HOLD_CNT.sat, .w1c, 0⟩, ⟨FSC_WALL_HOLD_CNT.count, .w1c, 0⟩]⟩

/-- FSC_FLASH_HOLD_CNT[i] (08_tile_control.md, R345): address and field constants. -/
def FSC_FLASH_HOLD_CNT.baseAddr : Nat := 0x01101028
def FSC_FLASH_HOLD_CNT.sat : Fld := ⟨0x01101028, 64, 0, 31, 1, 0⟩
def FSC_FLASH_HOLD_CNT.count : Fld := ⟨0x01101028, 64, 0, 0, 31, 0⟩
def FSC_FLASH_HOLD_CNT.ent : RegEnt := ⟨0x01101028, 96, 64, 1, 0, [⟨FSC_FLASH_HOLD_CNT.sat, .w1c, 0⟩, ⟨FSC_FLASH_HOLD_CNT.count, .w1c, 0⟩]⟩

/-- FSC_FLASH_DAMP_CNT[i] (08_tile_control.md, R346): address and field constants. -/
def FSC_FLASH_DAMP_CNT.baseAddr : Nat := 0x0110102C
def FSC_FLASH_DAMP_CNT.sat : Fld := ⟨0x0110102C, 64, 0, 31, 1, 0⟩
def FSC_FLASH_DAMP_CNT.count : Fld := ⟨0x0110102C, 64, 0, 0, 31, 0⟩
def FSC_FLASH_DAMP_CNT.ent : RegEnt := ⟨0x0110102C, 96, 64, 1, 0, [⟨FSC_FLASH_DAMP_CNT.sat, .w1c, 0⟩, ⟨FSC_FLASH_DAMP_CNT.count, .w1c, 0⟩]⟩

/-- Every register of block FSC. -/
def regTableFSC : List RegEnt :=
  [FSC_ID.ent, FSC_SYNC.ent, FSC_STATUS.ent, FSC_HEARTBEAT.ent, FSC_HB_AGE.ent, FSC_WALL_CEIL.ent, FSC_WALL_TRIM.ent, FSC_WALL_POWER.ent, FSC_WALL_K.ent, FSC_EVT_STATUS.ent] ++
  [FSC_EVT_ENABLE.ent, FSC_PORT_LEVEL.ent, FSC_PORT_LUM_RG.ent, FSC_PORT_LUM_B.ent, FSC_PORT_CEIL.ent, FSC_PORT_POWER.ent, FSC_PORT_RAW.ent, FSC_PORT_K.ent, FSC_PORT_FLASH.ent, FSC_POWER_HOLD_CNT.ent] ++
  [FSC_WALL_HOLD_CNT.ent, FSC_FLASH_HOLD_CNT.ent, FSC_FLASH_DAMP_CNT.ent]

/-! ### Block MBX at 0x02000000 (13_security.md) -/

/-- SEC_MBX_CTRL (13_security.md, R518): address and field constants. -/
def SEC_MBX_CTRL.baseAddr : Nat := 0x02000000
def SEC_MBX_CTRL.check : Fld := ⟨0x02000000, 0, 0, 31, 1, 0⟩
def SEC_MBX_CTRL.close : Fld := ⟨0x02000000, 0, 0, 30, 1, 0⟩
def SEC_MBX_CTRL.new_nonce : Fld := ⟨0x02000000, 0, 0, 29, 1, 0⟩
def SEC_MBX_CTRL.ent : RegEnt := ⟨0x02000000, 1, 0, 1, 0, [⟨SEC_MBX_CTRL.check, .wo, 0⟩, ⟨SEC_MBX_CTRL.close, .wo, 0⟩, ⟨SEC_MBX_CTRL.new_nonce, .wo, 0⟩]⟩

/-- SEC_MBX_STATUS (13_security.md, R518): address and field constants. -/
def SEC_MBX_STATUS.baseAddr : Nat := 0x02000004
def SEC_MBX_STATUS.open : Fld := ⟨0x02000004, 0, 0, 31, 1, 0⟩
def SEC_MBX_STATUS.code : Fld := ⟨0x02000004, 0, 0, 0, 8, 0⟩
def SEC_MBX_STATUS.ent : RegEnt := ⟨0x02000004, 1, 0, 1, 0, [⟨SEC_MBX_STATUS.open, .ro, 0⟩, ⟨SEC_MBX_STATUS.code, .ro, 0⟩]⟩

/-- SEC_MBX_NONCE[i] (13_security.md, R518): address and field constants. -/
def SEC_MBX_NONCE.baseAddr : Nat := 0x02000010
def SEC_MBX_NONCE.nonce : Fld := ⟨0x02000010, 4, 0, 0, 32, 0⟩
def SEC_MBX_NONCE.ent : RegEnt := ⟨0x02000010, 4, 4, 1, 0, [⟨SEC_MBX_NONCE.nonce, .ro, 0⟩]⟩

/-- SEC_MBX_HBM_BASE (13_security.md, R517): address and field constants. -/
def SEC_MBX_HBM_BASE.baseAddr : Nat := 0x02000020
def SEC_MBX_HBM_BASE.base : Fld := ⟨0x02000020, 0, 0, 0, 12, 0⟩
def SEC_MBX_HBM_BASE.ent : RegEnt := ⟨0x02000020, 1, 0, 1, 0, [⟨SEC_MBX_HBM_BASE.base, .rw, 0⟩]⟩

/-- SEC_MBX_TOKEN[i] (13_security.md, R518): address and field constants. -/
def SEC_MBX_TOKEN.baseAddr : Nat := 0x02000100
def SEC_MBX_TOKEN.token : Fld := ⟨0x02000100, 4, 0, 0, 32, 0⟩
def SEC_MBX_TOKEN.ent : RegEnt := ⟨0x02000100, 40, 4, 1, 0, [⟨SEC_MBX_TOKEN.token, .wo, 0⟩]⟩

/-- Every register of block MBX. -/
def regTableMBX : List RegEnt :=
  [SEC_MBX_CTRL.ent, SEC_MBX_STATUS.ent, SEC_MBX_NONCE.ent, SEC_MBX_HBM_BASE.ent, SEC_MBX_TOKEN.ent]

end Sys2Proof.Machine
end

