-- ==== Sys2Proof/Machine/Coding.lean ====
section
/-!
DEFINITION. The line code of the tile link (07_tile_link.md R244 to R249): symbols, the 8b/10b code table of IEEE 802.3 Clause 36, running
disparity, columns, skip sets, training sets and training bursts. The table itself is the standard's (log entry 97).
-/
namespace Sys2Proof.Machine

/-! ### Symbols -/

/-- A symbol: a data byte, one of the link's special symbols, or another special code group K28.y of the table, which the link does not
use. -/
inductive Sym where
  | data (b : Nat)
  | com | fil | sop | eop | abt | trn | tsy
  | spare (y : Nat)
  deriving DecidableEq, Repr

/-- The special symbols and their K bytes (x in [4:0], y in [7:5]). -/
def specialBytes : List (Sym × Nat) :=
  [(.com, 0xBC), (.fil, 0x1C), (.sop, 0xFB), (.eop, 0xFD), (.abt, 0xFE), (.trn, 0x7C), (.tsy, 0xF7),
   (.spare 1, 0x3C), (.spare 2, 0x5C), (.spare 4, 0x9C), (.spare 6, 0xDC), (.spare 7, 0xFC)]

/-- The byte that a symbol encodes, and whether it is a special one. -/
def Sym.byte : Sym → Nat × Bool
  | .data b => (b % 256, false)
  | s => (((specialBytes.find? (fun p => p.1 == s)).map (fun p => p.2)).getD 0xBC, true)

/-! ### The code table

A code group's ten bits are abcdei fghj, a most significant; true is positive running disparity. -/

/-- 5b/6b: abcdei of D.x at negative disparity. -/
def code6Table : List Nat :=
  [0b100111, 0b011101, 0b101101, 0b110001, 0b110101, 0b101001, 0b011001, 0b111000,
   0b111001, 0b100101, 0b010101, 0b110100, 0b001101, 0b101100, 0b011100, 0b010111,
   0b011011, 0b100011, 0b010011, 0b110010, 0b001011, 0b101010, 0b011010, 0b111010,
   0b110011, 0b100110, 0b010110, 0b110110, 0b001110, 0b101110, 0b011110, 0b101011]

/-- 3b/4b: fghj of D.x.y at negative disparity, y = 7 in its primary form. -/
def code4Table : List Nat := [0b1011, 0b1001, 0b0101, 0b1100, 0b1101, 0b1010, 0b0110, 0b1110]

/-- 3b/4b: fghj of K28.y where its six-bit part has left positive disparity. -/
def kCode4Table : List Nat := [0b0100, 0b1001, 0b0101, 0b0011, 0b0010, 0b1010, 0b0110, 0b1000]

/-- The ones among the low w bits. -/
def ones (w v : Nat) : Nat := ((List.range w).filter v.testBit).length

/-- Running disparity after a sub-block of w bits: that of its surplus of ones or zeros; 000111 and 0011 leave positive, 111000 and 1100
negative disparity. -/
def rdAfter (w : Nat) (rd : Bool) (v : Nat) : Bool :=
  if w < 2 * ones w v then true else if 2 * ones w v < w then false
  else if v = 2 ^ (w / 2) - 1 then true else if v + 2 ^ (w / 2) = 2 ^ w then false else rd

/-- A sub-block that has two forms: unbalanced, or 111000 or 1100. -/
def twoForms (w v : Nat) : Bool := 2 * ones w v != w || v + 2 ^ (w / 2) == 2 ^ w

/-- The form of a sub-block for a running disparity. -/
def formFor (w : Nat) (rd : Bool) (v : Nat) : Nat := if rd && twoForms w v then 2 ^ w - 1 - v else v

/-- The six-bit part of D.x. -/
def code6 (rd : Bool) (x : Nat) : Nat := formFor 6 rd (lget code6Table x 0)

/-- The four-bit part of D.x.y, at the disparity that the six-bit part leaves; the alternate form of y = 7 avoids five equal bits. -/
def code4 (rd : Bool) (x y : Nat) : Nat :=
  let alt : Bool := y == 7 && (if rd then x == 11 || x == 13 || x == 14 else x == 17 || x == 18 || x == 20)
  formFor 4 rd (if alt then 0b0111 else lget code4Table y 0)

/-- The code group of a special byte at negative disparity. -/
def kGroup (b : Nat) : Nat :=
  if b % 32 = 28 then 0b001111 * 16 + lget kCode4Table (b / 32) 0 else lget code6Table (b % 32) 0 * 16 + 0b1000

/-- R244: running disparity after a code group. -/
def rdNext (rd : Bool) (c : Nat) : Bool := rdAfter 4 (rdAfter 6 rd (c / 16)) (c % 16)

/-- The code group of a symbol at a running disparity. -/
def encodeSym (rd : Bool) (s : Sym) : Nat :=
  let (b, k) := s.byte
  if k then (if rd then 1023 - kGroup b else kGroup b)
  else
    let c := code6 rd (b % 32)
    c * 16 + code4 (rdAfter 6 rd c) (b % 32) (b / 32)

/-- R244: the symbol that a code group stands for at a running disparity; none for a symbol error. -/
def decodeSym (rd : Bool) (c : Nat) : Option Sym :=
  match specialBytes.find? (fun p => encodeSym rd p.1 == c) with
  | some p => some p.1
  | none =>
    match (List.range 32).find? (fun x => code6 rd x == c / 16) with
    | none => none
    | some x => ((List.range 8).find? (fun y => code4 (rdAfter 6 rd (c / 16)) x y == c % 16)).map (fun y => .data (32 * y + x))

/-- The symbols of successive code groups of one lane, with the running disparity they leave. -/
def decodeLane (rd : Bool) : List Nat → List (Option Sym) × Bool
  | [] => ([], rd)
  | c :: t =>
    let r := decodeLane (rdNext rd c) t
    (decodeSym rd c :: r.1, r.2)

/-! ### The back-channel receiver (R247, R248, R250, R262) -/

/-- R262: the polarity probe in raw code groups: some true where it reads D10.2, D21.5 after a COM, some false where upright. -/
def probeInverted : List Nat → Option Bool
  | a :: b :: c :: t =>
    if (a == 0b0011111010 || a == 0b1100000101) && b == 0b0101010101 && c == 0b1010101010 then some true
    else if (a == 0b0011111010 || a == 0b1100000101) && b == 0b1010101010 && c == 0b0101010101 then some false
    else probeInverted (b :: c :: t)
  | _ => none

/-- The fillers that lead a stretch of symbols. -/
def leadingFil (l : List (Option Sym)) : Nat := (l.takeWhile (fun s => s == some .fil)).length

/-- R247: the elastic buffer: in each skip set one FIL is inserted or deleted directly after the COM, as v's digit says (1 insert,
2 delete, 0 neither), where 1 to 5 FIL are left. -/
def matchRates (v : Nat) : List (Option Sym) → List (Option Sym)
  | some .com :: some .fil :: t =>
    let k := 1 + leadingFil t
    if v % 3 = 1 ∧ k < 5 then some .com :: some .fil :: some .fil :: matchRates (v / 3) t
    else if v % 3 = 2 ∧ 1 < k then some .com :: matchRates (v / 3) t
    else some .com :: some .fil :: matchRates (v / 3) t
  | s :: t => s :: matchRates v t
  | [] => []

/-- The fillers of the last skip set, `n` where there is none. -/
def lastFil (n : Nat) : List (Option Sym) → Nat
  | some .com :: some .fil :: t => lastFil (1 + leadingFil t) t
  | _ :: t => lastFil n t
  | [] => n

/-- R248, R250: the bytes of the packet among received symbols, skip sets and TSY removed; none where it holds a symbol error, ends in
ABT, or holds what no packet holds. -/
def packetBytes (l : List (Option Sym)) : Option (List Byte) :=
  let after := (l.dropWhile (fun s => s != some .sop)).drop 1
  let inside := after.takeWhile (fun s => s != some .eop && s != some .abt)
  if (after.drop inside.length).head? ≠ some (some .eop) then none
  else
    (inside.filter (fun s => s != some .com && s != some .fil && s != some .tsy)).mapM (fun s => match s with
      | some (.data b) => some (BitVec.ofNat 8 b)
      | _ => none)

/-! ### Columns (R245, R246, R249) -/

/-- R245: a special symbol fills a whole column. -/
def wholeColumn (s : Sym) : List Sym := List.replicate 4 s

/-- R246: a skip set. -/
def skipSet : List (List Sym) := [wholeColumn .com, wholeColumn .fil, wholeColumn .fil, wholeColumn .fil]

/-- R249: byte b of a packet on logical lane b mod 4 of data column b div 4. -/
def dataColumns (b : List Byte) : List (List Sym) :=
  (List.range ((b.length + 3) / 4)).map (fun c => (List.range 4).map (fun k => .data (lget b (4 * c + k) 0).toNat))

/-- A packet: SOP, its data columns and EOP. -/
def packetColumns (b : List Byte) : List (List Sym) := [wholeColumn .sop] ++ dataColumns b ++ [wholeColumn .eop]

/-- R251: a packet cut short after k data columns. -/
def cutColumns (b : List Byte) (k : Nat) : List (List Sym) := [wholeColumn .sop] ++ (dataColumns b).take k ++ [wholeColumn .abt]

/-- R259's training set of port n: lane k carries lane id k; TS1 or TS2. -/
def trainingSet (n rate : Nat) (ts2 : Bool) : List (List Sym) :=
  let d21 := wholeColumn (.data 0xB5)
  let d10 := wholeColumn (.data 0x4A)
  [wholeColumn .trn, wholeColumn .com, d21, d10, (List.range 4).map (fun k => .data k), wholeColumn (.data n), wholeColumn (.data rate),
   wholeColumn (.data (if ts2 then 2 else 1))] ++ List.replicate 8 d10

/-- R273's training burst of 128 columns. -/
def trainingBurst : List (List Sym) :=
  let d21 := wholeColumn (.data 0xB5)
  List.replicate 4 (wholeColumn .trn) ++ (List.replicate 30 [wholeColumn .com, d21, wholeColumn (.data 0x4A), d21]).flatten ++
    List.replicate 4 (wholeColumn .trn)

/-! ### The transmitter -/

/-- R261: how logical lanes travel: the physical lane of each, and whether it is inverted. -/
structure LaneMap where
  phys : List Nat
  inv : List Bool
  deriving DecidableEq, Repr

/-- Every logical lane on the physical lane of its number. -/
def LaneMap.straight : LaneMap := ⟨[0, 1, 2, 3], [false, false, false, false]⟩

/-- The logical lane that physical lane p carries. -/
def LaneMap.logical (m : LaneMap) (p : Nat) : Nat := ((List.range 4).find? (fun k => lget m.phys k k == p)).getD p

/-- A port's transmitter: running disparity by physical lane, columns since the last skip set began, the tick to which that count holds,
and the columns queued at that tick that have still to leave. -/
structure TxState where
  rd : List Bool
  since : Nat
  tick : Nat
  ahead : Nat
  deriving DecidableEq, Repr

/-- R244: a transmitter at its first symbol. -/
def TxState.start (tick : Nat) : TxState := ⟨[false, false, false, false], 0, tick, 0⟩

/-- One column leaves: the code groups by physical lane. -/
def TxState.column (t : TxState) (m : LaneMap) (col : List Sym) : List Nat × TxState :=
  let raw := (List.range 4).map (fun p => encodeSym (lget t.rd p false) (lget col (m.logical p) .com))
  ((List.range 4).map (fun p => if lget m.inv (m.logical p) false then 1023 - lget raw p 0 else lget raw p 0),
   { t with rd := (List.range 4).map (fun p => rdNext (lget t.rd p false) (lget raw p 0)), since := t.since + 1, ahead := t.ahead + 1 })

/-- Columns leave with no skip set among them. -/
def TxState.plain (m : LaneMap) : List (List Sym) → TxState → List (List Nat) × TxState
  | [], t => ([], t)
  | c :: cs, t =>
    let a := t.column m c
    let b := TxState.plain m cs a.2
    (a.1 :: b.1, b.2)

/-- A skip set leaves. -/
def TxState.skip (t : TxState) (m : LaneMap) : List (List Nat) × TxState := TxState.plain m skipSet { t with since := 0 }

/-- R246: columns leave, with a skip set before each column at which the last one began 1,020 columns ago. -/
def TxState.send (m : LaneMap) : List (List Sym) → TxState → List (List Nat) × TxState
  | [], t => ([], t)
  | c :: cs, t =>
    let s := if 1020 ≤ t.since then t.skip m else ([], t)
    let a := s.2.column m c
    let b := TxState.send m cs a.2
    (s.1 ++ a.1 :: b.1, b.2)

/-- Eighths of a column per 4 ns tick at a rate code (R240): a tenth of the baud rate in columns. -/
def columnRate (code : Nat) : Nat := lget [20, 33, 40, 48] code 20

/-- The transmitter at a later tick, with the skip sets that have left since: between packets what fills the columns is not laid down, so
the disparity it leaves is free (`mask`, log entry 98). A set that is under way leaves whole before the columns to come; one whose turn has
just come leaves with them. -/
def TxState.upTo (t : TxState) (tick code mask : Nat) : TxState × Nat :=
  let went := (tick - t.tick) * columnRate code / 8
  let gap := went - t.ahead
  let all := t.since + gap
  let sets := all / 1020
  let r := all % 1020
  let rd := (List.range 4).map (fun p => lget t.rd p false != mask.testBit p)
  if gap = 0 then ({ t with tick := tick, ahead := t.ahead - went }, 0)
  else if sets = 0 ∨ 4 ≤ r then ({ rd := rd, since := r, tick := tick, ahead := 0 }, sets)
  else if r = 0 then ({ rd := rd, since := 1020, tick := tick, ahead := 0 }, sets - 1)
  else ({ rd := rd, since := 4, tick := tick, ahead := 4 - r }, sets)

end Sys2Proof.Machine
end

