-- ==== Sys2Proof/Machine/Image.lean ====
section
/-!
DEFINITION. The loaded kindling image as plain data (02_kindling_image.md). Sections whose layout a chapter
lays down are kept as their bytes and read at the offsets given there; sections whose layout the manual does not
give (SECURE but for its descriptors, CLOCK_POWER, GEOMETRY, SLICE_MAP, MEMORY, NETWORK, ARBITER, RINGS,
STOKER_FW, UNIFORMITY, and the header of SCHEDULES) are held as the values the chapters say they fix (log entry 3).
-/
namespace Sys2Proof.Machine

/-- One section of an image or patch: its section_id, the wall group of a scoped section, and its body. -/
structure ImgSection where
  id : Nat
  scope : Option Nat
  live : Bool
  body : List Byte
  deriving DecidableEq, Repr

/-- A timing mode (06_scan_timing.md R208), with the active plane count (R104, R147). -/
structure TimingMode where
  fNum : Nat
  fDen : Nat
  nTotal : Nat
  nActive : Nat
  guard : Nat
  deadline : Nat
  swap : Nat
  planes : Nat
  deriving DecidableEq, Repr

/-- A wall group as GEOMETRY fixes it: ports, time base, modes, jitter slots J, hogels per segment. -/
structure GroupCfg where
  ports : List Nat
  timeBase : Nat
  modes : List TimingMode
  slots : Nat
  hSeg : Nat
  phase : Nat
  idle : Bool
  deriving DecidableEq, Repr

/-- A tile class: class number, hogel columns and rows, view rows. -/
structure TileClass where
  cls : Nat
  cols : Nat
  rows : Nat
  viewRows : Nat
  deriving DecidableEq, Repr

/-- An active port as GEOMETRY and SLICE_MAP fix it: tile class, wall group, management bus and address,
overlay column and row of its hogel (0, 0), physical slice. -/
structure PortCfg where
  cls : Nat
  group : Nat
  bus : Nat
  addr : Nat
  ovlCol : Nat
  ovlRow : Nat
  slice : Nat
  deriving DecidableEq, Repr

/-- What GEOMETRY and SLICE_MAP fix. `ports` is keyed by port number, `groups` by wall group; `alternates` is the alternate mapping of
each of the 100 slices (R56). -/
structure Geometry where
  classes : List TileClass
  ports : Tab PortCfg
  groups : Tab GroupCfg
  manual : List Bool
  alternates : List (Option Nat)
  wallW : Nat
  wallH : Nat
  deriving DecidableEq, Repr, Inhabited

/-- What SECURE fixes beside the region descriptors: the worlds mask by block_code (R498), the heartbeat
period in ms (R347) and sup_reset (R435). -/
structure SecureCfg where
  worlds : Nat
  regions : List (List Nat)
  hbPeriod : Nat
  supReset : Bool
  deriving DecidableEq, Repr, Inhabited

/-- What CLOCK_POWER fixes: lane rate code by port group and the powered domains (R567). -/
structure ClockCfg where
  freq : List Nat
  laneRate : List Nat
  groups : Nat
  quarters : Nat
  hbm : Bool
  ethernet : Bool
  pcie : Bool
  deriving DecidableEq, Repr, Inhabited

/-- What MEMORY fixes: hash selections by class (11 each), the remap (physical, offset), the frame slots' base by
group × 8 + slot and the slot size by group, map buffers by port × 2 + buffer as (base, extent), each port's map read limit, and where the
view and correction tables of each wall group's SCHEDULES lie in HBM (R135, log entry 112). -/
structure MemoryCfg where
  hash : List (List Nat)
  remap : List (Nat × Nat)
  slotBase : Tab Nat
  slotSize : Tab Nat
  mapBuf : Tab (Nat × Nat)
  mapLimit : Tab Nat
  viewBase : Tab Nat
  raw : List Byte
  deriving DecidableEq, Repr, Inhabited

/-- An Ethernet port as NETWORK fixes it. -/
structure EthCfg where
  enable : Bool
  pmd : Nat
  mac : Nat
  vid : Nat
  egress : Nat
  ingress : Nat
  ctrlUdp : List Nat
  deriving DecidableEq, Repr

/-- A control queue as NETWORK fixes it (R468). -/
structure QueueCfg where
  dir : Nat
  owner : Nat
  sizeLog2 : Nat
  source : Nat
  base : Nat
  deriving DecidableEq, Repr

/-- A time base as NETWORK fixes it (R475, R477, R479). -/
structure TbCfg where
  discipline : Nat
  bandwidth : Nat
  glInput : Nat
  pNum : Nat
  pDen : Nat
  glOffset : Nat
  ptp : Nat
  deriving DecidableEq, Repr

/-- A stream configuration's initial values (R99). -/
structure StreamCfg where
  id : Nat
  ethMask : Nat
  enable : Bool
  udp : Nat
  deriving DecidableEq, Repr

/-- What NETWORK fixes. -/
structure NetworkCfg where
  eth : List EthCfg
  queues : List QueueCfg
  tbs : List TbCfg
  eventTb : Nat
  streams : List StreamCfg
  deriving DecidableEq, Repr, Inhabited

/-- One arbiter instance as ARBITER fixes it; `reqs` holds (class, present, quota, weight) by requester. -/
structure ArbCfg where
  mode : Nat
  window : Nat
  reqs : List (Nat × Nat × Nat × Nat)
  deriving DecidableEq, Repr, Inhabited

/-- One ring as RINGS fixes it (R437). -/
structure RingCfg where
  kind : Nat
  secure : Bool
  sizeLog2 : Nat
  entry : Nat
  cq : Nat
  producer : Nat
  consumer : Nat
  altProducer : Nat
  altConsumer : Nat
  base : Nat
  target : Nat
  vector : Nat
  deriving DecidableEq, Repr

/-- What RINGS fixes: rings by number, and the hearth locks allotted to the secure world. -/
structure RingsCfg where
  rings : Tab RingCfg
  secureLocks : List Nat
  deriving DecidableEq, Repr, Inhabited

/-- One stoker's firmware: its local memory image and its watchdog period in ms. -/
structure FwCfg where
  image : List Byte
  wdtMs : Nat
  deriving DecidableEq, Repr, Inhabited

/-- One event route's initial value (R35 to R38). -/
structure RouteCfg where
  secure : Bool
  toRec : Bool
  target : Nat
  dest : Nat
  deriving DecidableEq, Repr, Inhabited

/-- A verified image: header identity, the sections kept as bytes, and the typed configuration; `schedOff` holds, by wall group, the
offsets that the header of its SCHEDULES gives. -/
structure Image where
  imageId : Nat
  rollback : Nat
  keySlot : Nat
  minor : Nat
  sections : List ImgSection
  secure : SecureCfg
  clock : ClockCfg
  geo : Geometry
  mem : MemoryCfg
  net : NetworkCfg
  arb : List ArbCfg
  rings : RingsCfg
  fw : Tab FwCfg
  routes : Tab RouteCfg
  mapsInside : Tab (List Byte)
  schedOff : List (List Nat)
  damper : Nat
  deriving DecidableEq, Repr

/-- No image: what the device has before its first load. -/
def Image.blank : Image :=
  { imageId := 0, rollback := 0, keySlot := 0, minor := 0, sections := [],
    secure := ⟨0, [], 0, false⟩, clock := ⟨[], [], 0, 0, false, false, false⟩,
    geo := ⟨[], [], [], [], [], 0, 0⟩, mem := ⟨[], [], [], [], [], [], [], []⟩, net := ⟨[], [], [], 0, []⟩,
    arb := [], rings := ⟨[], []⟩, fw := [], routes := [], mapsInside := [], schedOff := [], damper := 0 }

/-- The section, among these, with this id for wall group g: the scoped one, else the unscoped one (log entry 124). Scope 4 + g marks
an unscoped section that a live patch has brought into force in group g alone (R77). -/
def sectionFor (l : List ImgSection) (id g : Nat) : Option ImgSection :=
  ((l.find? (fun s => s.id == id && s.scope == some g)).or (l.find? (fun s => s.id == id && s.scope == some (4 + g)))).or
    (l.find? (fun s => s.id == id && s.scope == .none))

/-- Its body; empty where there is none. -/
def sectionBody (l : List ImgSection) (id g : Nat) : List Byte := ((sectionFor l id g).map ImgSection.body).getD []

/-- The body of the section with this id in force for wall group g. -/
def Image.body (im : Image) (id g : Nat) : List Byte := sectionBody im.sections id g

/-- A section takes the place of every one with its id that governs wall group g alone. -/
def Image.putFor (im : Image) (g : Nat) (s : ImgSection) : Image :=
  { im with sections := im.sections.filter (fun t => ! (t.id == s.id && (t.scope == some g || t.scope == some (4 + g)))) ++ [s] }

/-- A section takes the place of every one with its id. -/
def Image.putWhole (im : Image) (s : ImgSection) : Image :=
  { im with sections := im.sections.filter (fun t => t.id != s.id) ++ [s] }

/-- A patch's sections with the scoped ones last, which govern their wall groups (log entry 124). -/
def scopedLast (l : List ImgSection) : List ImgSection := l.filter (fun s => s.scope.isNone) ++ l.filter (fun s => s.scope.isSome)

/-- Where table i of wall group g's SCHEDULES starts: 0 views, 1 corrections, 2 schedules, 3 streams. -/
def Image.schedAt (im : Image) (i g : Nat) : Nat := lget (lget im.schedOff g []) i 0

/-- The port's configuration, if the port is active. -/
def Image.port (im : Image) (n : Nat) : Option PortCfg := tfind im.geo.ports n

/-- The wall group's configuration, if the image defines it. -/
def Image.group (im : Image) (g : Nat) : Option GroupCfg := tfind im.geo.groups g

/-- The tile class of a class number. -/
def Image.tileClass (im : Image) (c : Nat) : Option TileClass := im.geo.classes.find? (fun t => t.cls == c)

/-- Active ports in rising order. -/
def Image.activePorts (im : Image) : List Nat := im.geo.ports.map (fun p => p.1)

end Sys2Proof.Machine
end

