-- ==== Sys2Proof/Machine/State.lean ====
section
/-!
DEFINITION. The state of the XQ9600 as plain data, its faults and refusals, and the state after reset.
-/
namespace Sys2Proof.Machine

/-! ### What leaves the device -/

/-- One thing the device sends or does at its pins. The model keeps them in order in `Dev.out`, newest
first (log entry 5): they are what an observer outside the device sees. -/
inductive Out where
  /-- A forward packet on a tile port (07_tile_link.md): the skip sets that left since the columns before it, its bytes, and its columns'
  code groups by physical lane, from SOP to EOP with the skip sets inside it. -/
  | link (port skips : Nat) (bytes : List Byte) (cols : List (List Nat))
  /-- A packet that was cut short (R251): the bytes that left of it, and its columns up to ABT. -/
  | abort (port skips : Nat) (bytes : List Byte) (cols : List (List Nat))
  /-- Columns outside packets on a tile port: a TSY, a training burst, a skip set. -/
  | columns (port skips : Nat) (cols : List (List Nat))
  /-- The training set that a port starts to send in TS1 or TS2, and repeats until the phase ends (R260). -/
  | training (port skips : Nat) (ts2 : Bool) (cols : List (List Nat))
  /-- PRBS-31 (x³¹ + x²⁸ + 1) starts on the four lanes of a port, uncoded, each from its own state of the register (R281). -/
  | prbs (port : Nat) (seeds : List Nat)
  /-- A request frame on a management bus (R299). -/
  | mgmt (bus : Nat) (bytes : List Byte)
  /-- An MSI-X message with the stamp of its event (R38). -/
  | msix (vector event stamp : Nat)
  /-- An Ethernet frame from its destination address to its FCS (R470). -/
  | eth (port : Nat) (bytes : List Byte)
  /-- A timed pulse output changes level (R485). -/
  | tpo (output : Nat) (level : Bool)
  /-- Forward lanes of a port change their electrical state (0 off, 1 idle, 2 driving, 3 training). -/
  | lanes (port state : Nat)
  /-- Auto-negotiation starts on an Ethernet port (R463). -/
  | negotiate (port : Nat)
  /-- Data returned to the reader of a register command, by initiator code. -/
  | readData (initiator addr value : Nat)
  /-- Data returned to an HBM requester, with its error flag (R362, R363). -/
  | hbmData (requester addr : Nat) (err : Bool) (bytes : List Byte)
  /-- A transaction's completion to its requester (R365). -/
  | hbmDone (requester addr : Nat)
  /-- The line clock of a wall group reaches its swap instant (R221). -/
  | swap (group frame stamp : Nat)
  deriving DecidableEq, Repr

/-- A control-space write that a stoker's store has issued and that has not yet taken effect (R26). -/
structure Posted where
  who : Initiator
  addr : Nat
  value : Nat
  deriving DecidableEq, Repr

/-! ### Event recorder (14_recorder_kiln.md) -/

/-- One recorder record: the fields of the record table before it is laid out in 64 words. Stamps are
time-base values in units of 2⁻¹⁶ ns. `shRepeat` and `shLast` are its SRAM shadow (R538). -/
structure Rec where
  event : Nat
  cls : Nat
  block : Nat
  inst : Nat
  detail : Nat
  first : Nat
  last : Nat
  rept : Nat
  repSat : Bool
  secure : Bool
  device : Bool
  mended : Bool
  snaps : List (Nat × Nat)
  data : List Nat
  seq : Nat
  gen : Nat
  shRepeat : Nat
  shLast : Nat
  deriving DecidableEq, Repr

/-- The recorder's volatile state: the record queue (R542, R543), the newest written record with its
slot and the time of its last peat-store write (R540), the triggers lost since the last LOST record. -/
structure EvrState where
  queue : List Rec
  newest : Option Rec
  newestSlot : Nat
  lastWrite : Nat
  due : Bool
  lost : Nat
  deriving DecidableEq, Repr

/-- A journal entry (R64 to R66). `kind`: 0 STATE, 1 RELIGHT_BEGIN, 2 RELIGHT_END; `state` as
KIN_SLOT.state; `intact` is false when header and trailer disagree (R65). -/
structure JEntry where
  gen : Nat
  kind : Nat
  slot : Nat
  imageId : Nat
  rollback : Nat
  state : Nat
  trials : Nat
  intact : Bool
  deriving DecidableEq, Repr

/-- The peat store (R530): recorder slots as 64-word records, the kindling slot journal, oldest first, and the first OTP
words of the records that failed their read-back, which R522 counts as consumed for ever. -/
structure Peat where
  slots : Tab (List Nat)
  journal : List JEntry
  consumed : List Nat
  deriving DecidableEq, Repr

/-! ### Kiln (14_recorder_kiln.md) -/

/-- A correction computed by the kiln and not yet fully in force: the setting it moves (a resource and a
code in force and wanted), when it was computed, and whether its deferral has been reported (R552, R553). -/
structure Correction where
  item : Nat
  inst : Nat
  setting : Nat
  current : Int
  target : Int
  since : Nat
  deferred : Bool
  deriving DecidableEq, Repr

/-- The kiln's hidden state: corrections waiting for a boundary, consecutive good CAL_RES results while the internal
reference is in use (R555), the codes in force by setting, keyed (item × 256 + resource) × 64 + setting, and the settings that have
moved in the kiln boundary their resource is in (R553). -/
structure KlnState where
  waiting : List Correction
  goodRes : Nat
  codes : Tab Int
  moved : List Nat
  deriving DecidableEq, Repr

/-! ### Security (13_security.md) -/

/-- A checked token held until used (R516): its purpose, its eight argument words and its key slot. -/
structure Token where
  purpose : Nat
  args : List Nat
  keySlot : Nat
  deriving DecidableEq, Repr

/-- An OTP command under way (R522, R524, R525): the SEC_OTP_CMD value; the fuse bits to program in order, as (word, bit); the
first OTP word; what the whole record must read back as, as (word, mask, value), and the one-bit settings that must read 1, as
(word, low bit); and the tick of its acceptance. -/
structure OtpRun where
  cmd : Nat
  todo : List (Nat × Nat)
  firstWord : Nat
  expect : List (Nat × Nat × Nat)
  settings : List (Nat × Nat)
  start : Nat
  deriving DecidableEq, Repr

/-- The security block's hidden state: the nonce and the tick of its draw; the 40 words of the token being checked, while a
check runs, whether it named the nonce then current, and whether the mailbox started it; the checked token held; the OTP command under way; whether a DEBUG_UNLOCK
token has opened JTAG; and K_exp as the loader derived it at power-on, where an image key was committed then (R546). -/
structure SecState where
  nonceValid : Bool
  nonceDrawn : Nat
  token : List Nat
  nonceOk : Bool
  checking : Bool
  mbxCheck : Bool
  checked : Option Token
  otp : Option OtpRun
  debugOpen : Bool
  expKey : Option Nat
  deriving DecidableEq, Repr

/-! ### Kindling loader (02_kindling_image.md) -/

/-- A live patch that passed verification and waits for its frame (R77 to R80): its number among the patches staged, its patch_seq and
sections, the wall groups it has yet to reach, and the wall group with which its sections for the whole device take effect (R392). -/
structure Staged where
  num : Nat
  patchSeq : Nat
  sections : List ImgSection
  groups : Nat
  wide : Option Nat
  deriving DecidableEq, Repr

/-- A relight under way (R83 to R94): its target slot, its start, whether it is the fallback, the groups whose black frame is done, and
whether the boot training that a changed HBM clock calls for has run (R91, R379). -/
structure Relight where
  target : Nat
  started : Nat
  fallback : Bool
  blackDone : Nat
  trained : Bool
  deriving DecidableEq, Repr

/-- The loader's hidden state: the slot being booted, the image verified and not yet applied, the running relight, staged patches, the
patches submitted and not yet verified, the flash write under way as slot and bytes, whether the supervisor has reported ready
and the tick of its release, the kind of the last reset (R558), the image that ran before a load, whether admission is stopped, and the
number of the next patch staged. -/
structure KinState where
  source : Nat
  cand : Option Image
  relight : Option Relight
  staged : List Staged
  patches : List (List Byte)
  flashRun : Option (Nat × List Byte)
  supReady : Bool
  released : Nat
  bootKind : Nat
  before : Image
  noAdmit : Bool
  nextPatch : Nat
  deriving DecidableEq, Repr

/-! ### Reset and power (15_reset_power_faults.md) -/

/-- Where the boot of R566 stands. -/
inductive BootPhase where
  | off | held | waitTraining | verify | apply | run | halted | smoulder
  deriving DecidableEq, Repr

/-- Reset and power state: the boot phase, blocks held in reset by the load (mask by block_code),
the causes that hold a reset (bit 7 thermal, bit 9 clock), POWER_FAIL_N low, the warning of R572 standing and its tick, smoulder
entry under way, the wall groups yet to send SMOULDER and the tick of entry, the references lost (bits as in GLB_CLK_STATUS),
whether a timed smoulder exit waits for POWER_FAIL_N (R586), and whether XSPI_RESET_N is high, the loader driving the flash pins (R587). -/
structure GlbState where
  phase : BootPhase
  held : Nat
  heldBy : Nat
  failPin : Bool
  warned : Bool
  warnTick : Nat
  smoulderEntry : Bool
  smoulderGroups : Nat
  smoulderTick : Nat
  clocksLost : Nat
  wakeWait : Bool
  xspi : Bool
  deriving DecidableEq, Repr

/-! ### Ingest (03_scene_stream.md) -/

/-- A layer entry of a FRAME packet. -/
structure Layer where
  id : Nat
  slot : Nat
  visible : Bool
  fullRange : Bool
  fmt : Nat
  width : Nat
  height : Nat
  off : Nat
  len : Nat
  comp : List Nat
  coding : List Nat
  shift : Nat
  deriving DecidableEq, Repr

/-- An accepted FRAME packet: presentation time in ns, layers, and its bytes for R103. -/
structure FrameHdr where
  pt : Nat
  layers : List Layer
  raw : List Byte
  deriving DecidableEq, Repr

/-- A frame slot that holds an unadmitted frame: P, g and data_bytes once fixed (R106), the FRAME packet
once arrived, the DATA packets present, the exclusive-or of the payloads so far by parity group, and the PARITY
payloads held. -/
structure IngSlot where
  frame : Nat
  fixed : Option (Nat × Nat × Nat)
  hdr : Option FrameHdr
  present : Tab Nat
  acc : Tab (List Byte)
  parity : Tab (List Byte)
  deriving DecidableEq, Repr

/-- An admitted frame (R114 to R118): its slot, its layers as admitted, the block rows missing (key
(layer × 4 + component) × 4096 + row; 1 read from the concealment source, 2 EMPTY), and the loaded tables
in force at its admission. -/
structure Admitted where
  slot : Nat
  frame : Nat
  hdr : FrameHdr
  missing : Tab Nat
  tables : Tab (List Nat)
  deriving DecidableEq, Repr

/-- Ingest state of one wall group. `dead` names frames whose later packets are dropped without a claim: 1 dropped (R111,
R112), 2 admitted (R114); `fixes` holds P, g and data_bytes of frames whose first packet fixed them and took no slot (R106). -/
structure IngGroup where
  pending : Tab IngSlot
  scan : Option Admitted
  source : Option Admitted
  spent : Bool
  taken : Bool
  dead : Tab Nat
  fixes : Tab (Nat × Nat × Nat)
  tables : Tab (List Nat)
  deriving DecidableEq, Repr

/-! ### Memory and arbiters (09_memory_arbitration.md) -/

/-- A transaction at an arbiter or a pseudo-channel (R353, R384): requester, world, direction, address,
length in bytes, write data, the band fetch stream it belongs to, its arrival stamp in
instance clocks, and the bursts left to send (0 in a read whose DRAM access is done, with its data on the way); a doorbell write also carries its writer (R441); `order` is its place among the
grants of its pseudo-channel (R364); a stoker's own access names the stoker and, for a load, the load's number (R425, R427). -/
structure Txn where
  req : Nat
  secure : Bool
  write : Bool
  addr : Nat
  len : Nat
  data : List Byte
  stream : Option Nat
  stamp : Nat
  left : Nat
  door : Option Initiator
  order : Nat
  core : Option (Nat × Nat)
  deriving DecidableEq, Repr

/-- One arbiter instance: its 32 pending queues, the accepted doorbell writes that a full queue holds back, oldest first by requester (R384,
R441), the request holding the grant, its clock and the values
of weight, quota, mode and window in force (R384 to R392). -/
structure ArbInst where
  queues : Tab (List Txn)
  held : Tab (List Txn)
  holder : Option Txn
  clock : Nat
  cfg : Tab Nat
  deriving DecidableEq, Repr

/-- One physical pseudo-channel: reads in flight, the write queue, grants so far, the running cord's low watermark and the grants at
its start, the training run, when a run came due, whether a training window has come since then (R377) and when the last run ended, the
ticks of its uncorrectable errors; by bank the refreshes postponed and the tick at which one last came due (R371); and the open page's
row of each bank that has one (R366). -/
structure Pch where
  reads : List Txn
  writes : List Txn
  granted : Nat
  cordLow : Option Nat
  cordFrom : Nat
  training : Bool
  dueSince : Option Nat
  seen : Bool
  lastRun : Option Nat
  errs : List Nat
  refreshDue : Tab Nat
  refAt : Tab Nat
  open_ : Tab Nat
  deriving DecidableEq, Repr

/-! ### Ray synthesis (04_ray_synthesis.md) -/

/-- The band of one (port, plane position): the plane rows it holds, each a table from plane column to the
48-bit line-store sample (R139), and the row range the line in compute needed. -/
structure Band where
  rows : Tab (Tab Nat)
  deriving DecidableEq, Repr

/-- A takeover that waits for its admission point (R164, R165): the failed slice and the tick of its failure or command: one line
period after it an admission point may serve. -/
structure Takeover where
  slice : Nat
  from_ : Nat
  deriving DecidableEq, Repr

/-- Ray synthesis' hidden state: bands by port × 16 + plane, streams in the bellows class by wall group × 128 + number, the port that each failed
slice served, block rows decoded in this frame by a stream (for R132's counts), waiting takeovers, plane-samples (16-bit Y, Cb, Cr, A lists by plane) of the two lines between compute and composition
by port × 8192 + line, and gated plane-samples counted so far by slice. -/
structure RayState where
  bands : Tab Band
  bellows : Tab Nat
  takeover : Tab Nat
  computed : Tab (List (List Nat))
  gated : Tab Nat
  waiting : List Takeover
  fetched : Tab Nat
  deriving DecidableEq, Repr

/-! ### Composition (05_composition.md) -/

/-- A uniformity map that passed its check: its buffer, the codings and comp_offsets of its three
components, the map's length, and its map_id (R186 to R191). -/
structure MapDesc where
  buffer : Nat
  coding : List Nat
  offs : List Nat
  len : Nat
  mapId : Nat
  deriving DecidableEq, Repr

/-- Composition's hidden state: running map checks (port to buffer), maps pending, latched and in force by
port, the overlay base and pitch in force by wall group (R183); and by port × 8192 + line the overlay bytes and gains
fetched for a line (R170) and the ray values of composed lines waiting for their line period; and the bytes of maps that a live patch has
brought into force and that are still to be written (R77). -/
structure CmpState where
  checks : Tab Nat
  pend : Tab MapDesc
  latched : Tab MapDesc
  force : Tab MapDesc
  ovl : Tab (Nat × Nat)
  ovlLine : Tab (List Nat)
  gains : Tab (List Nat)
  lines : Tab (List Nat)
  placing : List (Nat × List Byte)
  deriving DecidableEq, Repr

/-! ### Scan timing (06_scan_timing.md) -/

/-- The set latched at line L_guard (R226, R601): mode, phase and hold; the coefficient selections by slot
(enable and set); the transfer set by port; overlay enable, bank, base and pitch; ports whose map is latched; the
live patches that join it. -/
structure LatchSet where
  mode : Nat
  phase : Nat
  hold : Nat
  coeff : Tab (Nat × Nat)
  xfer : Tab Nat
  ovlEn : Nat
  ovlBank : Nat
  ovlBase : Nat
  ovlPitch : Nat
  maps : List Nat
  patches : List Staged
  deriving DecidableEq, Repr

/-- A wall group's generator (R209 to R238): running or not; whether line 0 of scan frame 0 has begun; the grid index of the
scan frame; the grid frame, mode and phase of the coming line 0; `tail`: the lines since the alignment check, whose starts are
those of the coming frame's grid plus `shift` on the line clock (R232, R233); in an extension; the time base less the line
clock (2⁻¹⁶ ns, R211); the latched set; the underruns of the frame so far (port mask), those fixed at line N_active, whether
UNDERRUN was raised; ports that skip the swap and why it is due (R319); ports whose present and next frame is lost (R163);
whether the present and the next frame carry rays, and whether a relight's black ones (R87); whether the frame's swap was decided. -/
structure ScnGroup where
  running : Bool
  begun : Bool
  k : Nat
  nextK : Nat
  nextMode : Nat
  nextPhase : Nat
  tail : Bool
  shift : Int
  ext : Bool
  lcDiff : Int
  latched : Option LatchSet
  underrun : Nat
  underrunFixed : Nat
  underrunSeen : Bool
  skip : Nat
  lost : Nat
  lostNext : Nat
  scanning : Bool
  scanNext : Bool
  black : Bool
  blackNext : Bool
  decided : Bool
  deriving DecidableEq, Repr

/-! ### Tile link (07_tile_link.md) -/

/-- A time exchange (R274 to R278): its number s, t1 and TLK_ASYM at its start, the tick of its TSY, and its step flag. -/
structure Exchange where
  num : Nat
  t1 : Int
  asym : Int
  tick : Nat
  step : Bool
  deriving DecidableEq, Repr

/-- A port's link engine: the state and phase of training beyond what its registers show. `retries`: retries
made since training was last requested; `held`: DOWN until a train write (R259, R265); `await`: DOWN awaiting the
1 s retry; `wasUp`: training started by a LINK_DOWN or a reset, so the port rejoins as R268 lays down; `seqs`: the
sequence counter of each type sent (key: type) and received; `lastBc`: tick of the last good back-channel
packet; `lastCtl`, `lastLine`: ticks of the last control or time packet and of the last line packet or KEEPALIVE;
`exch`: the open time exchange; `exchNext`: next exchange number; `misses`: discarded exchanges in a
row; `lastSwapped`: the last frame sent with swap = 1 since training; `lineCrc`: the running CRC of the frame's
packet bodies; `aborted`: no further line packet this scan frame (R251); `csum`: the CHECKSUM held for the deadline
as (frame, crc, good line packets); `waitPk`: control and time packets that wait for the lanes to leave idle (R271), as
(type, header words 0 and 1, body); `sawReport`: a TRAIN report has arrived in TS1; `phaseAt`: the tick at which the phase,
test or failure began; `secondSwap`: the SWAP whose second copy has still to leave, with the tick of its first; `rejoin`: rejoins at the
next admission point; `inFrame`: the port takes part in the frame in scan; `stepFlag`: the line clock took a new value at the last line 0
(R278); `tx` and `txBefore`: the transmitter now and before the newest packet; `rxRd` and `bcFil`: the running disparity of the back-channel
receiver (R244) and the FIL it left in the last skip set (R247); `testMode` and `testMs`: the running test's (R281). -/
structure LinkState where
  retries : Nat
  held : Bool
  await : Bool
  wasUp : Bool
  seqs : Tab Nat
  lastBc : Nat
  lastCtl : Nat
  lastLine : Nat
  exch : Option Exchange
  exchNext : Nat
  exchDone : Nat
  misses : Nat
  lastSwapped : Option Nat
  lineCrc : Nat
  aborted : Bool
  csum : Option (Nat × Nat × Nat)
  secondSwap : Option (Nat × List Byte)
  rejoin : Bool
  inFrame : Bool
  stepFlag : Bool
  lit : Bool
  lanesOff : Nat
  testWait : Bool
  waitPk : List (Nat × Nat × Nat × List Byte)
  sawReport : Bool
  phaseAt : Nat
  tx : TxState
  txBefore : TxState
  rxRd : Bool
  bcFil : Nat
  testMode : Nat
  testMs : Nat
  deriving DecidableEq, Repr

/-- A link engine after reset. -/
def LinkState.init : LinkState :=
  { retries := 0, held := false, await := false, wasUp := false, seqs := [], lastBc := 0, lastCtl := 0, lastLine := 0,
    exch := none, exchNext := 0, exchDone := 0, misses := 0, lastSwapped := none, lineCrc := 0xFFFFFFFF, aborted := false,
    csum := none, secondSwap := none, rejoin := false, inFrame := false, stepFlag := false, lit := false,
    lanesOff := 0, testWait := false, waitPk := [], sawReport := false, phaseAt := 0,
    tx := TxState.start 0, txBefore := TxState.start 0, rxRd := false, bcFil := 3, testMode := 0, testMs := 0 }

/-! ### Tile control and firescreen (08_tile_control.md) -/

/-- A management exchange waiting for its reply on a bus: the frame's address, command and sequence, the port it
concerns (none in discovery), the tries made, and whether it went as a MGMT packet (R301, R302). -/
structure MgmtReq where
  addr : Nat
  cmd : Nat
  seq : Nat
  port : Option Nat
  payload : List Byte
  tries : Nat
  tunnel : Bool
  deriving DecidableEq, Repr

/-- One management bus: the request awaiting its reply, those waiting to be sent, the requester's sequence
counter. -/
structure BusState where
  open_ : Option MgmtReq
  waiting : List MgmtReq
  seq : Nat
  deriving DecidableEq, Repr

/-- Tile control of one port: power-up step (0 none, 1 bias, 2 training, 3/4 emission), why a discharge runs (0 none,
1 power-down, 2 relight, 3 fade, 4 power failure, 5 a fade's that a power-down joined) and whether a relight holds the bias on
through it (R88), polls failed in a row, a tile discovered and matching, the band and
level last sent, the firmware's STATUS temperature, TELEMETRY seen since the last deadline, blocked by
temperature, rays of partial writes in the last second by quarter as (tick, count) (R326), the code sums of the partial-write rays
since the last swap (R327), and one more than frame × 8192 + line of the last partial-write packet (R324). -/
structure PortCtl where
  step : Nat
  discharge : Nat
  polls : Nat
  found : Bool
  mismatch : Bool
  sentBand : Nat
  sentLevel : Nat
  temp : Nat
  telem : Bool
  hot : Bool
  pwRays : Tab (List (Nat × Nat))
  pwSums : List Nat
  pwLine : Nat
  relightBias : Bool
  fadeStart : Nat
  fadeSteps : Nat
  firstSkip : Option Int
  deriving DecidableEq, Repr

/-- A port's tile control after reset. -/
def PortCtl.init : PortCtl :=
  { step := 0, discharge := 0, polls := 0, found := false, mismatch := false, sentBand := 0, sentLevel := 0, temp := 0,
    telem := false, hot := false, pwRays := [], pwSums := [0, 0, 0], pwLine := 0, relightBias := false, fadeStart := 0, fadeSteps := 0,
    firstSkip := none }

/-- A flash detector of one quarter (R344 to R346): direction (0 none, 1 up, 2 down), extremum once taken, reversal
stamps newest first, damped, and whether it held 3 reversals at its last swap, so that damping is due. -/
structure FlashDet where
  dir : Nat
  ext : Option Nat
  stamps : List Int
  damped : Bool
  due : Bool
  deriving DecidableEq, Repr

/-- The firescreen of one port: levels and factors in force, the sums of the frame in composition (S and S_raw by
colour, proxy sums by quarter), d[n], p0 and the values computed at N_active for the deadline, and the detectors. -/
structure FscPort where
  sums : List Nat
  raws : List Nat
  proxy : List Nat
  composed : Bool
  kNext : Nat
  levelSent : Nat
  dyn : Nat
  pOut : Nat
  means : List Nat
  revs : List Bool
  next : List FlashDet
  det : List FlashDet
  deriving DecidableEq, Repr

/-- A flash detector that has seen no frame. -/
def FlashDet.init : FlashDet := ⟨0, none, [], false, false⟩

/-- A port's firescreen after reset. -/
def FscPort.init : FscPort :=
  { sums := [0, 0, 0], raws := [0, 0, 0], proxy := [0, 0, 0, 0], composed := false, kNext := 65536, levelSent := 0, dyn := 0,
    pOut := 0, means := [0, 0, 0, 0], revs := [false, false, false, false],
    next := [FlashDet.init, FlashDet.init, FlashDet.init, FlashDet.init],
    det := [FlashDet.init, FlashDet.init, FlashDet.init, FlashDet.init] }

/-- The firescreen's hidden state: ports, wall factors in force and computed by group, the heartbeat timer (running,
tick of the last refresh, held age). -/
structure FscState where
  ports : Tab FscPort
  kWall : Tab Nat
  kWallNext : Tab Nat
  hbRun : Bool
  hbTick : Nat
  hbAge : Nat
  deriving DecidableEq, Repr

/-! ### Engines, rings and stokers (10_codec_2d.md, 11_stokers_rings.md) -/

/-- A codec job's working values (R398 to R410): the block row in progress, the blocks coded in it and the bytes produced; the
code lengths in force for it and its histogram so far; its row_offset and column offsets; the block row the job began with; the static,
loaded or seed table at the job's start; mismatches and the first one's column and row. -/
structure CdcWork where
  blockRow : Nat
  blockCol : Nat
  produced : Nat
  lens : List Nat
  hist : List Nat
  rowOffset : Nat
  colOffs : List Nat
  startRow : Nat
  table : List Nat
  mismatches : Nat
  firstCol : Nat
  firstRow : Nat
  deriving DecidableEq, Repr

/-- A codec job that has not begun. -/
def CdcWork.init : CdcWork :=
  { blockRow := 0, blockCol := 0, produced := 0, lens := [], hist := [], rowOffset := 0, colOffs := [], startRow := 0,
    table := [], mismatches := 0, firstCol := 0, firstRow := 0 }

/-- A fetched job (R443, R449): ring, in-flight entry, descriptor index, engine endpoint, state as R449 encodes it, the 128
descriptor bytes, the five progress words of its completion, units of work completed, whether it has finished, whether it waits for a
conflicting 2-D job (R418), a codec job's working values, its number in fetch order, its number among completions
held (R448), and a partial write's next hogel column and whether it is held at its rate limit (R326). -/
structure Job where
  ring : Nat
  slot : Nat
  index : Nat
  engine : Nat
  state : Nat
  desc : List Byte
  progress : List Nat
  units : Nat
  finished : Bool
  conflict : Bool
  cdc : CdcWork
  order : Nat
  heldAt : Nat
  col : Nat
  held : Bool
  deriving DecidableEq, Repr

/-- In-flight jobs by ring, oldest first, the number of the next job (for submission order), and the ring that each engine last fetched
from (R444). -/
structure JobState where
  inflight : Tab (List Job)
  nextOrder : Nat
  turn : Tab Nat
  deriving DecidableEq, Repr

/-- A load from HBM that a stoker waits for (R427): its number, funct3, destination register and the pc after it. -/
structure LoadWait where
  num : Nat
  funct : Nat
  rd : Nat
  next : Word
  deriving DecidableEq, Repr

/-- One stoker: integer registers by number, program counter, machine mode or user mode, CSRs by number, local
memory bytes that differ from 0, the LR reservation, run state (0 held in reset, 1 running, 2 waiting for
interrupt, 3 failed), the claim queue, its overflow flag, secure events waiting outside it (R430), ticks of release and of the last wdkick,
the cycle and instret offsets written by software, the HBM load it waits for, and whether its instruction has been held back by a full pending queue (R384). -/
structure StkCore where
  x : Tab Word
  pc : Word
  machine : Bool
  csr : Tab Nat
  mem : Tab Byte
  resv : Option Nat
  run : Nat
  claim : List Nat
  overflow : Bool
  waiting : List Nat
  released : Nat
  kicked : Nat
  instret : Nat
  cycleBase : Int
  load : Option LoadWait
  stall : Bool
  deriving DecidableEq, Repr

/-- A stoker held in reset with cleared local memory. -/
def StkCore.init : StkCore :=
  { x := [], pc := 0, machine := true, csr := [], mem := [], resv := none, run := 0, claim := [], overflow := false, waiting := [],
    released := 0, kicked := 0, instret := 0, cycleBase := 0, load := none, stall := false }

/-- All stokers, whether the PCIe link is up (R453, R454), and the number of the next HBM load. -/
structure StkState where
  cores : Tab StkCore
  pcieUp : Bool
  loads : Nat
  deriving DecidableEq, Repr

/-! ### Network and time (12_network_time.md) -/

/-- A time base (R471): its value in units of 2⁻⁴⁸ ns; its genlock's count of good edges, the time of the last edge it used and the
loop's integral part as a rate (R477; the state is NET_TB_CTRL.state). -/
structure TimeBase where
  val : Nat
  good : Nat
  last : Nat
  integ : Int
  deriving DecidableEq, Repr

/-- A timed pulse output's settings as last armed, the number of its next pulse while one is due, and the end of the pulse in progress:
its time, and the source on which that pulse began, which an arm does not change (R485 to R490). -/
structure PulseOut where
  line : Bool
  index : Nat
  low : Bool
  periodic : Bool
  start : Nat
  num : Nat
  den : Nat
  width : Nat
  next : Option Nat
  until_ : Option Nat
  endLine : Bool
  endIndex : Nat
  deriving DecidableEq, Repr

/-- A received frame whose slot has not completed (R469), or a transmit frame that has not (R470): the slot's bytes; whether a
transmit frame leaves; its stamp and whether it takes a PCS stamp; a transmit frame's bytes, and whether it found the pending PCS stamps
full (R484). -/
structure EthSlot where
  queue : Nat
  index : Nat
  port : Nat
  bytes : List Byte
  sent : Bool
  stamp : Nat
  event : Bool
  frame : List Byte
  ovf : Bool
  deriving DecidableEq, Repr

/-- The network's hidden state; `stamps` holds the last stamp of each capture input (R493), `turn` the transmit queue served last (R470). -/
structure NetState where
  tbs : Tab TimeBase
  pulses : Tab PulseOut
  capFifo : Tab (List (Nat × Bool))
  rx : List EthSlot
  tx : List EthSlot
  stamps : Tab Nat
  turn : Nat
  deriving DecidableEq, Repr

/-! ### The device -/

/-- Everything but the OTP array, the flash slots, the HBM contents and the command queue. -/
structure Dev where
  regs : RegFile
  img : Image
  loaded : Bool
  ticks : Nat
  free : Nat
  out : List Out
  posted : List Posted
  latch : Tab Nat
  peat : Peat
  evr : EvrState
  kln : KlnState
  sec : SecState
  kin : KinState
  glb : GlbState
  ing : Tab IngGroup
  ltab : Tab (List Nat)
  ray : RayState
  cmp : CmpState
  scn : Tab ScnGroup
  link : Tab LinkState
  bus : Tab BusState
  tct : Tab PortCtl
  fsc : FscState
  arb : Tab ArbInst
  pch : Tab Pch
  jobs : JobState
  stk : StkState
  net : NetState
  deriving DecidableEq, Repr

/-- The state of the block: the commands waiting, first in first out; the OTP array's 256 words (R520); the two
flash slots' bytes; the HBM bytes that differ from what an unlisted address reads as; and everything else. -/
structure State where
  pending : List Instr
  otp : Tab Nat
  flash : Tab (List Byte)
  hbm : List Host.Cell
  dev : Dev
  deriving DecidableEq, Repr

/-- Why a step stops. No command of this block stops the device: a fault of the hardware is an effect on its
state, so this type has no constructor that a meaning answers with. -/
inductive Fault where
  /-- Raised by no meaning; it stands so that the type is inhabited. Safe. -/
  | none_
  deriving DecidableEq, Repr

/-- Why a command is refused. -/
inductive Refusal where
  /-- A command whose meaning the model does not have. Raised by the dispatch alone. Safe. -/
  | notModelled (mnemonic : String)
  deriving DecidableEq, Repr

/-- Ingest of a wall group that has received nothing. -/
def IngGroup.init : IngGroup :=
  { pending := [], scan := none, source := none, spent := false, taken := false, dead := [], fixes := [], tables := [] }

/-- A generator that does not run. -/
def ScnGroup.init : ScnGroup :=
  { running := false, begun := false, k := 0, nextK := 0, nextMode := 0, nextPhase := 0, tail := false, shift := 0,
    ext := false, lcDiff := 0, latched := none, underrun := 0, underrunFixed := 0, underrunSeen := false, skip := 0, lost := 0,
    lostNext := 0, scanning := false, scanNext := false, black := false, blackNext := false, decided := false }

/-- A pseudo-channel with nothing in flight. -/
def Pch.init : Pch :=
  { reads := [], writes := [], granted := 0, cordLow := none, cordFrom := 0, training := false, dueSince := none, seen := false, lastRun := none,
    errs := [], refreshDue := [], refAt := [], open_ := [] }

/-- An arbiter instance with nothing waiting. -/
def ArbInst.init : ArbInst := { queues := [], held := [], holder := none, clock := 0, cfg := [] }

/-- The device right after a power-on reset has been released and before its boot choice: every register at its
Reset entry (an empty register file), no image, the recorder and every engine empty (log entries 1 and 2). -/
def Dev.reset : Dev :=
  { regs := [], img := Image.blank, loaded := false, ticks := 0, free := 0, out := [], posted := [], latch := [],
    peat := ⟨[], [], []⟩,
    evr := { queue := [], newest := none, newestSlot := 0, lastWrite := 0, due := false, lost := 0 },
    kln := ⟨[], 0, [], []⟩,
    sec := { nonceValid := false, nonceDrawn := 0, token := [], nonceOk := false, checking := false, mbxCheck := false, checked := none,
             otp := none, debugOpen := false, expKey := none },
    kin := { source := 0, cand := none, relight := none, staged := [], patches := [], flashRun := none, supReady := false,
             released := 0, bootKind := 1, before := Image.blank, noAdmit := false, nextPatch := 0 },
    glb := { phase := .waitTraining, held := 0, heldBy := 0, failPin := false, warned := false, warnTick := 0,
             smoulderEntry := false, smoulderGroups := 0, smoulderTick := 0, clocksLost := 0, wakeWait := false, xspi := false },
    ing := [], ltab := [],
    ray := { bands := [], bellows := [], takeover := [], computed := [], gated := [], waiting := [], fetched := [] },
    cmp := { checks := [], pend := [], latched := [], force := [], ovl := [], ovlLine := [], gains := [], lines := [], placing := [] },
    scn := [], link := [], bus := [], tct := [],
    fsc := { ports := [], kWall := [], kWallNext := [], hbRun := false, hbTick := 0, hbAge := 0 },
    arb := [], pch := [], jobs := ⟨[], 0, []⟩, stk := ⟨[], false, 0⟩,
    net := { tbs := [], pulses := [], capFifo := [], rx := [], tx := [], stamps := [], turn := 15 } }

/-- The state after reset: nothing waiting, no fuse programmed, both flash slots empty, no HBM byte listed. -/
def State.reset : State := { pending := [], otp := [], flash := [], hbm := [], dev := Dev.reset }

end Sys2Proof.Machine
end

