-- ==== Sys2Proof/Machine/Ops.lean ====
section
/-!
DEFINITION. The operations every block's meaning is written over: reading and writing register fields of the
device, counters (R43 to R45), time fields, free values, and the list of what leaves the device.
-/
namespace Sys2Proof.Machine

/-! ### Registers of the device -/

/-- The value a field holds. -/
def Dev.rd (d : Dev) (f : Fld) (i : Nat := 0) (j : Nat := 0) : Nat := rget d.regs f i j

/-- A field as a truth value. -/
def Dev.rdb (d : Dev) (f : Fld) (i : Nat := 0) (j : Nat := 0) : Bool := rget d.regs f i j != 0

/-- Give a field a value. -/
def Dev.wr (d : Dev) (f : Fld) (v : Nat) (i : Nat := 0) (j : Nat := 0) : Dev := { d with regs := rset d.regs f v i j }

/-- Give a one-bit field a truth value. -/
def Dev.wrb (d : Dev) (f : Fld) (b : Bool) (i : Nat := 0) (j : Nat := 0) : Dev := d.wr f (b2n b) i j

/-- Set or clear bit k of a field. -/
def Dev.wrBit (d : Dev) (f : Fld) (k : Nat) (b : Bool) (i : Nat := 0) (j : Nat := 0) : Dev :=
  { d with regs := if b then rsetBit d.regs f k i j else rclrBit d.regs f k i j }

/-- Bit k of a field. -/
def Dev.rdBit (d : Dev) (f : Fld) (k : Nat) (i : Nat := 0) (j : Nat := 0) : Bool := (d.rd f i j).testBit k

/-- Bit n of a port mask held in three registers of 32 bits. -/
def Dev.portBit (d : Dev) (f : Fld) (n : Nat) : Bool := d.rdBit f (n % 32) (n / 32)

/-- Set or clear bit n of a port mask held in three registers. -/
def Dev.wrPortBit (d : Dev) (f : Fld) (n : Nat) (b : Bool) : Dev := d.wrBit f (n % 32) b (n / 32)

/-- Every cell of control-space addresses a to a + n − 1 returns to its Reset entry (R11). -/
def Dev.resetRegs (d : Dev) (a n : Nat) : Dev := { d with regs := rclear d.regs a n }

/-! ### What leaves the device, free values -/

/-- Append to what has left the device. -/
def Dev.emit (d : Dev) (o : Out) : Dev := { d with out := o :: d.out }

/-- Use up one free value. -/
def Dev.nextFree (d : Dev) : Dev := { d with free := d.free + 1 }

/-- The free value of the counter's present value, cut to w bits. -/
def Dev.freeVal (d : Dev) (w : Nat) : Nat := Config.freeValue d.free % 2 ^ w

/-- A free error of at most `bound` in size, as a stamp's stated uncertainty allows it. -/
def freeErr (k bound : Nat) : Int := ((Config.freeValue k % (2 * bound + 1) : Nat) : Int) - bound

/-! ### Counters (R43 to R45) -/

/-- Count `n` occurrences in the counter with these sat and count fields: nothing while sat is 1; the count that
reaches all ones sets sat (log entry 6). -/
def Dev.count (d : Dev) (sat cnt : Fld) (n : Nat := 1) (i : Nat := 0) (j : Nat := 0) : Dev :=
  if n = 0 ∨ d.rdb sat i j then d
  else if d.rd cnt i j + n < 0x7FFFFFFF then d.wr cnt (d.rd cnt i j + n) i j
  else (d.wr cnt 0x7FFFFFFF i j).wr sat 1 i j

/-- R44 and R45: a write of `v` to a counter, with an increment in the same cycle or not. -/
def Dev.counterWrite (d : Dev) (sat cnt : Fld) (v : Nat) (coincide : Bool) (i : Nat := 0) (j : Nat := 0) : Dev :=
  let s' := if bit v 31 then 0 else d.rd sat i j
  let c' := clearBits (d.rd cnt i j) (v % 2 ^ 31)
  let d' := (d.wr sat s' i j).wr cnt c' i j
  if coincide then
    if s' = 1 then d'
    else if v % 2 ^ 31 = 2 ^ 31 - 1 then d'.wr cnt 1 i j
    else d'.count sat cnt 1 i j
  else d'

/-! ### Time (R471, R495, 07_tile_link.md) -/

/-- The device time in ms and µs since power-on, from 4 ns ticks. -/
def Dev.ms (d : Dev) : Nat := d.ticks / 250000
def Dev.us (d : Dev) : Nat := d.ticks / 250

/-- Whole ms since tick t. -/
def Dev.msSince (d : Dev) (t : Nat) : Nat := (d.ticks - t) / 250000

/-- A time base's value now, in units of 2⁻¹⁶ ns. -/
def Dev.tbNow (d : Dev) (b : Nat) : Nat := (tget d.net.tbs b ⟨0, 0, 0, 0⟩).val / 2 ^ 32

/-- R471: what time base b adds at one 4 ns tick, in units of 2⁻⁴⁸ ns. -/
def Dev.tbInc (d : Dev) (b : Nat) : Nat := (2 ^ 50 + toS 32 (d.rd NET_TB_RATE.rate b) * 2 ^ 10).toNat

/-- A time base wraps with its seconds (R46, R471). -/
def tbModulus : Nat := 2 ^ 48 * 1000000000 * 2 ^ 48

/-- n ticks of 4 ns pass: the device time and every time base that has power and is not held in a reset advance (R475: the bases start at 0 as
the reset is released). -/
def Dev.advance (d : Dev) (n : Nat) : Dev :=
  let tbs := if d.rdb GLB_PWR_STATUS.core && d.glb.phase != .held then
      forUp 4 (fun b t =>
        let x := tget t b ⟨0, 0, 0, 0⟩
        tput t b { x with val := (x.val + n * d.tbInc b) % tbModulus }) d.net.tbs
    else d.net.tbs
  { d with ticks := d.ticks + n, net := { d.net with tbs := tbs } }

/-- Time passes up to tick t, where it is still ahead: a row that names an interval's end happens at that end (log
entry 11). -/
def Dev.waitTick (d : Dev) (t : Nat) : Dev := if d.ticks < t then d.advance (t - d.ticks) else d

/-- Ticks of 4 ns in n µs and in n ms. -/
def usTicks (n : Nat) : Nat := n * 250
def msTicks (n : Nat) : Nat := n * 250000

/-- The time base of wall group g (R207). -/
def Dev.groupTb (d : Dev) (g : Nat) : Nat := d.rd SCN_CFG.time_base g

/-- The event time base's value now (R495). -/
def Dev.evNow (d : Dev) : Nat := d.tbNow (d.rd NET_EVT_TB.tb)

/-- One second in units of 2⁻¹⁶ ns. -/
def fuSec : Nat := 1000000000 * 65536

/-- The seconds, nanoseconds and fraction of a time value. -/
def tSeconds (t : Nat) : Nat := t / fuSec
def tNanos (t : Nat) : Nat := t % fuSec / 65536
def tFraction (t : Nat) : Nat := t % 65536

/-- A time field of control packets and records: three 32-bit words (07_tile_link.md). -/
def timeWords (t : Nat) : List Nat :=
  [tSeconds t / 2 ^ 32 % 65536 * 65536 + tFraction t, tSeconds t % 2 ^ 32, tNanos t]

/-- Write a time value into four registers of fraction, nanoseconds, seconds low and seconds high. -/
def Dev.wrTime (d : Dev) (f0 f1 f2 f3 : Fld) (t : Nat) (i : Nat := 0) : Dev :=
  (((d.wr f0 (tFraction t) i).wr f1 (tNanos t) i).wr f2 (tSeconds t % 2 ^ 32) i).wr f3 (tSeconds t / 2 ^ 32) i

/-- The line clock of wall group g now (R210, R211): its time base less the steps since the last line 0. -/
def Dev.lineClock (d : Dev) (g : Nat) : Int :=
  (d.tbNow (d.groupTb g) : Int) - (tget d.scn g ScnGroup.init).lcDiff

/-- Time passes until wall group g's line clock reaches t, where it is still ahead: the generator acts within 4 ns after
it (R212). -/
def Dev.waitLine (d : Dev) (g : Nat) (t : Int) : Dev :=
  let b := d.groupTb g
  let want := ((t + (tget d.scn g ScnGroup.init).lcDiff).toNat) * 2 ^ 32
  let have_ := (tget d.net.tbs b ⟨0, 0, 0, 0⟩).val
  let inc := d.tbInc b
  if want ≤ have_ ∨ inc = 0 then d else d.advance ((want - have_ + inc - 1) / inc)

/-! ### Sub-states -/

def Dev.ingG (d : Dev) (g : Nat) : IngGroup := tget d.ing g IngGroup.init
def Dev.setIng (d : Dev) (g : Nat) (x : IngGroup) : Dev := { d with ing := tput d.ing g x }
def Dev.scnG (d : Dev) (g : Nat) : ScnGroup := tget d.scn g ScnGroup.init
def Dev.setScn (d : Dev) (g : Nat) (x : ScnGroup) : Dev := { d with scn := tput d.scn g x }
def Dev.lnk (d : Dev) (n : Nat) : LinkState := tget d.link n LinkState.init
def Dev.setLnk (d : Dev) (n : Nat) (x : LinkState) : Dev := { d with link := tput d.link n x }
def Dev.ctl (d : Dev) (n : Nat) : PortCtl := tget d.tct n PortCtl.init
def Dev.setCtl (d : Dev) (n : Nat) (x : PortCtl) : Dev := { d with tct := tput d.tct n x }
def Dev.busS (d : Dev) (m : Nat) : BusState := tget d.bus m ⟨none, [], 0⟩
def Dev.setBus (d : Dev) (m : Nat) (x : BusState) : Dev := { d with bus := tput d.bus m x }
def Dev.fire (d : Dev) (n : Nat) : FscPort := tget d.fsc.ports n FscPort.init
def Dev.setFire (d : Dev) (n : Nat) (x : FscPort) : Dev := { d with fsc := { d.fsc with ports := tput d.fsc.ports n x } }
def Dev.core (d : Dev) (n : Nat) : StkCore := tget d.stk.cores n StkCore.init
def Dev.setCore (d : Dev) (n : Nat) (x : StkCore) : Dev := { d with stk := { d.stk with cores := tput d.stk.cores n x } }
def Dev.arbI (d : Dev) (i : Nat) : ArbInst := tget d.arb i ArbInst.init
def Dev.setArb (d : Dev) (i : Nat) (x : ArbInst) : Dev := { d with arb := tput d.arb i x }
def Dev.pchS (d : Dev) (p : Nat) : Pch := tget d.pch p Pch.init
def Dev.setPch (d : Dev) (p : Nat) (x : Pch) : Dev := { d with pch := tput d.pch p x }
def Dev.tb (d : Dev) (b : Nat) : TimeBase := tget d.net.tbs b ⟨0, 0, 0, 0⟩
def Dev.setTb (d : Dev) (b : Nat) (x : TimeBase) : Dev := { d with net := { d.net with tbs := tput d.net.tbs b x } }
def Dev.jobsOf (d : Dev) (r : Nat) : List Job := tget d.jobs.inflight r []
def Dev.setJobs (d : Dev) (r : Nat) (l : List Job) : Dev :=
  { d with jobs := { d.jobs with inflight := tput d.jobs.inflight r l } }

/-- Lift an effect on the device to the whole state: OTP, flash, HBM and the queue are untouched. -/
def onDev (s : State) (f : Dev → Dev) : State := { s with dev := f s.dev }

/-- The image's active ports of wall group g. -/
def Dev.groupPorts (d : Dev) (g : Nat) : List Nat :=
  d.img.geo.ports.filterMap (fun p => if p.2.group = g then some p.1 else none)

/-- The wall group of a port (0 when it has none). -/
def Dev.portGroup (d : Dev) (n : Nat) : Nat := ((d.img.port n).map (fun c => c.group)).getD 0

/-- Port states of TLK_PORT_STATE.state and TCT_PORT_STATE.pstate. -/
def Dev.linkUp (d : Dev) (n : Nat) : Bool := d.rd TLK_PORT_STATE.state n == 3
def Dev.lit (d : Dev) (n : Nat) : Bool := d.rd TCT_PORT_STATE.pstate n == 3

end Sys2Proof.Machine
end

