-- ==== Sys2Proof/Machine/RvDecode.lean ====
section
/-!
DEFINITION. The instruction formats of a stoker (11_stokers_rings.md R423: RV32IMAC with Zicsr and Zifencei). The manual names the set and
gives no encodings; they are those of the RISC-V unprivileged specification (PRESUMED, log entry 16).
-/
namespace Sys2Proof.Machine

/-- A decoded instruction. `f` is the funct3 field; `alt` marks SUB, SRA and SRAI; register fields are numbers 0 to 31. -/
inductive Rv where
  | lui (rd : Nat) (imm : Word)
  | auipc (rd : Nat) (imm : Word)
  | jal (rd : Nat) (off : Word)
  | jalr (rd rs1 : Nat) (off : Word)
  | branch (f rs1 rs2 : Nat) (off : Word)
  | load (f rd rs1 : Nat) (off : Word)
  | store (f rs1 rs2 : Nat) (off : Word)
  | opImm (f : Nat) (alt : Bool) (rd rs1 : Nat) (imm : Word)
  | op (f : Nat) (alt : Bool) (rd rs1 rs2 : Nat)
  | muldiv (f rd rs1 rs2 : Nat)
  | lr (rd rs1 : Nat)
  | sc (rd rs1 rs2 : Nat)
  | amo (f5 rd rs1 rs2 : Nat)
  | csr (f rd rs1 num : Nat)
  | fence
  | fenceI
  | ecall
  | ebreak
  | mret
  | wfi
  | illegal
  deriving DecidableEq, Repr

/-! ### Fields of 32-bit instructions -/

def rvRd (w : Nat) : Nat := bits w 11 7
def rvRs1 (w : Nat) : Nat := bits w 19 15
def rvRs2 (w : Nat) : Nat := bits w 24 20
def rvF3 (w : Nat) : Nat := bits w 14 12
def rvF7 (w : Nat) : Nat := bits w 31 25

/-- A w-bit number sign-extended to a word. -/
def sextW (w v : Nat) : Word := BitVec.ofInt 32 (toS w v)

def immI (w : Nat) : Word := sextW 12 (bits w 31 20)
def immS (w : Nat) : Word := sextW 12 (bits w 31 25 * 32 + bits w 11 7)
def immB (w : Nat) : Word := sextW 13 (bits w 31 31 * 4096 + bits w 7 7 * 2048 + bits w 30 25 * 32 + bits w 11 8 * 2)
def immU (w : Nat) : Word := BitVec.ofNat 32 (bits w 31 12 * 4096)
def immJ (w : Nat) : Word :=
  sextW 21 (bits w 31 31 * 2 ^ 20 + bits w 19 12 * 4096 + bits w 20 20 * 2048 + bits w 30 21 * 2)

/-! ### 32-bit instructions -/

def rvOpImm (w : Nat) : Rv :=
  let f := rvF3 w
  if f = 1 then (if rvF7 w = 0 then .opImm 1 false (rvRd w) (rvRs1 w) (BitVec.ofNat 32 (rvRs2 w)) else .illegal)
  else if f = 5 then
    (if rvF7 w = 0 then .opImm 5 false (rvRd w) (rvRs1 w) (BitVec.ofNat 32 (rvRs2 w))
     else if rvF7 w = 0x20 then .opImm 5 true (rvRd w) (rvRs1 w) (BitVec.ofNat 32 (rvRs2 w)) else .illegal)
  else .opImm f false (rvRd w) (rvRs1 w) (immI w)

def rvOp (w : Nat) : Rv :=
  let f := rvF3 w
  if rvF7 w = 0 then .op f false (rvRd w) (rvRs1 w) (rvRs2 w)
  else if rvF7 w = 0x20 ∧ (f = 0 ∨ f = 5) then .op f true (rvRd w) (rvRs1 w) (rvRs2 w)
  else if rvF7 w = 1 then .muldiv f (rvRd w) (rvRs1 w) (rvRs2 w)
  else .illegal

def rvAmo (w : Nat) : Rv :=
  let f5 := bits w 31 27
  if rvF3 w ≠ 2 then .illegal
  else if f5 = 2 then (if rvRs2 w = 0 then .lr (rvRd w) (rvRs1 w) else .illegal)
  else if f5 = 3 then .sc (rvRd w) (rvRs1 w) (rvRs2 w)
  else if f5 = 0 ∨ f5 = 1 ∨ f5 = 4 ∨ f5 = 8 ∨ f5 = 12 ∨ f5 = 16 ∨ f5 = 20 ∨ f5 = 24 ∨ f5 = 28 then
    .amo f5 (rvRd w) (rvRs1 w) (rvRs2 w)
  else .illegal

def rvSystem (w : Nat) : Rv :=
  let f := rvF3 w
  if f = 0 then
    (if rvRd w ≠ 0 ∨ rvRs1 w ≠ 0 then .illegal
     else match bits w 31 20 with
      | 0 => .ecall
      | 1 => .ebreak
      | 0x302 => .mret
      | 0x105 => .wfi
      | _ => .illegal)
  else if f = 4 then .illegal
  else .csr f (rvRd w) (rvRs1 w) (bits w 31 20)

/-- A 32-bit instruction word. -/
def rvDecode32 (w : Nat) : Rv :=
  let f := rvF3 w
  match w % 128 with
  | 0x37 => .lui (rvRd w) (immU w)
  | 0x17 => .auipc (rvRd w) (immU w)
  | 0x6F => .jal (rvRd w) (immJ w)
  | 0x67 => if f = 0 then .jalr (rvRd w) (rvRs1 w) (immI w) else .illegal
  | 0x63 => if f = 2 ∨ f = 3 then .illegal else .branch f (rvRs1 w) (rvRs2 w) (immB w)
  | 0x03 => if f = 3 ∨ 5 < f then .illegal else .load f (rvRd w) (rvRs1 w) (immI w)
  | 0x23 => if 2 < f then .illegal else .store f (rvRs1 w) (rvRs2 w) (immS w)
  | 0x13 => rvOpImm w
  | 0x33 => rvOp w
  | 0x0F => if f = 0 then .fence else if f = 1 then .fenceI else .illegal
  | 0x2F => rvAmo w
  | 0x73 => rvSystem w
  | _ => .illegal

/-! ### 16-bit instructions -/

/-- The registers x8 to x15 of a three-bit field. -/
def rvcReg (v : Nat) : Nat := 8 + v % 8

/-- The immediates of the C formats. -/
def rvcImm6 (h : Nat) : Word := sextW 6 (bits h 12 12 * 32 + bits h 6 2)
def rvcLwOff (h : Nat) : Word := BitVec.ofNat 32 (bits h 12 10 * 8 + bits h 6 6 * 4 + bits h 5 5 * 64)
def rvcJOff (h : Nat) : Word :=
  sextW 12 (bits h 12 12 * 2048 + bits h 11 11 * 16 + bits h 10 9 * 256 + bits h 8 8 * 1024 + bits h 7 7 * 64 + bits h 6 6 * 128 +
    bits h 5 3 * 2 + bits h 2 2 * 32)
def rvcBOff (h : Nat) : Word :=
  sextW 9 (bits h 12 12 * 256 + bits h 11 10 * 8 + bits h 6 5 * 64 + bits h 4 3 * 2 + bits h 2 2 * 32)

/-- Quadrant 0. -/
def rvcQ0 (h : Nat) : Rv :=
  match bits h 15 13 with
  | 0 =>
    let imm := bits h 12 11 * 16 + bits h 10 7 * 64 + bits h 6 6 * 4 + bits h 5 5 * 8
    if imm = 0 then .illegal else .opImm 0 false (rvcReg (bits h 4 2)) 2 (BitVec.ofNat 32 imm)
  | 2 => .load 2 (rvcReg (bits h 4 2)) (rvcReg (bits h 9 7)) (rvcLwOff h)
  | 6 => .store 2 (rvcReg (bits h 9 7)) (rvcReg (bits h 4 2)) (rvcLwOff h)
  | _ => .illegal

/-- The arithmetic group of quadrant 1. -/
def rvcArith (h : Nat) : Rv :=
  let r := rvcReg (bits h 9 7)
  let r2 := rvcReg (bits h 4 2)
  match bits h 11 10 with
  | 0 => if bit h 12 then .illegal else .opImm 5 false r r (BitVec.ofNat 32 (bits h 6 2))
  | 1 => if bit h 12 then .illegal else .opImm 5 true r r (BitVec.ofNat 32 (bits h 6 2))
  | 2 => .opImm 7 false r r (rvcImm6 h)
  | _ =>
    if bit h 12 then .illegal
    else match bits h 6 5 with
      | 0 => .op 0 true r r r2
      | 1 => .op 4 false r r r2
      | 2 => .op 6 false r r r2
      | _ => .op 7 false r r r2

/-- Quadrant 1. -/
def rvcQ1 (h : Nat) : Rv :=
  let rd := bits h 11 7
  match bits h 15 13 with
  | 0 => .opImm 0 false rd rd (rvcImm6 h)
  | 1 => .jal 1 (rvcJOff h)
  | 2 => .opImm 0 false rd 0 (rvcImm6 h)
  | 3 =>
    if bits h 12 12 = 0 ∧ bits h 6 2 = 0 then .illegal
    else if rd = 2 then
      .opImm 0 false 2 2 (sextW 10 (bits h 12 12 * 512 + bits h 6 6 * 16 + bits h 5 5 * 64 + bits h 4 3 * 128 + bits h 2 2 * 32))
    else .lui rd (sextW 18 (bits h 12 12 * 2 ^ 17 + bits h 6 2 * 4096))
  | 4 => rvcArith h
  | 5 => .jal 0 (rvcJOff h)
  | 6 => .branch 0 (rvcReg (bits h 9 7)) 0 (rvcBOff h)
  | _ => .branch 1 (rvcReg (bits h 9 7)) 0 (rvcBOff h)

/-- Quadrant 2. -/
def rvcQ2 (h : Nat) : Rv :=
  let rd := bits h 11 7
  let rs2 := bits h 6 2
  match bits h 15 13 with
  | 0 => if bit h 12 then .illegal else .opImm 1 false rd rd (BitVec.ofNat 32 rs2)
  | 2 =>
    if rd = 0 then .illegal
    else .load 2 rd 2 (BitVec.ofNat 32 (bits h 12 12 * 32 + bits h 6 4 * 4 + bits h 3 2 * 64))
  | 4 =>
    if bit h 12 then
      (if rs2 = 0 then (if rd = 0 then .ebreak else .jalr 1 rd 0) else .op 0 false rd rd rs2)
    else if rs2 = 0 then (if rd = 0 then .illegal else .jalr 0 rd 0)
    else .op 0 false rd 0 rs2
  | 6 => .store 2 2 rs2 (BitVec.ofNat 32 (bits h 12 9 * 4 + bits h 8 7 * 64))
  | _ => .illegal

/-- A 16-bit instruction. -/
def rvDecode16 (h : Nat) : Rv :=
  match h % 4 with
  | 0 => rvcQ0 h
  | 1 => rvcQ1 h
  | _ => rvcQ2 h

/-- The instruction's length in bytes from its first half-word. -/
def rvLength (h : Nat) : Nat := if h % 4 = 3 then 4 else 2

/-- The instruction of a word, or of a half-word where its two lowest bits are not 11. -/
def rvDecode (w : Nat) : Rv := if w % 4 = 3 then rvDecode32 w else rvDecode16 (w % 65536)

end Sys2Proof.Machine
end

