-- ==== Sys2Proof/Machine/CoreOps.lean ====
section
/-!
DEFINITION. A stoker's integer registers, how an instruction completes, and how a load from HBM completes when its data returns
(11_stokers_rings.md R423, R427).
-/
namespace Sys2Proof.Machine

/-- x0 reads 0 and discards what is written to it. -/
def StkCore.reg (c : StkCore) (r : Nat) : Word := if r = 0 then 0 else tget c.x r 0
def StkCore.setReg (c : StkCore) (r : Nat) (v : Word) : StkCore := if r = 0 then c else { c with x := tput c.x r v }

/-- The instruction completes: the next program counter, one more instruction retired. -/
def StkCore.retire (c : StkCore) (pc : Word) : StkCore := { c with pc := pc, instret := (c.instret + 1) % 2 ^ 64, stall := false }

/-- A loaded value extended to a word: funct3 0 and 1 are signed. -/
def rvExtend (f v : Nat) : Word := if f = 0 then sextW 8 v else if f = 1 then sextW 16 v else BitVec.ofNat 32 v

/-- R427: the data of HBM load `num` reaches stoker n, which goes on if that load is the one it waits for. -/
def Dev.loadReturned (d : Dev) (n num : Nat) (bs : List Byte) : Dev :=
  let c := d.core n
  match c.load with
  | some w =>
    if w.num = num then d.setCore n ((({ c with load := none } : StkCore).setReg w.rd (rvExtend w.funct (leNat bs))).retire w.next) else d
  | none => d

/-- What an HBM transaction's requester gets: the data of a read with its error flag, or a write's completion (R362, R363, R365); a
stoker's load completes. -/
def Dev.toRequester (d : Dev) (t : Txn) (err : Bool) (bs : List Byte) : Dev :=
  if t.write then d.emit (.hbmDone t.req t.addr)
  else
    let d1 := d.emit (.hbmData t.req t.addr err bs)
    match t.core with
    | some (n, num) => d1.loadReturned n num bs
    | none => d1

end Sys2Proof.Machine
end

