-- ==== Sys2Proof/Machine/Space.lean ====
section
/-!
DEFINITION. Control space (01_architecture.md R30 to R34, R597, R598): which register an address names, the clock
domain it lies in and whether that domain runs, which world an initiator has, and what a read without side effects shows.
-/
namespace Sys2Proof.Machine

/-! ### Addresses -/

/-- block_code of an address: bits [27:20] (R34). -/
def blockOf (a : Nat) : Nat := a / 2 ^ 20

/-- The register table of the block with this block_code (0x20 stands for the mailbox's part of BAR2). -/
def blockTable (b : Nat) : List RegEnt :=
  match b with
  | 0 => regTableGLB | 1 => regTableKIN | 2 => regTableING | 3 => regTableRAY | 4 => regTableCMP | 5 => regTableSCN
  | 6 => regTableTLK | 7 => regTableTCT | 8 => regTableMEM | 9 => regTableARB | 10 => regTableCDC | 11 => regTableTWD
  | 12 => regTableSTK | 13 => regTableNET | 14 => regTableSEC | 15 => regTableEVR | 16 => regTableKLN | 17 => regTableFSC
  | 32 => regTableMBX
  | _ => []

/-- The register an address names, with its indices. -/
def regAt (a : Nat) : Option (RegEnt × Nat × Nat) := lookupReg (blockTable (blockOf a)) a

/-- The address of instance [i][j] of a register. -/
def RegEnt.at_ (e : RegEnt) (i j : Nat) : Nat := e.addr + i * e.s1 + j * e.s2

/-! ### Clock domains (R597) and power (R567) -/

/-- The clock domains that registers lie in. -/
inductive Dom where
  | alwaysOn | loader | ingestDecode | fetchDecode | quarter (q : Nat) | drive (k : Nat) | fabric | timeBase (b : Nat)
  | portGroup (g : Nat) | mgmt | hbmCtl (s : Nat) | twoD | cluster (c : Nat) | ethPort (e : Nat) | stamps | security
  | recorder | kiln | pcie
  deriving DecidableEq, Repr

/-- R597: the domain of a register. -/
def domOf (d : Dev) (e : RegEnt) (i : Nat) : Dom :=
  let o := e.addr % 2 ^ 20
  match blockOf e.addr with
  | 0 => .alwaysOn
  | 1 => .loader
  | 2 => .ingestDecode
  | 3 => if o < 0x10000 then .fetchDecode else .quarter (i / 25)
  | 4 => if 0x2000 ≤ o then .drive (i / 48) else .drive 0
  | 5 => if o < 0x1000 then .fabric else .timeBase (d.groupTb i)
  | 6 => if o < 0x10000 then .fabric else .portGroup (i / 4)
  | 7 => .mgmt
  | 8 => if o < 0x10000 then .fabric else .hbmCtl (i / 32)
  | 9 => if o < 0x10000 then .fabric
    else if i < 64 then .hbmCtl (i / 32) else if i = 64 then .ingestDecode else if i = 65 then .twoD
    else if i < 70 then .cluster (i - 66) else .fabric
  | 10 => .ingestDecode
  | 11 => .twoD
  | 12 => if 0x10000 ≤ o ∧ o < 0x30000 then .cluster (i / 16) else .fabric
  | 13 => if o < 0x1000 then .fabric else if o < 0x2000 then .ethPort i else if o < 0x3000 then .fabric
    else if o < 0x4000 then .timeBase i else .stamps
  | 14 => .security
  | 15 => .recorder
  | 16 => .kiln
  | 17 => if o < 0x1000 then .drive 0 else .drive (i / 48)
  | _ => .security

/-- Whether a domain has power: the always-on domain and the management buses always, the others as GLB_PWR_STATUS and
GLB_PG_PWR show (R567). -/
def Dom.powered (d : Dev) : Dom → Bool
  | .alwaysOn | .mgmt => true
  | .quarter q => d.rdb GLB_PWR_STATUS.core && d.rdBit GLB_PWR_STATUS.quarters q
  | .portGroup g => d.rdb GLB_PWR_STATUS.core && d.rdBit GLB_PG_PWR.groups g
  | .hbmCtl _ => d.rdb GLB_PWR_STATUS.core && d.rdb GLB_PWR_STATUS.hbm
  | .ethPort _ => d.rdb GLB_PWR_STATUS.core && d.rdb GLB_PWR_STATUS.ethernet
  | .pcie => d.rdb GLB_PWR_STATUS.core && d.rdb GLB_PWR_STATUS.pcie
  | _ => d.rdb GLB_PWR_STATUS.core

/-- A block is held in reset: by the load (R73), by a block reset under way (R564), or by a device-level reset. While an image is
applied, HBM and its controllers, the time bases, the Ethernet ports and armed pulses run on (R90, R92, log entry 91). -/
def Dev.blockHeld (d : Dev) (b : Nat) : Bool :=
  (d.glb.held.testBit b && b != 8 && b != 13) || d.rdBit GLB_BLOCK_RESET.reset b || (d.glb.phase == .held && b != 0)

/-- The unit behind entry i of a register runs: its domain has power and its block is not in reset. -/
def Dev.unitOn (d : Dev) (e : RegEnt) (i : Nat) : Bool := (domOf d e i).powered d && ! d.blockHeld (blockOf e.addr)

/-- The register's domain has power and its block is not in reset (R30), and no load holds it (R73); a port in OFF behaves alike
(07_tile_link.md). -/
def Dev.regOn (d : Dev) (e : RegEnt) (i : Nat) : Bool :=
  d.unitOn e i && ! d.glb.held.testBit (blockOf e.addr) &&
  ! (blockOf e.addr == 6 && decide (0x10000 ≤ e.addr % 2 ^ 20) && d.rd TLK_PORT_STATE.state i == 0)

/-- The port's registers answer: its group is powered and no port reset runs (R565). -/
def Dev.portOn (d : Dev) (n : Nat) : Bool := d.rdBit GLB_PG_PWR.groups (n / 4)

/-! ### Worlds (R424, R499, R501, R505) -/

/-- Lifecycle states of SEC_STATUS.lifecycle. -/
def Dev.lifecycle (d : Dev) : Nat := d.rd SEC_STATUS.lifecycle

/-- R518: a mailbox session is open; in BLANK it always is. -/
def Dev.mbxOpen (d : Dev) : Bool := d.rdb SEC_STATUS.mbx_open || d.lifecycle == 0

/-- Whether the initiator's accesses are secure. -/
def Dev.secureOf (d : Dev) : Initiator → Bool
  | .stoker n => n == 0 && (d.core 0).machine
  | .posted n secure => n == 0 && secure
  | .bar0 => false
  | .mailbox => d.mbxOpen
  | .jtag => d.lifecycle < 2
  | .engine _ => true

/-- Whether the initiator reaches control space at all; an access from one that does not is blocked (R505, R519). -/
def Dev.reaches (d : Dev) : Initiator → Bool
  | .mailbox => d.mbxOpen
  | .jtag => d.lifecycle < 2 || (d.lifecycle == 2 && d.sec.debugOpen)
  | _ => true

/-- The initiator code of SEC_BLOCK_INFO (13_security.md) and of a recorder record's instance. -/
def initCode : Initiator → Nat
  | .stoker n => n % 64
  | .posted n _ => n % 64
  | .bar0 => 0x40
  | .mailbox => 0x41
  | .jtag => 0x60
  | .engine n => 0x70 + n

/-- The block is assigned to the secure world (R498, R499). -/
def Dev.blockSecure (d : Dev) (b : Nat) : Bool := d.rdBit SEC_WORLD.secure b

/-- Events whose world no image chooses: KIN, REGION_DENIED, STOKER_FAILED to RING_PARKED, SEC, REC_CLEARED and REC_MENDED. -/
def eventFixedSecure (n : Nat) : Bool :=
  (decide (32 ≤ n) && decide (n ≤ 39)) || n == 323 || (decide (448 ≤ n) && decide (n ≤ 450)) || (decide (512 ≤ n) && decide (n ≤ 516)) ||
  n == 546 || n == 547

/-- The assignable block that raises event n, if any (R498). -/
def eventBlock (n : Nat) : Option Nat :=
  if 64 ≤ n ∧ n < 96 then some 2 else if 96 ≤ n ∧ n < 128 then some 3 else if 128 ≤ n ∧ n < 160 then some 4
  else if 160 ≤ n ∧ n < 224 then some 5 else if 224 ≤ n ∧ n < 256 then some 6 else if 256 ≤ n ∧ n < 288 then some 7
  else if 384 ≤ n ∧ n < 416 then some 10 else if 416 ≤ n ∧ n < 448 then some 11 else if 480 ≤ n ∧ n < 512 then some 13
  else if 576 ≤ n ∧ n < 608 then some 16 else none

/-- GLB_EVT_ROUTE[n].secure (R35, R499). -/
def Dev.eventSecure (d : Dev) (n : Nat) : Bool :=
  eventFixedSecure n || (eventBlock n).any d.blockSecure || d.rdb GLB_EVT_ROUTE.secure n

/-- R8, R35, R394, R461, R499, R565: the register is one whose fields are all secure-only. -/
def Dev.regSecure (d : Dev) (e : RegEnt) (i : Nat) : Bool :=
  if blockOf e.addr = 12 ∧ 0x80000 ≤ e.addr % 2 ^ 20 ∧ d.rdb STK_RING_CFG.secure i then true
  else if blockOf e.addr = 12 ∧ 0x40000 ≤ e.addr % 2 ^ 20 ∧ e.addr % 2 ^ 20 < 0x80000 ∧ i ∈ d.img.rings.secureLocks then true
  else if e.addr = GLB_EVT_ROUTE.baseAddr then d.eventSecure i
  else if e.addr = GLB_PORT_RESET.baseAddr then d.blockSecure 6
  else if e.addr = ARB_REQ_CFG.baseAddr then true
  else e.allSecure || (d.blockSecure (blockOf e.addr) && 4 < e.addr % 2 ^ 20)

/-- R505: in SHOW and RETIRED, JTAG reads the device identity whatever else it reaches. -/
def Dev.jtagIdentity (d : Dev) (who : Initiator) (e : RegEnt) : Bool :=
  who == .jtag && (e.addr == SEC_DEVICE_ID_LO.baseAddr || e.addr == SEC_DEVICE_ID_HI.baseAddr) && decide (2 ≤ d.lifecycle)

/-- Ring i takes jobs to the export engine or its completions back (R545). -/
def Dev.exportRing (d : Dev) (i : Nat) : Bool := d.rd STK_RING_ENDS.consumer i == 0x54 || d.rd STK_RING_ENDS.producer i == 0x54

/-- R505: what a BAR2 session reaches in RETIRED: the OTP read-out, the recorder but for its clear, and the doorbells of export jobs. -/
def Dev.retiredReach (d : Dev) (e : RegEnt) (i : Nat) : Bool :=
  e.addr == SEC_OTP_RD_ADDR.baseAddr || e.addr == SEC_OTP_RD_DATA.baseAddr ||
  (blockOf e.addr == 15 && e.addr != EVR_CLEAR_CTRL.baseAddr) ||
  ((e.addr == STK_RING_PI.baseAddr || e.addr == STK_RING_CI.baseAddr) && d.exportRing i)

/-- R8: an access is blocked. The mailbox registers stay reachable (R519). -/
def Dev.blocked (d : Dev) (who : Initiator) (e : RegEnt) (i : Nat) : Bool :=
  if blockOf e.addr = 32 then false
  else (! d.reaches who && ! d.jtagIdentity who e) || (! d.secureOf who && d.regSecure e i) ||
    (who == .mailbox && d.lifecycle == 3 && ! d.retiredReach e i)

/-- The mailbox registers lie in BAR2 only (R517). -/
def Dev.absent (who : Initiator) (e : RegEnt) : Bool := blockOf e.addr == 32 && who != .mailbox

/-! ### Fields that are computed at each read -/

/-- The number of i < n with `p i`. -/
def countUp (n : Nat) (p : Nat → Bool) : Nat := forUp n (fun i a => if p i then a + 1 else a) 0

/-- The register at an address has power and runs. -/
def Dev.addrOn (d : Dev) (a : Nat) : Bool :=
  match regAt a with
  | some (e, i, _) => d.regOn e i
  | none => false

/-- The doorbell writes that wait at instance i for their grant (R441), in queue order by requester, and those that a full queue holds
back (R384). -/
def Dev.doorsAt (d : Dev) (i : Nat) : List Txn :=
  ((d.arbI i).queues.flatMap (fun q => q.2) ++ (d.arbI i).held.flatMap (fun q => q.2)).filter (fun t => t.door.isSome)

/-- The doorbell writes that wait at any instance. -/
def Dev.doorsWaiting (d : Dev) : List Txn := (List.range 5).flatMap (fun k => d.doorsAt (66 + k))

/-- A posted write to block b has not yet taken effect (R29), a doorbell write that waits for its grant among them; one to a register
whose domain is off counts no longer (R30). -/
def Dev.syncPending (d : Dev) (b : Nat) : Bool :=
  d.posted.any (fun p => blockOf p.addr == b && d.addrOn p.addr) ||
  d.doorsWaiting.any (fun t => blockOf t.addr == b && d.addrOn t.addr)

/-- Jobs of an engine in state RUNNING. -/
def Dev.runningJobs (d : Dev) (engine : Nat) : List Job :=
  (d.jobs.inflight.flatMap (fun p => p.2)).filter (fun j => j.engine == engine && j.state == 2 && ! j.finished)

/-- Jobs of an engine from fetch to completion (R419, R449), those that a reset has aborted apart. -/
def Dev.engineJobs (d : Dev) (engine : Nat) : List Job :=
  (d.jobs.inflight.flatMap (fun p => p.2)).filter (fun j => j.engine == engine && j.state != 4)

/-- Jobs of an engine in state WAITING. -/
def Dev.waitingJobs (d : Dev) (engine : Nat) : List Job :=
  (d.jobs.inflight.flatMap (fun p => p.2)).filter (fun j => j.engine == engine && j.state == 1)

/-- Jobs of an engine whose completion is held (R448). -/
def Dev.heldJobs (d : Dev) (engine : Nat) : List Job :=
  (d.jobs.inflight.flatMap (fun p => p.2)).filter (fun j => j.engine == engine && j.state == 3)

/-- Displayed power of every LIT port (R343). -/
def Dev.wallPower (d : Dev) : Nat :=
  d.img.activePorts.foldl (fun a n => if d.lit n then a + d.rd FSC_PORT_POWER.power n else a) 0

/-- The heartbeat's age in ms (R347): it counts while the timer runs and holds its value while it is suspended. -/
def Dev.hbAgeMs (d : Dev) : Nat :=
  if d.fsc.hbRun then min (d.msSince d.fsc.hbTick) 0xFFFF else d.fsc.hbAge

/-- A word of the recorder window: the peat-store word of the slot at the cursor (R539); an unwritten slot reads 0
(log entry 2). -/
def Dev.winWord (d : Dev) (w : Nat) : Nat := lget (tget d.peat.slots (d.rd EVR_CURSOR.slot) []) w 0

/-- R386: a request in requester r's pending queue at instance i belongs to a fetch stream in the bellows class; band fetch units only. -/
def Dev.bellowsPending (d : Dev) (i r : Nat) : Bool :=
  decide (r < 16) && (tget (d.arbI i).queues r []).any (fun t => match t.stream with
    | some k => tget d.ray.bellows k 0 == 1
    | none => false)

/-- R515: the nonce is unexpired and unused. -/
def Dev.nonceLive (d : Dev) : Bool := d.sec.nonceValid && decide (d.ticks < d.sec.nonceDrawn + msTicks 60000)

/-- R378: milliseconds since pseudo-channel p's last completed run. -/
def Dev.trainAge (d : Dev) (p : Nat) : Nat := ((d.pchS p).lastRun.map (fun t => min (d.msSince t) 0xFFFF)).getD 0

/-- Fields whose value follows from other state at the moment of the read; none for a field that its cell holds. -/
def viewOf (d : Dev) (f : Fld) (i j : Nat) : Option Nat :=
  if f.addr % 2 ^ 20 = 4 ∧ blockOf f.addr < 32 then some (b2n (d.syncPending (blockOf f.addr)))
  else match blockOf f.addr with
  | 0 => if f = GLB_SYNC_SUMMARY.pending then some (maskUp 18 d.syncPending)
    else if f = GLB_EVT_ROUTE.secure then some (b2n (d.eventSecure i))
    else none
  | 1 => if f = KIN_RELIGHT.elapsed_ms then
      (match d.kin.relight with | some r => some (d.msSince r.started % 2 ^ 24) | none => none)
    else none
  | 2 => let g := d.ingG i
    if f = ING_SLOT_STATUS.pending then some (maskUp 8 (fun s => (tfind g.pending s).isSome))
    else if f = ING_SLOT_STATUS.in_use then some (maskUp 8 (fun s => (tfind g.pending s).isSome ||
      g.scan.any (fun a => a.slot == s) || (! g.taken && g.source.any (fun a => a.slot == s))))
    else if f = ING_SLOT_STATUS.source_valid then some (b2n (g.source.isSome && ! g.taken))
    else if f = ING_SLOT_STATUS.source_slot then some ((g.source.map (fun a => a.slot)).getD 0)
    else if f = ING_SLOT_STATUS.scan_valid then some (b2n g.scan.isSome)
    else if f = ING_SLOT_STATUS.scan_slot then some ((g.scan.map (fun a => a.slot)).getD 0)
    else none
  | 3 => if f = RAY_SLICE_STATUS.spare then some (b2n (i % 25 == 24)) else none
  | 6 => if f = TLK_STATUS.ports_up then some (countUp 96 d.linkUp) else none
  | 7 => if f = TCT_STATUS.ports_lit then some (countUp 96 d.lit) else none
  | 8 => let p := d.pchS i
    if f = MEM_PCH_STATUS.in_flight then some (p.reads.length + p.writes.length)
    else if f = MEM_PCH_STATUS.wq_depth then some p.writes.length
    else if f = MEM_PCH_STATUS.cord then some (b2n p.cordLow.isSome)
    else if f = MEM_TRAIN_STATUS.age_ms then (if p.training then none else some (d.trainAge i))
    else if f = MEM_TRAIN_STATUS.cinder then some (b2n p.training)
    else none
  | 9 => let a := d.arbI i
    if f = ARB_INST_STATUS.busy then some (b2n a.holder.isSome)
    else if f = ARB_INST_STATUS.holder then some ((a.holder.map (fun t => t.req)).getD 0)
    else if f = ARB_INST_STATUS.waiting then some (a.queues.countP (fun q => ! q.2.isEmpty))
    else if f = ARB_REQ_STATE.pending then some (min (tget a.queues j []).length 16)
    else if f = ARB_REQ_STATE.bellows then some (b2n (d.bellowsPending i j))
    else none
  | 10 => if f = CDC_STATUS.running then some (d.runningJobs 0x50).length else none
  | 11 => if f = TWD_STATUS.running then some (d.runningJobs 0x51).length
    else if f = TWD_STATUS.waiting then some ((d.waitingJobs 0x51).countP (fun j => j.conflict))
    else if f = TWD_STATUS.held then some (d.engineJobs 0x51).length
    else none
  | 12 => let c := d.core i
    if f = STK_STATUS.failed then some (countUp 64 (fun s => (d.core s).run == 3))
    else if f = STK_STATUS.parked then some (countUp 4096 (fun r => d.rdb STK_RING_CFG.parked r))
    else if f = STK_FAILED.failed then some (maskUp 32 (fun s => (d.core (32 * i + s)).run == 3))
    else if f = STK_STOKER_STATUS.state then some (match c.run with | 0 => 0 | 1 => 1 | 2 => 3 | _ => 2)
    else if f = STK_STOKER_STATUS.user then some (b2n (! c.machine))
    else if f = STK_STOKER_STATUS.secure then some (b2n (i == 0 && c.machine && c.run != 0))
    else if f = STK_STOKER_STATUS.queue then some c.claim.length
    else if f = STK_LOCK_PEEK.state then some (d.rd STK_LOCK_ACQ.abandoned i * 2 ^ 29 + d.rd STK_LOCK_ACQ.last_owner i * 256 +
      d.rd STK_LOCK_ACQ.owner i)
    else if f = STK_STOKER_WDT.age_ms then some (if c.run = 1 ∨ c.run = 2 then min (d.msSince c.kicked) 0xFFFF else 0)
    else none
  | 13 => let t := d.tbNow i
    if f = NET_TB_TIME0.fraction then some (tFraction t)
    else if f = NET_TB_TIME1.nanoseconds then some (tNanos t)
    else if f = NET_TB_TIME2.seconds_lo then some (tSeconds t % 2 ^ 32)
    else if f = NET_TB_TIME3.seconds_hi then some (tSeconds t / 2 ^ 32 % 65536)
    else if f = NET_CAP_STATUS.fill then some (tget d.net.capFifo i []).length
    else if f = NET_CAP_STAMP0.valid then some (b2n (! (tget d.net.capFifo i []).isEmpty))
    else if f = NET_CAP_STAMP0.rising then some (match tget d.net.capFifo i [] with | [] => 0 | x :: _ => b2n x.2)
    else if f = NET_CAP_STAMP0.fraction then some (match tget d.net.capFifo i [] with | [] => 0 | x :: _ => tFraction x.1)
    else if f = NET_STATUS.genlocked then some (maskUp 4 (fun b => d.rd NET_TB_CTRL.discipline b == 2 && d.rd NET_TB_CTRL.state b == 2))
    else if f = NET_STATUS.link then some (maskUp 4 (fun e => d.rdb NET_ETH_STATUS.up e))
    else none
  | 14 =>
    if f = SEC_STATUS.mbx_open then some (b2n d.mbxOpen)
    else if f = SEC_STATUS.debug_open then some (b2n (d.reaches .jtag))
    else if f = SEC_NONCE_CTRL.valid then some (b2n d.nonceLive)
    else if f = SEC_TOKEN_STATUS.busy then some (b2n (d.sec.checking && ! d.sec.mbxCheck))
    else if f = SEC_TOKEN_STATUS.held then some (b2n d.sec.checked.isSome)
    else if f = SEC_TOKEN_STATUS.purpose then some ((d.sec.checked.map (fun t => t.purpose)).getD 0)
    else if f = SEC_OTP_STATUS.busy then some (b2n d.sec.otp.isSome)
    else none
  | 32 => if f = SEC_MBX_STATUS.open then some (b2n d.mbxOpen) else none
  | 15 => if f.addr = EVR_WIN.baseAddr then some (d.winWord i) else none
  | 17 => if f = FSC_STATUS.fading then some (b2n (d.img.activePorts.any (fun n => d.rd TCT_PORT_STATE.pstate n == 6)))
    else if f = FSC_STATUS.wall_limit then some (b2n (d.fsc.kWall.any (fun p => p.2 < 65536)))
    else if f = FSC_HB_AGE.age_ms then some d.hbAgeMs
    else if f = FSC_HB_AGE.expired then some (d.rd FSC_STATUS.hb_expired)
    else if f = FSC_WALL_POWER.power then some d.wallPower
    else none
  | _ => none

/-- FSC_PORT_FLASH of port n (R344 to R346): damped, direction, and reversals within the last 1,000 ms, by quarter. -/
def Dev.flashView (d : Dev) (n lo : Nat) : Nat :=
  let q := lget (d.fire n).det (lo / 8) FlashDet.init
  let g := ((d.img.port n).map (fun c => c.group)).getD 0
  if lo % 8 = 7 then b2n q.damped
  else if lo % 8 = 5 then q.dir
  else min 3 (q.stamps.countP (fun t => decide (d.lineClock g - t ≤ ((fuSec : Nat) : Int))))

/-- The value of a field as a read shows it. -/
def Dev.show (d : Dev) (f : Fld) (i j : Nat) : Nat :=
  if f.addr = FSC_PORT_FLASH.baseAddr then d.flashView i f.lo
  else match viewOf d f i j with
  | some v => v % 2 ^ f.w
  | none => d.rd f i j

/-- The word a register shows to a reader of the given world (R6, R9, R10). -/
def Dev.word (d : Dev) (sec : Bool) (e : RegEnt) (i j : Nat) : Nat :=
  e.fields.foldl (fun a f =>
    match f.acc with
    | .wo => a
    | _ => a + (if sec then d.show f.f i j else clearBits (d.show f.f i j) f.secMask) * 2 ^ f.f.lo) 0

/-- R537: a read by a path without side effects. -/
def Dev.peek (d : Dev) (a : Nat) : Nat :=
  match regAt a with
  | none => 0xDEAD0ADD
  | some (e, i, j) => if d.regOn e i then d.word true e i j else 0xDEAD0FF0

end Sys2Proof.Machine
end

