-- ==== Sys2Proof/Machine/Events.lean ====
section
/-!
DEFINITION. Events and what they cause (01_architecture.md R35 to R42): messages, stoker claim queues
(11_stokers_rings.md R428 to R430, R442), and recorder triggers with snapshots, repeats and loss
(14_recorder_kiln.md R533 to R544).
-/
namespace Sys2Proof.Machine

/-! ### Event numbers -/

/-- An event's status and enable fields, its instance in them, and its bit. -/
structure EvPos where
  st : Fld
  en : Fld
  inst : Nat
  bit : Nat
  deriving DecidableEq, Repr

/-- Where event n shows: the event tables of every chapter. -/
def evPos (n : Nat) : Option EvPos :=
  if n < 5 then some ⟨GLB_EVT_STATUS.status, GLB_EVT_ENABLE.enable, 0, n⟩
  else if 32 ≤ n ∧ n < 40 then some ⟨KIN_EVT_STATUS.status, KIN_EVT_ENABLE.enable, 0, n - 32⟩
  else if 64 ≤ n ∧ n < 74 then some ⟨ING_EVT_STATUS.status, ING_EVT_ENABLE.enable, 0, n - 64⟩
  else if 96 ≤ n ∧ n < 102 then some ⟨RAY_EVT_STATUS.status, RAY_EVT_ENABLE.enable, 0, n - 96⟩
  else if 128 ≤ n ∧ n < 133 then some ⟨CMP_EVT_STATUS.status, CMP_EVT_ENABLE.enable, 0, n - 128⟩
  else if 160 ≤ n ∧ n < 224 then
    (if (n - 160) % 16 < 11 then some ⟨SCN_EVT_STATUS.status, SCN_EVT_ENABLE.enable, (n - 160) / 16, (n - 160) % 16⟩
     else none)
  else if 224 ≤ n ∧ n < 234 then some ⟨TLK_EVT_STATUS.status, TLK_EVT_ENABLE.enable, 0, n - 224⟩
  else if 256 ≤ n ∧ n < 269 then some ⟨TCT_EVT_STATUS.status, TCT_EVT_ENABLE.enable, 0, n - 256⟩
  else if 288 ≤ n ∧ n < 297 then some ⟨FSC_EVT_STATUS.status, FSC_EVT_ENABLE.enable, 0, n - 288⟩
  else if 320 ≤ n ∧ n < 328 then some ⟨MEM_EVT_STATUS.status, MEM_EVT_ENABLE.enable, 0, n - 320⟩
  else if 352 ≤ n ∧ n < 355 then some ⟨ARB_EVT_STATUS.status, ARB_EVT_ENABLE.enable, 0, n - 352⟩
  else if 384 ≤ n ∧ n < 388 then some ⟨CDC_EVT_STATUS.status, CDC_EVT_ENABLE.enable, 0, n - 384⟩
  else if 416 ≤ n ∧ n < 419 then some ⟨TWD_EVT_STATUS.status, TWD_EVT_ENABLE.enable, 0, n - 416⟩
  else if 448 ≤ n ∧ n < 454 then some ⟨STK_EVT_STATUS.status, STK_EVT_ENABLE.enable, 0, n - 448⟩
  else if 480 ≤ n ∧ n < 491 then some ⟨NET_EVT_STATUS.status, NET_EVT_ENABLE.enable, 0, n - 480⟩
  else if 496 ≤ n ∧ n < 512 then some ⟨NET_Q_EVT_STATUS.status, NET_Q_EVT_ENABLE.enable, 0, n - 496⟩
  else if 512 ≤ n ∧ n < 517 then some ⟨SEC_EVT_STATUS.status, SEC_EVT_ENABLE.enable, 0, n - 512⟩
  else if 544 ≤ n ∧ n < 548 then some ⟨EVR_EVT_STATUS.status, EVR_EVT_ENABLE.enable, 0, n - 544⟩
  else if 576 ≤ n ∧ n < 582 then some ⟨KLN_EVT_STATUS.status, KLN_EVT_ENABLE.enable, 0, n - 576⟩
  else none

/-- The first event number of the block whose event status register lies at an address, and its instance's stride. -/
def evBase (a : Nat) : Option (Nat × Nat) :=
  if a = GLB_EVT_STATUS.baseAddr then some (0, 0) else if a = KIN_EVT_STATUS.baseAddr then some (32, 0)
  else if a = ING_EVT_STATUS.baseAddr then some (64, 0) else if a = RAY_EVT_STATUS.baseAddr then some (96, 0)
  else if a = CMP_EVT_STATUS.baseAddr then some (128, 0) else if a = SCN_EVT_STATUS.baseAddr then some (160, 16)
  else if a = TLK_EVT_STATUS.baseAddr then some (224, 0) else if a = TCT_EVT_STATUS.baseAddr then some (256, 0)
  else if a = FSC_EVT_STATUS.baseAddr then some (288, 0) else if a = MEM_EVT_STATUS.baseAddr then some (320, 0)
  else if a = ARB_EVT_STATUS.baseAddr then some (352, 0) else if a = CDC_EVT_STATUS.baseAddr then some (384, 0)
  else if a = TWD_EVT_STATUS.baseAddr then some (416, 0) else if a = STK_EVT_STATUS.baseAddr then some (448, 0)
  else if a = NET_EVT_STATUS.baseAddr then some (480, 0) else if a = NET_Q_EVT_STATUS.baseAddr then some (496, 0)
  else if a = SEC_EVT_STATUS.baseAddr then some (512, 0) else if a = EVR_EVT_STATUS.baseAddr then some (544, 0)
  else if a = KLN_EVT_STATUS.baseAddr then some (576, 0) else none

/-- The block_code of the block that raises event n. -/
def evBlock (n : Nat) : Nat :=
  match evPos n with
  | some p => blockOf p.st.addr
  | none => 0

/-- The wall group of an SCN event, else 0xFF (the record table's instance). -/
def evInstance (n : Nat) : Nat := if 160 ≤ n ∧ n < 224 then (n - 160) / 16 else 0xFF

/-- R495: the stamp of an event raised now. -/
def Dev.stampOf (d : Dev) (n : Nat) : Nat :=
  if 160 ≤ n ∧ n < 224 then d.tbNow (d.groupTb ((n - 160) / 16)) else d.evNow

/-! ### Claim queues (R428 to R430) -/

/-- An entry of a claim queue: bit 30 tells a ring from an event. -/
def ringEntry (r : Nat) : Nat := 2 ^ 30 + r

/-- R428, R429: an entry enters stoker s's claim queue, or is dropped with the overflow flag; a waiting stoker wakes. -/
def StkCore.pushClaim (c : StkCore) (e : Nat) : StkCore :=
  if c.claim.length < 64 then { c with claim := c.claim ++ [e], run := if c.run = 2 then 1 else c.run }
  else { c with overflow := true, run := if c.run = 2 then 1 else c.run }

/-- The stoker runs or waits for an interrupt: it is not held in reset. -/
def StkCore.alive (c : StkCore) : Bool := c.run == 1 || c.run == 2

/-- R36, R430: an event reaches a stoker; a secure one reaches stoker 0 alone, waits while it runs in user mode, and is delivered nowhere
while it is held in reset. -/
def Dev.claimEvent (d : Dev) (s n : Nat) (secure : Bool) : Dev :=
  let c := d.core s
  if secure then
    if s ≠ 0 ∨ c.alive = false then d
    else if c.machine then d.setCore 0 (c.pushClaim n)
    else d.setCore 0 { c with waiting := c.waiting ++ [n] }
  else d.setCore s (c.pushClaim n)

/-! ### Messages (R36, R38) -/

/-- The message of event n: none, IRQ_N (a level, `irqAsserted`), MSI-X or a stoker interrupt. -/
def Dev.message (d : Dev) (n : Nat) : Dev :=
  let secure := d.eventSecure n
  let dest := d.rd GLB_EVT_ROUTE.dest n
  match d.rd GLB_EVT_ROUTE.target n with
  | 2 => if secure then d else d.emit (.msix dest n (d.stampOf n))
  | 3 => d.claimEvent (dest % 64) n secure
  | _ => d

/-- R41, R36: IRQ_N is asserted. -/
def Dev.irqAsserted (d : Dev) : Bool :=
  (List.range 582).any (fun n =>
    match evPos n with
    | none => false
    | some p => d.rd GLB_EVT_ROUTE.target n == 1 && ! d.eventSecure n &&
        d.rdBit p.st p.bit p.inst && d.rdBit p.en p.bit p.inst)

/-! ### Recorder triggers (R533 to R544) -/

/-- The trigger class of event n (the RECORDER section; class 0 without it). -/
def Dev.recClass (d : Dev) (n : Nat) : Nat := leAt (d.img.body 0x0F 0) (0x10 + n) 1 % 16

/-- The snapshot registers of class c (R536). -/
def Dev.snapList (d : Dev) (c : Nat) : List Nat :=
  let b := d.img.body 0x0F 0
  (List.range (leAt b (0x1010 + 0x50 * c) 1 % 32)).map (fun k => leAt b (0x1020 + 0x50 * c + 4 * k) 4)

/-- A register's word at [0][0], read for a detail word. -/
def Dev.detailReg (d : Dev) (e : RegEnt) : Nat := d.word true e 0 0

/-- R535: the detail word of event n as it stands. -/
def Dev.detailOf (d : Dev) (n : Nat) : Nat :=
  if n = 512 then d.rd SEC_BLOCK_ADDR.addr
  else if n = 323 then d.rd MEM_DENY_ADDR_LO.addr_lo
  else match evBlock n with
  | 2 => d.detailReg ING_LAST_ERR.ent
  | 3 => d.detailReg RAY_LAST_FAULT.ent
  | 4 => d.detailReg CMP_MAP_LAST_ERR.ent
  | 6 => d.detailReg TLK_LAST_FAULT.ent
  | 7 => d.detailReg TCT_LAST_FAULT.ent
  | 10 => d.detailReg CDC_LAST_ERR.ent
  | 11 => d.detailReg TWD_LAST_ERR.ent
  | 12 => d.detailReg STK_LAST_FAULT.ent
  | _ => 0

/-- The newest record, whether written or still queued (R538). -/
def EvrState.latest (e : EvrState) : Option Rec :=
  match e.queue.getLast? with
  | some r => some r
  | none => e.newest

/-- A number is a power of two (R540). -/
def isPow2 (n : Nat) : Bool := n != 0 && n &&& (n - 1) == 0

/-- R47, R538: one more occurrence in a record's shadow. -/
def Rec.again (r : Rec) (stamp : Nat) : Rec :=
  { r with shRepeat := min (r.shRepeat + 1) 0xFFFFFFFF, shLast := stamp,
           repSat := r.repSat || decide (0xFFFFFFFF ≤ r.shRepeat + 1) }

/-- EVR_SHADOW.repeat: the count of the newest record, 0 with none. -/
def Dev.showShadow (d : Dev) : Dev := d.wr EVR_SHADOW.repeat ((d.evr.latest.map (fun r => r.shRepeat)).getD 0)

/-- R538: the newest record counts a repeat; a written one may come due for its rewrite (R540). -/
def Dev.repeatNewest (d : Dev) (stamp : Nat) : Dev :=
  (match d.evr.queue.getLast? with
    | some r => { d with evr := { d.evr with queue := d.evr.queue.dropLast ++ [r.again stamp] } }
    | none => match d.evr.newest with
      | some r => { d with evr := { d.evr with newest := some (r.again stamp),
                                               due := d.evr.due || isPow2 (r.again stamp).shRepeat } }
      | none => d).showShadow

/-- A fresh record. -/
def freshRec (event cls block inst detail stamp : Nat) (secure device : Bool) (snaps : List (Nat × Nat))
    (data : List Nat) : Rec :=
  { event := event, cls := cls, block := block, inst := inst, detail := detail, first := stamp, last := stamp, rept := 1,
    repSat := false, secure := secure, device := device, mended := false, snaps := snaps, data := data, seq := 0, gen := 0,
    shRepeat := 1, shLast := stamp }

/-- A record joins the queue. -/
def Dev.enqueueRec (d : Dev) (r : Rec) : Dev :=
  ({ d with evr := { d.evr with queue := d.evr.queue ++ [r] } } : Dev).wr EVR_SHADOW.repeat 1

/-- The queue of 64 entries has a place for a trigger: it holds the queued triggers and the device records beyond the 8 entries held for
them. -/
def EvrState.roomForTrigger (e : EvrState) : Bool :=
  decide (e.queue.countP (fun r => ! r.device) + (e.queue.countP (fun r => r.device) - 8) < 64)

/-- A trigger reaches the recorder (R533 to R544); its record is stamped on the event time base (R495). -/
def Dev.trigger (d : Dev) (n inst : Nat) : Dev :=
  let stamp := d.evNow
  let detail := d.detailOf n
  let block := evBlock n
  let rep : Bool := d.evr.latest.any (fun r => r.event == n && r.block == block && r.inst == inst && r.detail == detail)
  if rep then d.repeatNewest stamp
  else if d.rdb EVR_STATUS.full then d.count EVR_FULL_DROP_CNT.sat EVR_FULL_DROP_CNT.count
  else if d.evr.roomForTrigger = false then
    { d.count EVR_LOST_CNT.sat EVR_LOST_CNT.count with evr := { d.evr with lost := d.evr.lost + 1 } }
  else
    let c := d.recClass n
    let snaps := (d.snapList c).map (fun a => (a, d.peek a))
    d.enqueueRec (freshRec n c block inst detail stamp (d.eventSecure n) false snaps [])

/-- The record codes that are written even while the log is full (R544). -/
def otpRecord (code : Nat) : Bool := code == 552 || code == 513 || code == 514 || code == 553

/-- The log has a slot for a record of this code: a full one takes the OTP records alone, up to slot 65,535 (R530, R544; log entry 134). -/
def Dev.logTakes (d : Dev) (code : Nat) : Bool :=
  ! d.rdb EVR_STATUS.full || (otpRecord code && decide (d.rd EVR_STATUS.count < 65536))

/-- A device record (R525, R533, R534): written whatever GLB_EVT_ROUTE holds. Its block is the one whose event
numbers take in its code, and its secure flag that of the route register of its code (log entry 9). -/
def Dev.deviceRec (d : Dev) (code detail : Nat) (data : List Nat) : Dev :=
  if d.logTakes code = false then d.count EVR_FULL_DROP_CNT.sat EVR_FULL_DROP_CNT.count
  else if 72 ≤ d.evr.queue.length then
    { d.count EVR_LOST_CNT.sat EVR_LOST_CNT.count with evr := { d.evr with lost := d.evr.lost + 1 } }
  else d.enqueueRec (freshRec code (d.recClass code) (if code < 544 then 14 else 15) 0xFF detail d.evNow
    (d.eventSecure code) true [] data)

/-! ### Raising an event -/

/-- Event n occurs: its status bit is set, a message leaves when the bit was 0 and the event is enabled (R38, R39), and
a trigger reaches the recorder when the route says so or `force` holds (R533). -/
def Dev.raiseAt (d : Dev) (n inst : Nat) (force : Bool := false) : Dev :=
  match evPos n with
  | none => d
  | some p =>
    let was := d.rdBit p.st p.bit p.inst
    let d1 := d.wrBit p.st p.bit true p.inst
    let d2 := if ! was && d.rdBit p.en p.bit p.inst then d1.message n else d1
    if force || d.rdb GLB_EVT_ROUTE.toRec n then d2.trigger n inst else d2

/-- Event n occurs, with the instance the record table gives it. -/
def Dev.raise (d : Dev) (n : Nat) (force : Bool := false) : Dev := d.raiseAt n (evInstance n) force

/-- R38: events newly enabled whose status is already 1 send one message each; `old` and `new` are the enable masks. -/
def Dev.enableMessages (d : Dev) (base inst : Nat) (st : Fld) (old new : Nat) : Dev :=
  forUp st.w (fun k d => if new.testBit k && ! old.testBit k && d.rdBit st k inst then d.message (base + k) else d) d

/-! ### Blocked accesses (R8, R502, R503) -/

/-- A blocked access is recorded, counted and raised, and leaves its record whatever the route holds. -/
def Dev.secBlocked (d : Dev) (who : Initiator) (a : Nat) (write : Bool) : Dev :=
  ((((d.wr SEC_BLOCK_ADDR.addr a).wr SEC_BLOCK_INFO.initiator (initCode who)).wrb SEC_BLOCK_INFO.write write).count
    SEC_BLOCK_CNT.sat SEC_BLOCK_CNT.count).raiseAt 512 (initCode who) true

end Sys2Proof.Machine
end

