-- ==== Sys2Proof/Machine/Access.lean ====
section
/-!
DEFINITION. The fabric's decision on a control-space access (01_architecture.md R30, R31, R598; 00_scope.md R8): one
guard that every read and write row with a register of its own goes through.
-/
namespace Sys2Proof.Machine

/-- The outcome of a write's decision (R598). -/
inductive WriteCase where
  | unmapped | blocked | off | done
  deriving DecidableEq, Repr

/-- R598 for a write to instance [i][j] of register e. -/
def Dev.writeCase (d : Dev) (who : Initiator) (e : RegEnt) (i j : Nat) : WriteCase :=
  if e.n1 ≤ i ∨ e.n2 ≤ j ∨ Dev.absent who e = true then .unmapped
  else if d.blocked who e i then .blocked
  else if d.regOn e i then .done
  else .off

/-- A write's decision and, where it takes effect, its effect: an unmapped one sets GLB_ERR_STATUS.unmapped (R31), a
blocked one is reported (R503), one to a domain that is off is dropped (R30). -/
def Dev.gate (d : Dev) (who : Initiator) (e : RegEnt) (i j : Nat) (f : Dev → Dev) : Dev :=
  match d.writeCase who e i j with
  | .unmapped => d.wr GLB_ERR_STATUS.unmapped 1
  | .blocked => d.secBlocked who (e.at_ i j) true
  | .off => d
  | .done => f d

/-- The same for an effect that reaches past the device part of the state. -/
def gateS (s : State) (who : Initiator) (e : RegEnt) (i j : Nat) (f : State → State) : State :=
  match s.dev.writeCase who e i j with
  | .unmapped => onDev s (fun d => d.wr GLB_ERR_STATUS.unmapped 1)
  | .blocked => onDev s (fun d => d.secBlocked who (e.at_ i j) true)
  | .off => s
  | .done => f s

/-! ### Wide fields (R48) -/

/-- The key of an initiator's latch of a register word, and the latched word. -/
def latchKey (who : Initiator) (a : Nat) : Nat := initCode who * 2 ^ 28 + a
def Dev.setLatch (d : Dev) (who : Initiator) (a v : Nat) : Dev := { d with latch := tput d.latch (latchKey who a) v }
def Dev.getLatch (d : Dev) (who : Initiator) (a : Nat) : Nat := tget d.latch (latchKey who a) 0

/-- The words that a read of the word at a register's base address latches: each a register and its second index. -/
def wideHigher (base : Nat) : List (RegEnt × Nat) :=
  if base = SCN_GRID_LO.baseAddr then [(SCN_GRID_HI.ent, 0)]
  else if base = SCN_LINE0_TIME0.baseAddr then [(SCN_LINE0_TIME1.ent, 0), (SCN_LINE0_TIME2.ent, 0), (SCN_LINE0_TIME3.ent, 0)]
  else if base = SCN_SWAP_TIME0.baseAddr then [(SCN_SWAP_TIME1.ent, 0), (SCN_SWAP_TIME2.ent, 0), (SCN_SWAP_TIME3.ent, 0)]
  else if base = SCN_HOLD_MASK.baseAddr then [(SCN_HOLD_MASK.ent, 1), (SCN_HOLD_MASK.ent, 2), (SCN_DONE_FRAME.ent, 0)]
  else if base = SCN_UNDERRUN_MASK.baseAddr then [(SCN_UNDERRUN_MASK.ent, 1), (SCN_UNDERRUN_MASK.ent, 2)]
  else if base = TLK_TILE_SERIAL_LO.baseAddr then [(TLK_TILE_SERIAL_HI.ent, 0)]
  else if base = TCT_PORT_SERIAL_LO.baseAddr then [(TCT_PORT_SERIAL_HI.ent, 0)]
  else if base = MEM_DENY_ADDR_LO.baseAddr then [(MEM_DENY_ADDR_HI.ent, 0), (MEM_DENY_INFO.ent, 0)]
  else if base = NET_TB_TIME0.baseAddr then [(NET_TB_TIME1.ent, 0), (NET_TB_TIME2.ent, 0), (NET_TB_TIME3.ent, 0)]
  else if base = SEC_DEVICE_ID_LO.baseAddr then [(SEC_DEVICE_ID_HI.ent, 0)]
  else []

/-- The registers of which every word is a higher word, read from the reader's latch. -/
def wideWords : List Nat :=
  [SCN_GRID_HI.baseAddr, SCN_LINE0_TIME1.baseAddr, SCN_LINE0_TIME2.baseAddr, SCN_LINE0_TIME3.baseAddr, SCN_SWAP_TIME1.baseAddr,
   SCN_SWAP_TIME2.baseAddr, SCN_SWAP_TIME3.baseAddr, SCN_DONE_FRAME.baseAddr, TLK_TILE_SERIAL_HI.baseAddr, TCT_PORT_SERIAL_HI.baseAddr,
   MEM_DENY_ADDR_HI.baseAddr, MEM_DENY_INFO.baseAddr, NET_TB_TIME1.baseAddr, NET_TB_TIME2.baseAddr, NET_TB_TIME3.baseAddr] ++
  [NET_CAP_STAMP1.baseAddr, NET_CAP_STAMP2.baseAddr, NET_CAP_STAMP3.baseAddr, SEC_DEVICE_ID_HI.baseAddr]

/-- Instance [.][j] of register e is a higher word. -/
def isHigher (e : RegEnt) (j : Nat) : Bool :=
  wideWords.contains e.addr || (decide (0 < j) && (e.addr == SCN_HOLD_MASK.baseAddr || e.addr == SCN_UNDERRUN_MASK.baseAddr))

/-- A read of instance [i][j] of e latches the words above it for this reader. -/
def Dev.takeLatch (d : Dev) (who : Initiator) (e : RegEnt) (i j : Nat) : Dev :=
  if j = 0 then
    forEach (wideHigher e.addr) (fun x d => d.setLatch who (x.1.at_ i x.2) (d.word (d.secureOf who) x.1 i x.2)) d
  else d

/-- The word a reader gets from instance [i][j] of e. -/
def Dev.readWord (d : Dev) (who : Initiator) (e : RegEnt) (i j : Nat) : Nat :=
  if isHigher e j then d.getLatch who (e.at_ i j) else d.word (d.secureOf who) e i j

/-- The latches of block b's words are lost: no read of a lowest word has been made since its reset. -/
def Dev.dropLatches (d : Dev) (b : Nat) : Dev := { d with latch := d.latch.filter (fun x => x.1 % 2 ^ 28 / 2 ^ 20 != b) }

/-! ### Reads -/

/-- A read's decision (R598) and its data; `pre` and `post` are its side effects, where it takes place, before and after
the data is taken. -/
def Dev.accessRead (d : Dev) (who : Initiator) (e : RegEnt) (i j : Nat) (pre post : Dev → Dev) : Dev × Nat :=
  match d.writeCase who e i j with
  | .unmapped => (d.wr GLB_ERR_STATUS.unmapped 1, 0xDEAD0ADD)
  | .blocked => (d.secBlocked who (e.at_ i j) false, 0x0BADF00D)
  | .off => (d.wr GLB_ERR_STATUS.domain_off 1, 0xDEAD0FF0)
  | .done => (post ((pre d).takeLatch who e i j), (pre d).readWord who e i j)

/-- A step's answer. -/
abbrev Res := Host.Outcome State Fault Refusal

/-- A meaning that changes the device part alone. -/
def nextDev (s : State) (f : Dev → Dev) : Res := .next (onDev s f)

end Sys2Proof.Machine
end

