-- ==== Sys2Proof/Machine/Line.lean ====
section
/-!
DEFINITION. The frame grid and where a wall group stands on it (06_scan_timing.md R209 to R216, R232 to R234), and the
spans in which the kiln and HBM training may act (14_recorder_kiln.md R552, 09_memory_arbitration.md R376).
-/
namespace Sys2Proof.Machine

/-- R209 at line index n = k × N_total + l, in units of 2⁻¹⁶ ns: `phase` in ns. The lines before a target k = 0 have negative indices. -/
def gridAt (phase : Int) (fNum fDen nTotal : Nat) (n : Int) : Int :=
  let den := fNum * nTotal
  phase * 65536 + divFloor (n * (fDen * fuSec : Nat) + (den / 2 : Nat)) den

/-- The mode and lines in force of wall group g. -/
def Dev.nTotal (d : Dev) (g : Nat) : Nat := d.rd SCN_MODE_LINES.n_total g
def Dev.nActive (d : Dev) (g : Nat) : Nat := d.rd SCN_MODE_LINES.n_active g
def Dev.lGuard (d : Dev) (g : Nat) : Nat := d.rd SCN_MODE_MARKS.guard g
def Dev.lDeadline (d : Dev) (g : Nat) : Nat := d.rd SCN_MODE_MARKS.deadline g
def Dev.lSwap (d : Dev) (g : Nat) : Nat := d.rd SCN_MODE_SWAP.swap g
def Dev.curLine (d : Dev) (g : Nat) : Nat := d.rd SCN_LINE.line g
def Dev.inExtension (d : Dev) (g : Nat) : Bool := d.rdb SCN_LINE.extension g
/-- R216: the group has admitted a frame. -/
def Dev.started (d : Dev) (g : Nat) : Bool := d.rdb SCN_CFG.started g

/-- t(k, l) of wall group g in its mode and phase in force. -/
def Dev.tkl (d : Dev) (g k l : Nat) : Int :=
  gridAt (toS 32 (d.rd SCN_PHASE_ACTIVE.phase g)) (d.rd SCN_MODE_RATE.f_num g) (d.rd SCN_MODE_RATE.f_den g) (d.nTotal g)
    (k * d.nTotal g + l)

/-- Mode m of wall group g in the image. -/
def Dev.modeCfg (d : Dev) (g m : Nat) : TimingMode :=
  ((d.img.group g).bind (fun c => c.modes[m]?)).getD ⟨1, 1, 16, 1, 0, 2, 3, 0⟩

/-- The instant at which wall group g's extension ends: 9 new line periods before its target (R233). -/
def Dev.extensionEnd (d : Dev) (g : Nat) : Int :=
  let x := d.scnG g
  let m := d.modeCfg g x.nextMode
  gridAt (toS 32 x.nextPhase) m.fNum m.fDen m.nTotal (x.nextK * m.nTotal - 9)

/-! ### Where lines start (R209, R212, R232, R233) -/

/-- N_total of the lines being counted: the coming mode's in the lines after an alignment check. -/
def Dev.lineTotal (d : Dev) (g : Nat) : Nat :=
  if (d.scnG g).tail then (d.modeCfg g (d.scnG g).nextMode).nTotal else d.nTotal g

/-- The coming frame's line index i (of grid frame 0) on its own grid, on the time base. -/
def Dev.nextGrid (d : Dev) (g : Nat) (i : Int) : Int :=
  let x := d.scnG g
  let m := d.modeCfg g x.nextMode
  gridAt (toS 32 x.nextPhase) m.fNum m.fDen m.nTotal i

/-- The line clock's value at the start of line l of the frame in progress. -/
def Dev.lineStart (d : Dev) (g l : Nat) : Int :=
  let x := d.scnG g
  if x.tail then d.nextGrid g (x.nextK * d.lineTotal g + l - d.lineTotal g) + x.shift else d.tkl g x.k l

/-- The line clock's value at the next line 0. -/
def Dev.nextLine0 (d : Dev) (g : Nat) : Int := d.nextGrid g ((d.scnG g).nextK * d.lineTotal g) + (d.scnG g).shift

/-- The mode whose lines are being counted: the coming one's after an alignment check. -/
def Dev.lineMode (d : Dev) (g : Nat) : TimingMode :=
  d.modeCfg g (if (d.scnG g).tail then (d.scnG g).nextMode else d.rd SCN_MODE.active_mode g)

/-- R237: the idle span of a mode lasts at least 20 µs. -/
def idleRoom (m : TimingMode) : Bool :=
  decide (20000 * 65536 * (m.fNum * m.nTotal) ≤ (m.nTotal - 2 - m.swap) * m.fDen * fuSec)

/-- R237, R271: how long from now group g's lanes enter idle in the frame in progress, in units of 2⁻¹⁶ ns: at the start of line L_swap + 1 of
the lines being counted, which an extension may precede. -/
def Dev.idleAhead (d : Dev) (g : Nat) : Option Int :=
  let m := d.lineMode g
  let line := if d.inExtension g then d.lineTotal g - 10 else d.curLine g
  if d.rdb SCN_IDLE_CFG.enable g && ! d.rdb SCN_IDLE_CFG.idle g && idleRoom m && (d.scnG g).begun && ! d.glb.smoulderEntry &&
      decide (line < m.swap + 1) then some (d.lineStart g (m.swap + 1) - d.lineClock g)
  else none

/-- n nanoseconds in units of 2⁻¹⁶ ns. -/
def fuNs (n : Nat) : Int := ((n * 65536 : Nat) : Int)

/-- The group's line lies from line a on to before line b, and more than `margin` ns remain before line b. -/
def Dev.lineSpan (d : Dev) (g a b margin : Nat) : Bool :=
  ! d.inExtension g && decide (a ≤ d.curLine g) && decide (d.curLine g < b) &&
  decide (fuNs margin ≤ d.tkl g (d.scnG g).k b - d.lineClock g)

/-- The group is in an extension that lasts at least 10 µs more. -/
def Dev.extensionSpan (d : Dev) (g margin : Nat) : Bool :=
  d.inExtension g && decide (fuNs (10000 + margin) ≤ d.extensionEnd g - (d.tbNow (d.groupTb g) : Int))

/-- The wall groups that have started. -/
def Dev.startedGroups (d : Dev) : List Nat := (List.range 4).filter d.started

/-- R552: port n is in a kiln boundary. -/
def Dev.portBoundary (d : Dev) (n : Nat) : Bool :=
  match d.img.port n with
  | none => true
  | some c =>
    ! d.linkUp n || ! d.started c.group || d.lineSpan c.group (d.lSwap c.group + 1) (d.nTotal c.group - 10) 0 ||
    d.extensionSpan c.group 0

/-- R552: a port group is in a boundary while all its ports are. -/
def Dev.portGroupBoundary (d : Dev) (pg : Nat) : Bool := (List.range 4).all (fun i => d.portBoundary (4 * pg + i))

/-- R376: a training window in which a run of 1.6 µs can end. -/
def Dev.trainingWindow (d : Dev) : Bool :=
  let l := d.startedGroups
  l.isEmpty || l.all (fun g => d.lineSpan g (d.nActive g) (d.nTotal g - 10) 1600) || l.all (fun g => d.extensionSpan g 1600)

/-- R377: every run that is due has met a training window. -/
def Dev.noteWindow (d : Dev) : Dev :=
  if d.pch.any (fun x => x.2.dueSince.isSome) && d.trainingWindow then
    { d with pch := d.pch.map (fun x => (x.1, if x.2.dueSince.isSome then { x.2 with seen := true } else x.2)) }
  else d

end Sys2Proof.Machine
end

