-- ==== Sys2Proof/Machine/Parse.lean ====
section
/-!
DEFINITION. What the sections of a kindling image whose layout the manual does not give stand for (log entry 3): constants with no
body, as in Config. Every claim holds whatever they answer; none where a section's values are out of range (R55).
-/
namespace Sys2Proof.Config

/-- SECURE (section 0x0001): worlds, region descriptors, heartbeat period, sup_reset. -/
opaque secureSection : List Byte → Machine.SecureCfg

/-- CLOCK_POWER (0x0002): frequencies, lane rates, powered domains. -/
opaque clockSection : List Byte → Machine.ClockCfg

/-- GEOMETRY (0x0003) and SLICE_MAP (0x0004). -/
opaque geometrySections : List Byte → List Byte → Machine.Geometry

/-- MEMORY (0x0005). -/
opaque memorySection : List Byte → Machine.MemoryCfg

/-- NETWORK (0x0010). -/
opaque networkSection : List Byte → Machine.NetworkCfg

/-- ARBITER (0x000C): the instances in order. -/
opaque arbiterSection : List Byte → List Machine.ArbCfg

/-- RINGS (0x000D). -/
opaque ringsSection : List Byte → Machine.RingsCfg

/-- STOKER_FW (0x000E): each stoker's local memory image and watchdog period. -/
opaque firmwareSection : List Byte → List (Nat × Machine.FwCfg)

/-- The header of SCHEDULES (0x0007): the offsets of its view, correction, schedule and stream tables. -/
opaque schedulesHeader : List Byte → List Nat

/-- UNIFORMITY (0x000A): the maps it holds by port; empty where it declares live delivery (R59). -/
opaque uniformityMaps : List Byte → List (Nat × List Byte)

/-- The initial event routes and the command damper of an image (R35, R420): the manual names no section for them. -/
opaque eventRoutes : List (List Byte) → List (Nat × Machine.RouteCfg)
opaque commandDamper : List (List Byte) → Nat

/-- Whether the signature of the supervisor's own image in STOKER_FW holds (R58). -/
opaque supervisorSigned : List Byte → Bool

/-- R55, R338 and the chapters' own range checks on the sections the manual gives no layout for: section_id and body. -/
opaque sectionInRange : Nat → List Byte → Bool

/-- The postponement limit of JESD238 for a bank's refresh (R372), in refreshes. -/
opaque refreshLimit : Nat

/-- The interval of JESD238 between the refreshes of one bank at the normal and at the raised rate (R371), in 4 ns ticks. -/
opaque refreshInterval : Bool → Nat

/-- What a device-level reset ordered by a plain register write meets, and the ports with a packet under way at a block or port reset
ordered so, one fresh answer for each counter value (log entry 14). -/
opaque resetCircs : Nat → BootCircs
opaque inPacket : Nat → List Nat

end Sys2Proof.Config
end

