-- ==== Sys2Proof/Machine/Hbm.lean ====
section
/-!
DEFINITION. HBM contents and access (09_memory_arbitration.md R353 to R365, R381): address hashing and remap, the
region descriptors, and reads and writes by a requester. Bytes are the contents in grant order: what a read granted now returns.
-/
namespace Sys2Proof.Machine

/-! ### Contents -/

/-- The byte an address holds; an unlisted address reads 0 (log entry 2). -/
def hbmGet : List Host.Cell → Nat → Byte
  | [], _ => 0
  | (a', b) :: m, a => if a' = a then b else hbmGet m a

/-- Store a byte, keeping the canonical form: addresses rise and no listed byte is 0. -/
def hbmPut : List Host.Cell → Nat → Byte → List Host.Cell
  | [], a, b => if b = 0 then [] else [(a, b)]
  | (a', b') :: m, a, b =>
    if a = a' then (if b = 0 then m else (a, b) :: m)
    else if a < a' then (if b = 0 then (a', b') :: m else (a, b) :: (a', b') :: m)
    else (a', b') :: hbmPut m a b

/-- Store bytes from an address upward. -/
def hbmPutBytes : List Host.Cell → Nat → List Byte → List Host.Cell
  | m, _, [] => m
  | m, a, b :: bs => hbmPutBytes (hbmPut m a b) (a + 1) bs

/-- n bytes from an address upward. -/
def hbmGetBytes (m : List Host.Cell) (a n : Nat) : List Byte := (List.range n).map (fun i => hbmGet m (a + i))

/-- Every listed address from `lo` on rises strictly and no listed byte is 0. -/
def Memory.wfFrom : Nat → List Host.Cell → Bool
  | _, [] => true
  | lo, (a, b) :: m => decide (lo ≤ a) && (b != 0) && Memory.wfFrom (a + 1) m

/-- The canonical form of HBM contents. -/
def Memory.wf (m : List Host.Cell) : Bool := Memory.wfFrom 0 m

/-! ### Regions (R359 to R362) -/

/-- Word w of region descriptor r. -/
def Dev.regionWord (d : Dev) (r w : Nat) : Nat := d.rd SEC_REGION.descriptor r w

/-- The valid descriptor that holds HBM address a. -/
def Dev.regionOf (d : Dev) (a : Nat) : Option Nat :=
  (List.range 256).find? (fun r => bit (d.regionWord r 2) 31 && decide (d.regionWord r 0 % 2 ^ 20 ≤ a / 65536) &&
    decide (a / 65536 ≤ d.regionWord r 1 % 2 ^ 20))

/-- The requester kind bit of a requester number: 4 data path, 5 engines, 6 stokers, 7 host (log entry 7). -/
def reqKind (req : Nat) : Nat :=
  if req < 20 ∨ req = 23 then 4 else if 24 ≤ req ∧ req < 28 then 6 else if req = 28 then 7 else 5

/-- R360: a transaction of this requester at address a (its bytes lie in one block) is admitted. -/
def Dev.admits (d : Dev) (req : Nat) (secure write : Bool) (a : Nat) : Bool :=
  match d.regionOf a with
  | none => false
  | some r =>
    let w := d.regionWord r 2
    bit w (reqKind req) && bit w (if write then 1 else 0) && (secure || ! bit w 30)

/-- R362: a denial is recorded, counted and raised, with a recorder record whatever the route holds. -/
def Dev.deny (d : Dev) (req : Nat) (secure write : Bool) (a : Nat) : Dev :=
  (((((((d.wr MEM_DENY_ADDR_LO.addr_lo (a % 2 ^ 32)).wr MEM_DENY_ADDR_HI.addr_hi (a / 2 ^ 32)).wrb MEM_DENY_INFO.secure
    secure).wrb MEM_DENY_INFO.write write).wr MEM_DENY_INFO.requester req).count MEM_DENY_CNT.sat MEM_DENY_CNT.count).raise
    323 true)

/-! ### Address decode (R354, R357) -/

/-- Hashed bit b of address a in class c. -/
def Dev.hashBit (d : Dev) (c b a : Nat) : Bool :=
  forUp 17 (fun k h => if (d.rd MEM_HASH.sel c b).testBit k && a.testBit (19 + k) then ! h else h) (a.testBit (8 + b))

/-- The logical pseudo-channel of address a in class c. -/
def Dev.logicalPch (d : Dev) (c a : Nat) : Nat := maskUp 6 (fun b => d.hashBit c b a)

/-- R354: the bank of address a in class c, as stack ID, bank and bank group, 0 to 31. -/
def Dev.bankOf (d : Dev) (c a : Nat) : Nat := maskUp 5 (fun b => d.hashBit c (6 + b) a)

/-- R354: the column of address a, 32 bytes each. -/
def dramCol (a : Nat) : Nat := a / 2 ^ 19 % 4 * 8 + a / 32 % 8

/-- The hash class of the region that holds a (class 0 outside every region). -/
def Dev.classOf (d : Dev) (a : Nat) : Nat :=
  match d.regionOf a with
  | some r => bits (d.regionWord r 2) 11 8
  | none => 0

/-- R357: the physical pseudo-channel that address a reaches. -/
def Dev.physPch (d : Dev) (a : Nat) : Nat := d.rd MEM_PCH_REMAP.physical (d.logicalPch (d.classOf a) a)

/-- R354, R357: the row of its bank that address a reaches: one of the upper half where the remap entry has an offset. -/
def Dev.dramRow (d : Dev) (a : Nat) : Nat :=
  a / 2 ^ 21 + 12288 * d.rd MEM_PCH_REMAP.offset (d.logicalPch (d.classOf a) a)

/-- The bank of its pseudo-channel that address a reaches. -/
def Dev.dramBank (d : Dev) (a : Nat) : Nat := d.bankOf (d.classOf a) a

/-- Physical pseudo-channel p is in the failed set (R381). -/
def Dev.pchFailed (d : Dev) (p : Nat) : Bool := d.rdBit MEM_PCH_FAILED.failed (p % 32) (p / 32)

/-- R366: an access opens its row in its bank of pseudo-channel p, in place of the row that was open. -/
def Dev.openPage (d : Dev) (p a : Nat) : Dev :=
  d.setPch p { d.pchS p with open_ := tput (d.pchS p).open_ (d.dramBank a) (d.dramRow a) }

/-! ### The order of a bank (R364, R368)

A read in flight whose DRAM access is done and whose data is on its way has no burst left. -/

/-- Read or write t of a pseudo-channel has still to reach the DRAM. -/
def Txn.waits (t : Txn) : Bool := t.left != 0

/-- The transactions in flight at pseudo-channel p that have still to reach the DRAM. -/
def Dev.unreached (d : Dev) (p : Nat) : List Txn := ((d.pchS p).reads ++ (d.pchS p).writes).filter Txn.waits

/-- R364: no transaction of t's bank granted before t has still to reach the DRAM. -/
def Dev.bankFirst (d : Dev) (p : Nat) (t : Txn) : Bool :=
  (d.unreached p).all (fun u => decide (t.order ≤ u.order) || d.dramBank u.addr != d.dramBank t.addr)

/-- The write of pseudo-channel p that its bank's order lets go first. -/
def Dev.nextWrite (d : Dev) (p : Nat) : Option Txn := (d.pchS p).writes.find? (d.bankFirst p)

/-- Transaction t of pseudo-channel p reaches the DRAM: a write leaves the queue, and a cord ends at its low watermark (R368); a read's data
is on its way. -/
def Dev.letGo (d : Dev) (p : Nat) (t : Txn) : Dev :=
  let x := (d.openPage p t.addr).pchS p
  if t.write then
    let w := x.writes.filter (fun u => u.order != t.order)
    d.setPch p { x with writes := w, cordLow := x.cordLow.filter (fun low => decide (low < w.length)) }
  else d.setPch p { x with reads := x.reads.map (fun u => if u.order = t.order then { u with left := 0 } else u) }

/-- What goes next at pseudo-channel p before an access to the bank of address a: in a cord that the access, or a read granted in it to that
bank, has to wait for, a write; else what was granted first to that bank. -/
def Dev.goesBefore (d : Dev) (p a : Nat) (write : Bool) : Option Txn :=
  let x := d.pchS p
  let mine := (d.unreached p).filter (fun t => d.dramBank t.addr == d.dramBank a)
  let cord := x.cordLow.isSome && (! write || mine.any (fun t => ! t.write && decide (x.cordFrom ≤ t.order)))
  if cord then (d.nextWrite p).or ((d.unreached p).find? (d.bankFirst p)) else mine.find? (d.bankFirst p)

/-- R364: before an access of a block's row to address a, what was granted to that bank reaches the DRAM, with no error; a cord under way is not
interrupted (R368). At most 64 transactions wait (R363). -/
def Dev.settleBank (d : Dev) (p a : Nat) (write : Bool) : Dev :=
  if (d.unreached p).isEmpty then d
  else forUp 64 (fun _ d => match d.goesBefore p a write with
    | some t => d.letGo p t
    | none => d) d

/-- An access of a block's row reaches the DRAM at address a. -/
def Dev.reachDram (d : Dev) (a : Nat) (write : Bool) : Dev := (d.settleBank (d.physPch a) a write).openPage (d.physPch a) a

/-! ### Transactions of the blocks

A block's row performs its transactions whole, one for each aligned 256-byte block it touches: the smallest of 32, 64, 128 and 256
bytes, aligned to its size, that covers the bytes wanted there (R353; log entry 8). -/

/-- R353: the address of the transaction that covers the n bytes from a on, which lie in one 256-byte block. -/
def txnBase (a n : Nat) : Nat :=
  match [32, 64, 128].find? (fun z => a / z == (a + n - 1) / z) with
  | some z => a / z * z
  | none => a / 256 * 256

/-- Word 0x0BAD_F00D repeated over n bytes from address a (R362). -/
def deniedBytes (a n : Nat) : List Byte :=
  (List.range n).map (fun i => BitVec.ofNat 8 (0x0BADF00D / 256 ^ ((a + i) % 4)))

/-- n bytes of unstated data. -/
def Dev.freeBytes (d : Dev) (n : Nat) : List Byte := (List.range n).map (fun i => BitVec.ofNat 8 (Config.freeValue (d.free + i)))

/-- One read transaction: the state, the error flag and the data (R362, R381). -/
def readOne (s : State) (req : Nat) (secure : Bool) (a n : Nat) : State × Bool × List Byte :=
  if s.dev.admits req secure false a then
    if s.dev.pchFailed (s.dev.physPch a) then
      (onDev s (fun d => { d with free := d.free + n }), true, s.dev.freeBytes n)
    else (onDev s (fun d => d.reachDram a false), false, hbmGetBytes s.hbm a n)
  else (onDev s (fun d => d.deny req secure false (txnBase a n)), true, deniedBytes a n)

/-- One write transaction: the state and whether it was denied (R362, R381). -/
def writeOne (s : State) (req : Nat) (secure : Bool) (a : Nat) (bs : List Byte) : State × Bool :=
  if s.dev.admits req secure true a then
    if s.dev.pchFailed (s.dev.physPch a) then (s, false)
    else (onDev { s with hbm := hbmPutBytes s.hbm a bs } (fun d => d.reachDram a true), false)
  else (onDev s (fun d => d.deny req secure true (txnBase a bs.length)), true)

/-- A read of n bytes in as many transactions as its 256-byte blocks: data in order, and the error flag of any. -/
def readHbm (s : State) (req : Nat) (secure : Bool) (a n : Nat) : State × Bool × List Byte :=
  if n = 0 then (s, false, [])
  else
    forUp ((a + n - 1) / 256 - a / 256 + 1) (fun i (st : State × Bool × List Byte) =>
      let lo := max a ((a / 256 + i) * 256)
      let hi := min (a + n) ((a / 256 + i + 1) * 256)
      let (s', e, bs) := readOne st.1 req secure lo (hi - lo)
      (s', st.2.1 || e, st.2.2 ++ bs)) (s, false, [])

/-- The same for a requester that stops at the first denied or failed transaction: nothing beyond it is read. `down` walks the blocks from
the highest address. -/
def readHbmStop (s : State) (req : Nat) (secure : Bool) (a n : Nat) (down : Bool := false) : State × Bool × List Byte :=
  if n = 0 then (s, false, [])
  else
    let k := (a + n - 1) / 256 - a / 256 + 1
    forUp k (fun i (st : State × Bool × List Byte) =>
      if st.2.1 then st
      else
        let j := if down then k - 1 - i else i
        let lo := max a ((a / 256 + j) * 256)
        let hi := min (a + n) ((a / 256 + j + 1) * 256)
        let (s', e, bs) := readOne st.1 req secure lo (hi - lo)
        (s', e, if down then bs ++ st.2.2 else st.2.2 ++ bs)) (s, false, [])

/-- Reads of byte ranges [from, to) above `base`, up to the first that is denied or fails; whether every byte came. -/
def readRanges (s : State) (req : Nat) (secure : Bool) (base : Nat) (l : List (Nat × Nat)) : State × Bool :=
  l.foldl (fun st x =>
    if st.2 then
      let z := readHbmStop st.1 req secure (base + x.1) (x.2 - x.1)
      (z.1, ! z.2.1)
    else st) (s, true)

/-- A write of bytes in as many transactions as its 256-byte blocks, and whether any was denied. -/
def writeHbm (s : State) (req : Nat) (secure : Bool) (a : Nat) (bs : List Byte) : State × Bool :=
  if bs.length = 0 then (s, false)
  else
    forUp ((a + bs.length - 1) / 256 - a / 256 + 1) (fun i (st : State × Bool) =>
      let lo := max a ((a / 256 + i) * 256)
      let hi := min (a + bs.length) ((a / 256 + i + 1) * 256)
      let (s', e) := writeOne st.1 req secure lo (slice bs (lo - a) (hi - lo))
      (s', st.2 || e)) (s, false)

/-- The same for a requester that stops at the first denied transaction. -/
def writeHbmStop (s : State) (req : Nat) (secure : Bool) (a : Nat) (bs : List Byte) : State × Bool :=
  if bs.length = 0 then (s, false)
  else
    forUp ((a + bs.length - 1) / 256 - a / 256 + 1) (fun i (st : State × Bool) =>
      if st.2 then st
      else
        let lo := max a ((a / 256 + i) * 256)
        let hi := min (a + bs.length) ((a / 256 + i + 1) * 256)
        writeOne st.1 req secure lo (slice bs (lo - a) (hi - lo))) (s, false)

/-- What the loader places in HBM from address a on, a transaction for each 256-byte block it touches; no region is asked (log entry 160), and
a failed pseudo-channel drops it (R381). -/
def placeBytes (s : State) (a : Nat) (bs : List Byte) : State :=
  if bs.length = 0 then s
  else
    forUp ((a + bs.length - 1) / 256 - a / 256 + 1) (fun i s =>
      let lo := max a ((a / 256 + i) * 256)
      let hi := min (a + bs.length) ((a / 256 + i + 1) * 256)
      if s.dev.pchFailed (s.dev.physPch lo) then s
      else onDev { s with hbm := hbmPutBytes s.hbm lo (slice bs (lo - a) (hi - lo)) } (fun d => d.reachDram lo true)) s

/-- A read that would be denied, without its effect (for checks that precede any access). -/
def Dev.wouldRead (d : Dev) (req : Nat) (secure : Bool) (a n : Nat) : Bool :=
  (List.range ((n + 65535) / 65536 + 1)).all (fun i => n ≤ i * 65536 || d.admits req secure false (a + i * 65536)) &&
  (n == 0 || d.admits req secure false (a + n - 1))

end Sys2Proof.Machine
end

