-- ==== Sys2Proof/Machine/Rings.lean ====
section
/-!
DEFINITION. Rings, job descriptors, in-flight tables and hearth locks (11_stokers_rings.md R437 to R460), and what the stop of
a codec or 2-D job counts and raises (10_codec_2d.md).
-/
namespace Sys2Proof.Machine

/-! ### Endpoints and indices (R437 to R440) -/

/-- The endpoint code of the sender of a doorbell or a lock access (R439, R457). -/
def endpointOf : Initiator → Option Nat
  | .stoker n => some (n % 64)
  | .posted n _ => some (n % 64)
  | .bar0 => some 0x40
  | .mailbox => some 0x41
  | _ => none

/-- The image defines ring r. -/
def Dev.ringKnown (d : Dev) (r : Nat) : Bool := (tfind d.img.rings.rings r).isSome

/-- S and 2S of ring r. -/
def Dev.ringSize (d : Dev) (r : Nat) : Nat := 2 ^ d.rd STK_RING_CFG.size_log2 r
def Dev.ringMod (d : Dev) (r : Nat) : Nat := 2 * d.ringSize r

/-- R438: the entries ring r holds. -/
def Dev.ringFill (d : Dev) (r : Nat) : Nat :=
  (d.rd STK_RING_PI.pi r + d.ringMod r - d.rd STK_RING_CI.ci r % d.ringMod r) % d.ringMod r

/-- The room in ring r. -/
def Dev.ringRoom (d : Dev) (r : Nat) : Nat := d.ringSize r - d.ringFill r

/-- Bytes of an entry of ring r. -/
def Dev.ringEntryBytes (d : Dev) (r : Nat) : Nat := 32 * 2 ^ d.rd STK_RING_CFG.entry r

/-- R438: the HBM address of the entry at index i of ring r. -/
def Dev.ringAddr (d : Dev) (r i : Nat) : Nat :=
  d.rd STK_RING_BASE_HI.base_hi r * 2 ^ 32 + d.rd STK_RING_BASE_LO.base_lo r + i % d.ringSize r * d.ringEntryBytes r

/-- The endpoints of ring r in force. -/
def Dev.producer (d : Dev) (r : Nat) : Nat := d.rd STK_RING_ENDS.producer r
def Dev.consumer (d : Dev) (r : Nat) : Nat := d.rd STK_RING_ENDS.consumer r

/-- The world of ring r (R361, R395). -/
def Dev.ringSecure (d : Dev) (r : Nat) : Bool := d.rdb STK_RING_CFG.secure r

/-- R439: a doorbell write or a reassign is dropped. -/
def Dev.ringErr (d : Dev) : Dev := (d.count STK_RING_ERR_CNT.sat STK_RING_ERR_CNT.count).raise 451

/-! ### Notification (R442, R453) -/

/-- An armed ring that is not parked sends its notification, which clears armed. -/
def Dev.ringNotify (d : Dev) (r : Nat) : Dev :=
  if d.rdb STK_RING_NOTIFY.armed r && ! d.rdb STK_RING_CFG.parked r then
    match d.rd STK_RING_NOTIFY.target r with
    | 1 =>
      let d1 := d.wr STK_RING_NOTIFY.armed 0 r
      let c := d.consumer r
      if c < 64 then d1.setCore c ((d1.core c).pushClaim (ringEntry r)) else d1
    | 2 => (d.wr STK_RING_NOTIFY.armed 0 r).emit (.msix (d.rd STK_RING_NOTIFY.vector r) (ringEntry r) d.evNow)
    | _ => d
  else d

/-- PI of ring r advances to v. -/
def Dev.ringAdvance (d : Dev) (r v : Nat) : Dev := (d.wr STK_RING_PI.pi (v % d.ringMod r) r).ringNotify r

/-- R439, R440: a PI write to ring r takes effect or is dropped. -/
def Dev.piWrite (d : Dev) (who : Initiator) (r v : Nat) : Dev :=
  let m := d.ringMod r
  let adv := (v % 2 ^ 16 % m + m - d.rd STK_RING_PI.pi r % m) % m
  if d.ringKnown r && endpointOf who == some (d.producer r) && decide (1 ≤ adv) && decide (adv ≤ d.ringRoom r) then
    d.ringAdvance r (v % 2 ^ 16)
  else d.ringErr

/-- R439, R440, R442: a CI write to ring r, with its arm bit, takes effect or is dropped. -/
def Dev.ciWrite (d : Dev) (who : Initiator) (r v : Nat) : Dev :=
  let m := d.ringMod r
  let adv := (v % 2 ^ 16 % m + m - d.rd STK_RING_CI.ci r % m) % m
  if d.ringKnown r && endpointOf who == some (d.consumer r) && decide (adv ≤ d.ringFill r) then
    let d1 := d.wr STK_RING_CI.ci (v % 2 ^ 16 % m) r
    if bit v 16 then
      let d2 := d1.wr STK_RING_NOTIFY.armed 1 r
      if 0 < d2.ringFill r then d2.ringNotify r else d2
    else d1
  else d.ringErr

/-! ### Parking and reassignment (R453 to R456) -/

/-- Ring r is parked; RING_PARKED is raised when it was not. -/
def Dev.parkRing (d : Dev) (r : Nat) : Dev :=
  if d.rdb STK_RING_CFG.parked r then d else (d.wr STK_RING_CFG.parked 1 r).raise 450

/-- Ring r resumes. -/
def Dev.unparkRing (d : Dev) (r : Nat) : Dev := d.wr STK_RING_CFG.parked 0 r

/-- Every ring that the image defines and that satisfies p is parked. -/
def Dev.parkRings (d : Dev) (p : Nat → Bool) : Dev :=
  forEach (d.img.rings.rings.map (fun x => x.1)) (fun r d => if p r then d.parkRing r else d) d

/-- R454: an endpoint has failed. -/
def Dev.endpointFailed (d : Dev) (e : Nat) : Bool :=
  if e < 64 then (d.core e).run == 3 else (e == 0x40 || e == 0x41) && ! d.stk.pcieUp

/-- R454: the endpoint that a reassign puts in place of e. -/
def Dev.replaced (d : Dev) (e alt : Nat) : Nat := if d.endpointFailed e then alt else e

/-- R454: a reassign would name this endpoint in vain. -/
def Dev.unfitEndpoint (d : Dev) (e alt : Nat) : Bool :=
  d.endpointFailed e && (alt == 0xFF || (decide (alt < 64) && (d.core alt).run == 3))

/-- R454: failed endpoints give way to their alternates, or nothing changes and RING_ERR is raised. -/
def Dev.reassignRing (d : Dev) (r : Nat) : Dev :=
  let p := d.producer r
  let c := d.consumer r
  let ap := d.rd STK_RING_ENDS.alt_producer r
  let ac := d.rd STK_RING_ENDS.alt_consumer r
  if d.ringKnown r = false ∨ d.unfitEndpoint p ap ∨ d.unfitEndpoint c ac then d.ringErr
  else (((d.wr STK_RING_ENDS.producer (d.replaced p ap) r).wr STK_RING_ENDS.consumer (d.replaced c ac) r).wr
    STK_RING_CFG.reassigned 1 r).wr STK_RING_NOTIFY.armed 1 r

/-- R452: every ABORTED entry of ring r is cleared. -/
def Dev.clearAborted (d : Dev) (r : Nat) : Dev := d.setJobs r ((d.jobsOf r).filter (fun j => j.state != 4))

/-- R452 to R455: a write of STK_RING_CTRL[r]: reassign first, then park before unpark, and clear_inflight by the ring's producer
or the secure world. -/
def Dev.ringCtrlWrite (d : Dev) (who : Initiator) (r v : Nat) : Dev :=
  let sec := d.secureOf who
  let prod : Bool := endpointOf who == some (d.producer r)
  let d1 := if sec && bit v 29 then d.reassignRing r else d
  let d2 := if sec && bit v 31 then (if d1.ringKnown r then d1.parkRing r else d1)
    else if sec && bit v 30 then d1.unparkRing r else d1
  if bit v 28 && (sec || prod) then d2.clearAborted r else d2

/-- R456: after a boot or relight every ring starts unparked and empty, with its original endpoints; one that the image does not list is
no ring, and its registers take their Reset entries. -/
def Dev.initRings (d : Dev) : Dev :=
  forEach d.img.rings.rings (fun x d =>
    let r := x.1
    let c := x.2
    let d1 := (((((d.wr STK_RING_CFG.kind c.kind r).wrb STK_RING_CFG.secure c.secure r).wr STK_RING_CFG.size_log2
      c.sizeLog2 r).wr STK_RING_CFG.entry c.entry r).wr STK_RING_CFG.parked 0 r).wr STK_RING_CFG.reassigned 0 r
    let d2 := ((((d1.wr STK_RING_CFG.cq (if c.kind = 1 then c.cq else 0) r).wr STK_RING_ENDS.producer c.producer r).wr STK_RING_ENDS.consumer
      c.consumer r).wr STK_RING_ENDS.alt_producer c.altProducer r).wr STK_RING_ENDS.alt_consumer c.altConsumer r
    ((((((d2.wr STK_RING_BASE_LO.base_lo (c.base % 2 ^ 32) r).wr STK_RING_BASE_HI.base_hi (c.base / 2 ^ 32) r).wr
      STK_RING_PI.pi 0 r).wr STK_RING_CI.ci 0 r).wr STK_RING_NOTIFY.target c.target r).wr STK_RING_NOTIFY.armed 1 r).wr
      STK_RING_NOTIFY.vector c.vector r) { (d.resetRegs STK_RING_CFG.baseAddr (4096 * 64)) with jobs := ⟨[], 0, []⟩ }

/-! ### Stops of codec and 2-D jobs -/

/-- CDC_LAST_ERR after a stop other than done. -/
def Dev.cdcErr (d : Dev) (r status fault : Nat) : Dev :=
  ((d.wr CDC_LAST_ERR.status status).wr CDC_LAST_ERR.fault fault).wr CDC_LAST_ERR.ring r

/-- What the stop of a codec job of ring r counts and raises. -/
def Dev.cdcStopped (d : Dev) (r status fault : Nat) : Dev :=
  match status with
  | 0 => d.count CDC_JOB_CNT.sat CDC_JOB_CNT.count
  | 1 => ((d.cdcErr r status fault).count CDC_SPACE_CNT.sat CDC_SPACE_CNT.count).raise 384
  | 2 | 3 | 4 | 7 => ((d.cdcErr r status fault).count CDC_REJECT_CNT.sat CDC_REJECT_CNT.count).raise 387
  | 5 | 6 => ((d.cdcErr r status fault).count CDC_FAULT_CNT.sat CDC_FAULT_CNT.count).raise 385
  | 9 => (d.cdcErr r status fault).raise 386
  | _ => d.cdcErr r status fault

/-- What the stop of a 2-D job of ring r counts and raises. -/
def Dev.twdStopped (d : Dev) (r status : Nat) : Dev :=
  if status = 0 then d.count TWD_JOB_CNT.sat TWD_JOB_CNT.count
  else
    let d1 := (((d.wr TWD_LAST_ERR.status status).wr TWD_LAST_ERR.ring r).count TWD_REJECT_CNT.sat TWD_REJECT_CNT.count)
    if status = 3 then d1.raise 417 else if status < 7 then d1.raise 416 else d1

/-- What the stop of a job counts and raises. -/
def Dev.jobStopped (d : Dev) (engine r status fault : Nat) : Dev :=
  if engine = 0x50 then d.cdcStopped r status fault
  else if engine = 0x51 then d.twdStopped r status
  else d

/-! ### In-flight jobs (R443 to R451) -/

/-- The job in in-flight entry `slot` of ring r. -/
def Dev.jobAt (d : Dev) (r slot : Nat) : Option Job := (d.jobsOf r).find? (fun j => j.slot == slot)

/-- The job in its entry is replaced. -/
def Dev.setJob (d : Dev) (j : Job) : Dev :=
  d.setJobs j.ring ((d.jobsOf j.ring).map (fun k => if k.slot = j.slot then j else k))

/-- The entry is freed. -/
def Dev.freeJob (d : Dev) (j : Job) : Dev := d.setJobs j.ring ((d.jobsOf j.ring).filter (fun k => k.slot != j.slot))

/-- A 32-bit word and a byte-aligned 36-bit address of a job's descriptor. -/
def Job.w (j : Job) (o : Nat) : Nat := leAt j.desc o 4
def Job.addr (j : Job) (o : Nat) : Nat := j.w o + j.w (o + 4) % 16 * 2 ^ 32

/-- A job finishes with these progress words; its status is in progress 0 [31:24]. -/
def Dev.finishJob (d : Dev) (j : Job) (progress : List Nat) : Dev :=
  (d.setJob { j with progress := progress, finished := true, state := 2 }).jobStopped j.engine j.ring
    (lget progress 0 0 / 2 ^ 24 % 256) (bits (lget progress 0 0) 23 16)

/-- The port of a partial-write job, and its progress (R329). -/
def Job.pPort (j : Job) : Nat := bits (j.w 0x20) 15 8
def Job.pProgress (j : Job) (status : Nat) : List Nat := [status * 2 ^ 24 + j.units, 0, 0, 0, 0]

/-- R329: every partial-write job that runs on port n stops with this status. -/
def Dev.pwStop (d : Dev) (n status : Nat) : Dev :=
  forEach ((d.engineJobs 0x53).filter (fun j => j.pPort == n && j.state == 2 && ! j.finished))
    (fun j d => d.finishJob j (j.pProgress status)) d

/-- The requester number and the block of an engine. -/
def engineReq (e : Nat) : Nat := match e with | 0x50 => 20 | 0x51 => 21 | 0x52 => 22 | 0x53 => 23 | _ => 30
def engineBlock (e : Nat) : Nat := match e with | 0x50 => 10 | 0x51 => 11 | 0x52 => 12 | 0x53 => 7 | _ => 15

/-- The engine has power and is not held in reset. -/
def Dev.engineOn (d : Dev) (e : Nat) : Bool := d.rdb GLB_PWR_STATUS.core && ! d.blockHeld (engineBlock e)

/-- The opcodes an engine has (R445). -/
def engineHas (e op : Nat) : Bool :=
  match e with
  | 0x50 => op == 1 || op == 2 || op == 3
  | 0x51 => op == 1 || op == 2 || op == 3 || op == 4
  | 0x52 => op == 1 || op == 2
  | 0x53 => op == 1
  | 0x54 => op == 1
  | _ => false

/-- A 36-bit address's byte range [first, last] shares a byte with another. -/
def rangesMeet (a b : Nat × Nat) : Bool := decide (a.1 ≤ b.2) && decide (b.1 ≤ a.2)

/-- The 2-D engine's formats (R411): bytes of a pixel, 0 for GLYPH's single bit. -/
def pixelBytes (fmt : Nat) : Nat := if fmt = 1 ∨ fmt = 2 then 4 else if fmt = 15 then 0 else 1

/-- Fields of a 2-D descriptor. -/
def Job.dstFmt (j : Job) : Nat := bits (j.w 0x20) 11 8
def Job.srcFmt (j : Job) : Nat := bits (j.w 0x20) 15 12
def Job.rectW (j : Job) : Nat := if j.w 0x34 % 2 ^ 16 = 0 then 16384 else j.w 0x34 % 2 ^ 16
def Job.rectH (j : Job) : Nat := if j.w 0x34 / 2 ^ 16 = 0 then 16384 else j.w 0x34 / 2 ^ 16
def Job.dstPitch (j : Job) : Nat := j.w 0x2C % 2 ^ 18
def Job.srcPitch (j : Job) : Nat := j.w 0x40 % 2 ^ 18

/-- The extent of a rectangle in a surface (R416): first and last byte. -/
def extent (fmt base pitch x y w h : Nat) : Nat × Nat :=
  if fmt = 15 then (base + y * pitch + x / 8, base + (y + h - 1) * pitch + (x + w - 1) / 8)
  else (base + y * pitch + x * pixelBytes fmt, base + (y + h - 1) * pitch + (x + w) * pixelBytes fmt - 1)

/-- The extents of a 2-D job's destination and source. -/
def Job.dstExtent (j : Job) : Nat × Nat :=
  extent j.dstFmt (j.addr 0x24) j.dstPitch (j.w 0x30 % 2 ^ 16) (j.w 0x30 / 2 ^ 16) j.rectW j.rectH
def Job.srcExtent (j : Job) : Nat × Nat :=
  extent j.srcFmt (j.addr 0x38) j.srcPitch (j.w 0x44 % 2 ^ 16) (j.w 0x44 / 2 ^ 16) j.rectW j.rectH

/-- The job reads a source rectangle: every 2-D operation but FILL. -/
def Job.hasSrc (j : Job) : Bool := j.w 0x20 % 256 != 2

/-- R418: job j conflicts with the earlier job k. -/
def twdConflict (j k : Job) : Bool :=
  rangesMeet j.dstExtent k.dstExtent || (k.hasSrc && rangesMeet j.dstExtent k.srcExtent) ||
  (j.hasSrc && rangesMeet j.srcExtent k.dstExtent)

/-- R418: an earlier fetched 2-D job that has not completed conflicts with j. A job that stopped at its fetch conflicts with none. -/
def Dev.twdBlocked (d : Dev) (j : Job) : Bool :=
  (d.engineJobs 0x51).any (fun k => decide (k.order < j.order) && ! (k.finished && decide (0xF0 ≤ lget k.progress 0 0 / 2 ^ 24))
    && twdConflict j k)

/-! ### Completions (R448) -/

/-- The 32 bytes of job j's completion at index i of its completion ring cq. -/
def Dev.completionBytes (d : Dev) (j : Job) (cq i : Nat) : List Byte :=
  let phase := b2n (i / d.ringSize cq % 2 == 0)
  leBytes 4 (phase * 2 ^ 31 + j.ring * 2 ^ 16 + j.index) ++ leBytes 4 (j.w 4) ++ leBytes 4 (j.w 8) ++
  (List.range 5).flatMap (fun k => leBytes 4 (lget j.progress k 0))

/-- A completion of completion ring cq is held. -/
def Dev.cqHeld (d : Dev) (cq : Nat) : Bool :=
  d.jobs.inflight.any (fun p => p.2.any (fun j => j.state == 3 && d.rd STK_RING_CFG.cq j.ring == cq))

/-- R448: the completion is written and PI advances; the entry is freed. -/
def putCompletion (s : State) (j : Job) (cq : Nat) : State :=
  let i := s.dev.rd STK_RING_PI.pi cq
  let s1 := (writeHbm s (engineReq j.engine) (s.dev.ringSecure j.ring) (s.dev.ringAddr cq i)
    (s.dev.completionBytes j cq i)).1
  onDev s1 (fun d => (d.freeJob j).ringAdvance cq (i + 1))

/-- R448: a finished job's completion is written, or held where its ring is full or holds one already. -/
def completeJob (s : State) (j : Job) : State :=
  let cq := s.dev.rd STK_RING_CFG.cq j.ring
  if s.dev.cqHeld cq || s.dev.ringRoom cq == 0 then
    onDev s (fun d => { d.setJob { j with state := 3, heldAt := d.jobs.nextOrder } with
      jobs := { (d.setJob { j with state := 3, heldAt := d.jobs.nextOrder }).jobs with nextOrder := d.jobs.nextOrder + 1 } })
  else putCompletion s j cq

/-- The completion held longest for ring cq. -/
def Dev.oldestHeld (d : Dev) (cq : Nat) : Option Job :=
  (d.jobs.inflight.flatMap (fun p => p.2.filter (fun j => j.state == 3 && d.rd STK_RING_CFG.cq j.ring == cq))).foldl
    (fun o j => match o with
      | none => some j
      | some k => if j.heldAt < k.heldAt then some j else some k) none

/-- Held completions of ring cq are written while there is room, at most n of them. -/
def resumeCompletions : Nat → State → Nat → State
  | 0, s, _ => s
  | n + 1, s, cq =>
    if s.dev.ringRoom cq = 0 then s
    else match s.dev.oldestHeld cq with
      | none => s
      | some j => resumeCompletions n (putCompletion s j cq) cq

/-! ### Fetching (R443 to R445) -/

/-- Ring r may be fetched from now, the 64 entries of the 2-D scoreboard apart. -/
def Dev.mayFetch (d : Dev) (r : Nat) : Bool :=
  let e := d.consumer r
  d.ringKnown r && d.rd STK_RING_CFG.kind r == 1 && decide (0x50 ≤ e) && decide (e ≤ 0x54) && d.engineOn e &&
  ! d.rdb STK_RING_CFG.parked r && decide (0 < d.ringFill r) && decide ((d.jobsOf r).length < 8) &&
  ! (d.jobsOf r).any (fun j => j.state == 4) && ! d.cqHeld (d.rd STK_RING_CFG.cq r) &&
  ! (e == 0x50 && d.rdb CDC_CTRL.pause)

/-- R444: rings before ring r in the turn of engine e: the turn goes round the rings by number from the one it last took a job from. -/
def Dev.turnOf (d : Dev) (e r : Nat) : Nat := (r + 4095 - tget d.jobs.turn e 4095) % 4096

/-- R444: no other ring of its engine that may be fetched from comes before ring r in turn (log entry 119). -/
def Dev.inTurn (d : Dev) (r : Nat) : Bool :=
  let e := d.consumer r
  d.img.rings.rings.all (fun x => ! (d.consumer x.1 == e && d.mayFetch x.1) || decide (d.turnOf e r ≤ d.turnOf e x.1))

/-- R444: engine e has taken a job from ring r. -/
def Dev.takeTurn (d : Dev) (e r : Nat) : Dev := { d with jobs := { d.jobs with turn := tput d.jobs.turn e r } }

/-- R419: a fetch held off by a full scoreboard. -/
def Dev.scoreboardFull (d : Dev) : Dev := (d.count TWD_STALL_CNT.sat TWD_STALL_CNT.count).raise 418

/-- The lowest free in-flight entry of a ring. -/
def freeSlot (l : List Job) : Nat := ((List.range 8).find? (fun k => ! l.any (fun j => j.slot == k))).getD 0

/-- R445: the status with which a fetched descriptor completes at once, if any. -/
def descriptorFault (e : Nat) (denied : Bool) (b : List Byte) : Option Nat :=
  if denied then some 0xF1
  else if leAt b 0 4 / 2 ≠ 0 ∨ (slice b 0x0C 0x14).any (fun x => x != 0) then some 0xF0
  else if engineHas e (leAt b 0x20 1) then none
  else some 0xF2

/-- A fetched job joins its ring's in-flight table. -/
def Dev.addJob (d : Dev) (j : Job) : Dev :=
  let d1 := d.setJobs j.ring (d.jobsOf j.ring ++ [j])
  { d1 with jobs := { d1.jobs with nextOrder := d1.jobs.nextOrder + 1 } }

/-- R443, R445: the engine of ring r fetches the descriptor at CI. -/
def fetchDescriptor (s : State) (r : Nat) : State :=
  let e := s.dev.consumer r
  let ci := s.dev.rd STK_RING_CI.ci r
  let (s1, err, b) := readHbm s (engineReq e) (s.dev.ringSecure r) (s.dev.ringAddr r ci) 128
  let s2 := onDev s1 (fun d => (d.wr STK_RING_CI.ci ((ci + 1) % d.ringMod r) r).takeTurn e r)
  let j : Job := { ring := r, slot := freeSlot (s.dev.jobsOf r), index := ci, engine := e, state := 1, desc := b,
                   progress := [0, 0, 0, 0, 0], units := 0, finished := false, conflict := false, cdc := CdcWork.init,
                   order := s2.dev.jobs.nextOrder, heldAt := 0, col := 0, held := false }
  match descriptorFault e err b with
  | some st =>
    let s3 := onDev s2 (fun d => (d.addJob j).finishJob j [st * 2 ^ 24, 0, 0, 0, 0])
    match s3.dev.jobAt r j.slot with
    | some k => completeJob s3 k
    | none => s3
  | none =>
    if e == 0x51 && s2.dev.twdBlocked j then
      onDev s2 (fun d => (d.addJob { j with conflict := true }).count TWD_OVERLAP_WAIT_CNT.sat TWD_OVERLAP_WAIT_CNT.count)
    else onDev s2 (fun d => d.addJob j)

/-- R444, R449: the first job of ring r that waits, when the ring's earlier jobs and its fence let it start. -/
def Dev.nextToStart (d : Dev) (r : Nat) : Option Job :=
  match (d.jobsOf r).find? (fun j => j.state == 1) with
  | none => none
  | some j => if bit (j.w 0) 0 && (d.jobsOf r).any (fun k => decide (k.order < j.order)) then none else some j

/-- R451: a reset of engine e stops its jobs; their entries are ABORTED and keep their progress. -/
def Dev.abortEngine (d : Dev) (e : Nat) : Dev :=
  { d with jobs := { d.jobs with inflight := d.jobs.inflight.map (fun p =>
      (p.1, p.2.map (fun j => if j.engine = e then { j with state := 4, finished := false } else j))) } }

/-- Word 0 of an in-flight entry (R449). -/
def Dev.latchEntry (d : Dev) (r e : Nat) : Dev :=
  match d.jobAt r e with
  | some j => ((((((d.wr STK_IF_ENTRY0.valid 1 e).wr STK_IF_ENTRY0.state j.state e).wr STK_IF_ENTRY0.engine (j.engine - 0x50) e).wr
      STK_IF_ENTRY0.index j.index e).wr STK_IF_ENTRY1.progress (lget j.progress 0 0) e).wr STK_IF_ENTRY2.progress
      (lget j.progress 1 0) e).wr STK_IF_ENTRY3.progress (lget j.progress 2 0) e
  | none => ((((((d.wr STK_IF_ENTRY0.valid 0 e).wr STK_IF_ENTRY0.state 0 e).wr STK_IF_ENTRY0.engine 0 e).wr
      STK_IF_ENTRY0.index 0 e).wr STK_IF_ENTRY1.progress 0 e).wr STK_IF_ENTRY2.progress 0 e).wr STK_IF_ENTRY3.progress 0 e

/-- A write of STK_IF_SEL latches the ring's 8 entries. -/
def Dev.ifSelWrite (d : Dev) (v : Nat) : Dev :=
  forUp 8 (fun e d => d.latchEntry (v % 4096) e) (d.wr STK_IF_SEL.ring v)

/-! ### Hearth locks (R457 to R460) -/

/-- R457: an acquire attempt on lock n by an endpoint; granted and again show in the read's data alone. -/
def Dev.lockAttempt (d : Dev) (who : Initiator) (n : Nat) : Dev :=
  match endpointOf who with
  | none => d
  | some e =>
    let o := d.rd STK_LOCK_ACQ.owner n
    if o = 0xFF then (d.wr STK_LOCK_ACQ.owner e n).wr STK_LOCK_ACQ.granted 1 n
    else if o = e then (d.wr STK_LOCK_ACQ.granted 1 n).wr STK_LOCK_ACQ.again 1 n
    else d

/-- granted and again belong to the attempt that has been answered. -/
def Dev.lockAnswered (d : Dev) (n : Nat) : Dev := (d.wr STK_LOCK_ACQ.granted 0 n).wr STK_LOCK_ACQ.again 0 n

/-- R458, R460: a release of lock n. -/
def Dev.lockRelease (d : Dev) (who : Initiator) (n v : Nat) : Dev :=
  if bit v 0 then
    if endpointOf who == some (d.rd STK_LOCK_ACQ.owner n) then
      (d.wr STK_LOCK_ACQ.owner 0xFF n).wr STK_LOCK_ACQ.abandoned 0 n
    else (d.count STK_LOCK_MISUSE_CNT.sat STK_LOCK_MISUSE_CNT.count).raise 453
  else d

/-- R459: lock n is freed ABANDONED. -/
def Dev.abandonLock (d : Dev) (n : Nat) : Dev :=
  ((((d.wr STK_LOCK_ACQ.last_owner (d.rd STK_LOCK_ACQ.owner n) n).wr STK_LOCK_ACQ.owner 0xFF n).wr STK_LOCK_ACQ.abandoned 1
    n).count STK_ABANDON_CNT.sat STK_ABANDON_CNT.count).raise 452

/-- R459: every lock that endpoint e owns is freed ABANDONED. -/
def Dev.abandonLocks (d : Dev) (e : Nat) : Dev :=
  forUp 256 (fun n d => if d.rd STK_LOCK_ACQ.owner n = e then d.abandonLock n else d) d

/-! ### Commands -/

/-- DESCRIPTOR_FETCH (R443): the consumer of job ring r fetches, where nothing holds it off and the ring's turn has come (R444). -/
def execDescriptorFetch (r : Nat) (s : State) : Res :=
  if s.dev.mayFetch r && s.dev.inTurn r then
    if s.dev.consumer r = 0x51 ∧ 64 ≤ (s.dev.engineJobs 0x51).length then .next (onDev s Dev.scoreboardFull)
    else .next (fetchDescriptor s r)
  else .next s

/-- COMPLETION_WRITE (R448): the finished job in an in-flight entry has its completion written or held. -/
def execCompletionWrite (r slot : Nat) (s : State) : Res :=
  match s.dev.jobAt r slot with
  | some j => if j.finished && j.state == 2 && s.dev.engineOn j.engine then .next (completeJob s j) else .next s
  | none => .next s

/-- COMPLETION_RESUME (R448): room has appeared in completion ring cq. -/
def execCompletionResume (cq : Nat) (s : State) : Res := .next (resumeCompletions 32768 s cq)

end Sys2Proof.Machine
end

