-- ==== Sys2Proof/Machine/Arbiter.lean ====
section
/-!
DEFINITION. The arbiters and the HBM controllers (09_memory_arbitration.md R353 to R394): pending queues, decisions, windows and
preemption; read and write completion, cords, refresh, periodic training and the failed set.
-/
namespace Sys2Proof.Machine

/-! ### Values in force (R392)

`ArbInst.cfg` holds what is in force: 0 mode, 1 window, 3 the clock of the window's start; 20 the holder's class, 21 and 22 the bellows
state and configured class it rests on; 200 + r a quota, 300 + r a configured class, 400 + r whether the requester reaches the instance. -/

def ArbInst.get (a : ArbInst) (k : Nat) : Nat := tget a.cfg k 0
def ArbInst.put (a : ArbInst) (k v : Nat) : ArbInst := { a with cfg := tput a.cfg k v }

/-- The queue of requester r. -/
def ArbInst.queue (a : ArbInst) (r : Nat) : List Txn := tget a.queues r []
def ArbInst.setQueue (a : ArbInst) (r : Nat) (l : List Txn) : ArbInst := { a with queues := tput a.queues r l }

/-- The instance runs. -/
def Dev.arbOn (d : Dev) (i : Nat) : Bool := decide (i < 71) && d.regOn ARB_INST_CFG.ent i

/-- The credit of requester r at instance i (R387, R388). -/
def Dev.credit (d : Dev) (i r : Nat) : Int := toS 16 (d.rd ARB_REQ_STATE.credit i r)
def Dev.setCredit (d : Dev) (i r : Nat) (c : Int) : Dev := d.wr ARB_REQ_STATE.credit (ofS 16 (clampI c (-32768) 32767)) i r

/-! ### Pending queues (R384) -/

/-- R353: a transaction's shape, of an HBM_REQUEST. A stoker's access of 1, 2 or 4 bytes is a transaction of 32 bytes of which only
those count; it goes by their address. -/
def txnShapeOk (addr len : Nat) : Bool := (len == 32 || len == 64 || len == 128 || len == 256) && addr % len == 0

/-- The arbiter instance that a ring's doorbell writes pass (R441), if any. -/
def Dev.doorInst (d : Dev) (r : Nat) : Option Nat :=
  let c := d.consumer r
  if c < 64 then some (66 + c / 16) else if 0x50 ≤ c then some 70 else none

/-- A doorbell write takes effect in STK (R439 to R441); `value` is its word. -/
def Dev.doorbell (d : Dev) (who : Initiator) (a value : Nat) : Dev :=
  match regAt a with
  | some (e, r, _) =>
    if e = STK_RING_PI.ent then d.gate who e r 0 (fun d => d.piWrite who r value)
    else if e = STK_RING_CI.ent then d.gate who e r 0 (fun d => d.ciWrite who r value)
    else d
  | none => d

/-- R384: the requester's queue at instance i has room. -/
def Dev.queueRoom (d : Dev) (i r : Nat) : Bool := decide (((d.arbI i).queue r).length < 16)

/-- Requester r's queue becomes l, longer than before; QUEUE_FULL is raised when that fills it. -/
def Dev.growQueue (d : Dev) (i r : Nat) (l : List Txn) : Dev :=
  let d1 := d.setArb i ((d.arbI i).setQueue r l)
  if l.length = 16 then d1.raise 353 else d1

/-- A request joins its requester's queue at instance i. One that a full queue holds back counts; a doorbell write, which its writer has
already posted, waits until an entry leaves, behind those held back before it, and the requester of any other issues it anew (R384). -/
def Dev.enqueueTxn (d : Dev) (i : Nat) (t : Txn) : Dev :=
  let a := d.arbI i
  let wait := tget a.held t.req []
  if d.queueRoom i t.req && wait.isEmpty then d.growQueue i t.req (a.queue t.req ++ [{ t with stamp := a.clock }])
  else
    let d1 := if t.door.isSome then d.setArb i { a with held := tput a.held t.req (wait ++ [t]) } else d
    d1.count ARB_QUEUE_FULL_CNT.sat ARB_QUEUE_FULL_CNT.count 1 i

/-- An entry of requester r has left: the oldest request held back takes its place (R384). -/
def Dev.admitHeld (d : Dev) (i r : Nat) : Dev :=
  let a := d.arbI i
  match tget a.held r [] with
  | [] => d
  | t :: rest =>
    if d.queueRoom i r then
      (d.setArb i { a with held := if rest.isEmpty then tdel a.held r else tput a.held r rest }).growQueue i r
        (a.queue r ++ [{ t with stamp := a.clock }])
    else d

/-- The instance at which a requester's HBM transaction queues first: its engine's fabric port, or the pseudo-channel's. -/
def Dev.firstInst (d : Dev) (req addr : Nat) : Nat := if req = 20 then 64 else if req = 21 then 65 else d.physPch addr

/-- Requester r reaches instance i, as in force since the instance's last window start (R392). -/
def Dev.reqPresent (d : Dev) (i r : Nat) : Bool := (d.arbI i).get (400 + r) == 1

/-- An HBM transaction is denied whole (R362), or queued. -/
def Dev.hbmIssue (d : Dev) (t : Txn) : Dev :=
  if d.admits t.req t.secure t.write t.addr then
    let i := d.firstInst t.req t.addr
    if d.arbOn i && d.reqPresent i t.req then d.enqueueTxn i t else d
  else (d.deny t.req t.secure t.write (txnBase t.addr t.len)).toRequester t true (deniedBytes t.addr t.len)

/-- R361: the world of a request, by where it comes from. -/
def Dev.reqWorld (d : Dev) (req : Nat) : ReqSrc → Bool
  | .block => if req = 29 then true else d.blockSecure (if req < 16 then 3 else if req = 16 then 2 else 4)
  | .ring r => d.ringSecure r
  | .stoker n => d.secureOf (.stoker n)
  | .bar0 => false
  | .mailbox => true

/-- R517: the HBM address of a request: through the mailbox's window it is an offset from SEC_MBX_HBM_BASE. -/
def Dev.srcAddr (d : Dev) (src : ReqSrc) (addr : Nat) : Nat :=
  if src = .mailbox then d.rd SEC_MBX_HBM_BASE.base * 2 ^ 24 + addr % 2 ^ 24 else addr

/-- R505, R519: an access to the mailbox's window into HBM is blocked: no session is open, or the device is RETIRED. -/
def Dev.windowBlocked (d : Dev) (src : ReqSrc) : Bool := src == .mailbox && (! d.mbxOpen || d.lifecycle == 3)

/-- R8, R503: such an access, at its BAR2 offset. -/
def Dev.windowReject (d : Dev) (write : Bool) (addr len : Nat) : Dev :=
  let d1 := d.secBlocked .mailbox (0x3000000 + addr % 2 ^ 24) write
  if write then d1 else d1.emit (.hbmData 28 addr false (deniedBytes addr len))

/-- The requester number under which an initiator's doorbell writes pass an arbiter (requester table); JTAG and the kiln have none. -/
def doorReq : Initiator → Option Nat
  | .stoker n => some (24 + n % 64 / 16)
  | .posted n _ => some (24 + n % 64 / 16)
  | .bar0 => some 28
  | .mailbox => some 28
  | .jtag => none
  | .engine n => if n = 0 then some 29 else if n = 2 then some 30 else none

/-- R441: a doorbell write that the fabric has let through joins its writer's queue at the instance that guards the ring's consumer, and
takes effect when granted; where no instance guards the ring or the writer reaches none, it takes effect at once (log entry 92). -/
def Dev.doorIssue (d : Dev) (who : Initiator) (a value : Nat) : Dev :=
  match regAt a with
  | some (e, r, _) =>
    if e = STK_RING_PI.ent ∨ e = STK_RING_CI.ent then
      (match d.doorInst r, doorReq who with
      | some i, some q =>
        if d.arbOn i && d.reqPresent i q then
          d.enqueueTxn i { req := q, secure := d.secureOf who, write := true, addr := a, len := 4, data := leBytes 4 value,
                           stream := none, stamp := 0, left := 1, door := some who, order := 0, core := none }
        else d.doorbell who a value
      | _, _ => d.doorbell who a value)
    else d
  | none => d

/-! ### Classes (R386) -/

/-- bellows_pending, the holder's own request included while it holds the grant. -/
def Dev.bellowsNow (d : Dev) (i r : Nat) : Bool :=
  d.bellowsPending i r || (match (d.arbI i).holder with
    | some t => decide (r < 16) && t.req == r && (match t.stream with
      | some k => tget d.ray.bellows k 0 == 1
      | none => false)
    | none => false)

/-- Effective class of requester r: 2 real-time, 1 bellows, 0 normal. -/
def Dev.effClass (d : Dev) (i r : Nat) : Nat :=
  let a := d.arbI i
  let below := decide (d.rd ARB_REQ_QUOTA.used i r < a.get (200 + r))
  if a.get (300 + r) = 1 ∧ below then 2 else if d.bellowsNow i r && below then 1 else 0

/-- The requester is at its quota and would compete in a high class. -/
def Dev.atQuota (d : Dev) (i r : Nat) : Bool :=
  ((d.arbI i).get (300 + r) == 1 || d.bellowsNow i r) && decide ((d.arbI i).get (200 + r) ≤ d.rd ARB_REQ_QUOTA.used i r)

/-- The masked flag follows; a requester newly masked counts and is reported. -/
def Dev.updMask (d : Dev) (i r : Nat) : Dev :=
  let was := d.rdb ARB_REQ_STATE.masked i r
  let now := d.atQuota i r
  let d1 := d.wrb ARB_REQ_STATE.masked now i r
  if now && ! was then (d1.count ARB_QUOTA_MASK_CNT.sat ARB_QUOTA_MASK_CNT.count 1 i).raise 352 else d1

/-! ### Grants (R363, R365, R368, R381, R385) -/

/-- A cord starts when the write queue has reached the high watermark (R368); reads granted from now on wait for its end. -/
def Dev.cordCheck (d : Dev) (p : Nat) : Dev :=
  let x := d.pchS p
  if x.cordLow.isNone && decide (d.rd MEM_CORD_WM.high ≤ x.writes.length) then
    (d.setPch p { x with cordLow := some (d.rd MEM_CORD_WM.low), cordFrom := x.granted }).count MEM_CORD_CNT.sat MEM_CORD_CNT.count 1 p
  else d

/-- The target of instance i can accept t (R369, R375, R385). -/
def Dev.accepts (d : Dev) (i : Nat) (t : Txn) : Bool :=
  if i < 64 then
    let x := d.pchS i
    d.pchFailed i || (decide (x.reads.length + x.writes.length < 64) && ! x.training && (! t.write || decide (x.writes.length < 48)))
  else if i < 66 then d.arbOn (d.physPch t.addr) && d.queueRoom (d.physPch t.addr) t.req
  else true

/-- A read at a failed pseudo-channel, or one whose transfer failed, returns its error flag and unstated data (R380, R381). -/
def Dev.readFailed (d : Dev) (t : Txn) : Dev := ({ d with free := d.free + t.len } : Dev).toRequester t true (d.freeBytes t.len)

/-- A granted transaction reaches what the instance guards: at a pseudo-channel it takes a tag, in grant order (R363, R364). -/
def grantEffect (s : State) (i : Nat) (t : Txn) : State :=
  if i < 64 then
    let x := s.dev.pchS i
    if s.dev.pchFailed i then onDev s (fun d => if t.write then d.toRequester t false [] else d.readFailed t)
    else if t.write then
      onDev { s with hbm := hbmPutBytes s.hbm t.addr t.data } (fun d =>
        ((d.setPch i { x with writes := x.writes ++ [{ t with order := x.granted }], granted := x.granted + 1 }).toRequester t false
          []).cordCheck i)
    else
      onDev s (fun d => d.setPch i { x with
        reads := x.reads ++ [{ t with data := hbmGetBytes s.hbm t.addr t.len, order := x.granted }], granted := x.granted + 1 })
  else if i < 66 then onDev s (fun d => d.enqueueTxn (d.physPch t.addr) { t with left := max 1 (t.len / 32) })
  else match t.door with
    | some who => onDev s (fun d => d.doorbell who t.addr (leNat t.data))
    | none => s

/-- R386, R387: requester r ranks above requester b. -/
def Dev.outranks (d : Dev) (i r b : Nat) : Bool :=
  let a := d.arbI i
  let er := d.effClass i r
  let eb := d.effClass i b
  let age (q : Nat) : Nat := match a.queue q with
    | t :: _ => min (a.clock - t.stamp) 65535
    | [] => 0
  decide (eb < er) || (er == eb && (if a.get 0 = 0 then decide (age b < age r) else decide (d.credit i b < d.credit i r)))

/-- The bursts of a whole request at instance i; a request with fewer left has had its grant and was parked (R390). -/
def fullBursts (i : Nat) (t : Txn) : Nat := if i < 66 then max 1 (t.len / 32) else 1

/-- The requesters whose head request the target can accept: none, parked ones included, while the pseudo-channel trains (R375). -/
def Dev.candidates (d : Dev) (i : Nat) : List Nat :=
  if i < 64 ∧ (d.pchS i).training then []
  else (List.range 32).filter (fun r => match (d.arbI i).queue r with
    | t :: _ => t.left != fullBursts i t || d.accepts i t
    | [] => false)

/-- The winner of a decision (R386, R387): the best rank, the lowest number on a tie. -/
def Dev.winner (d : Dev) (i : Nat) : Option Nat :=
  (d.candidates i).foldl (fun o r => match o with
    | none => some r
    | some b => if d.outranks i r b then some r else some b) none

/-- R385: the instance, free, decides; the winner's head request holds the grant and reaches the target. A request whose bursts were
parked has reached it already. -/
def arbDecide (s : State) (i : Nat) : State :=
  if (s.dev.arbI i).holder.isSome then s
  else
    let s0 := onDev s (fun d => forUp 32 (fun r d => if ((d.arbI i).queue r).isEmpty then d else d.updMask i r) d)
    match s0.dev.winner i with
    | none => s0
    | some r =>
      match (s0.dev.arbI i).queue r with
      | [] => s0
      | t :: rest =>
        let first := t.left == fullBursts i t
        let s1 := onDev s0 (fun d =>
          let a := d.arbI i
          let c := d.effClass i r
          let bel := b2n (d.bellowsNow i r)
          (d.setArb i ((((({ a.setQueue r rest with holder := some t }).put 20 c).put 21 bel).put 22 (a.get (300 + r))).put 23 0)).admitHeld
            i r)
        if first then grantEffect s1 i t else s1

/-- R389, R390: after a burst, a priority change to the holder takes effect; a waiting request of a higher class, acceptable to the
target or not, then parks the rest of its bursts, at the head of a full queue too (log entry 161). -/
def Dev.holderChange (d : Dev) (i : Nat) (t : Txn) : Dev :=
  let a := d.arbI i
  let bel := b2n (d.bellowsNow i t.req)
  let cls := a.get (300 + t.req)
  if a.get 21 = bel ∧ a.get 22 = cls ∧ a.get 23 = 0 then d
  else
    let c := d.effClass i t.req
    let d1 := d.setArb i ((((a.put 20 c).put 21 bel).put 22 cls).put 23 0)
    if (List.range 32).any (fun r => ! (a.queue r).isEmpty && decide (c < d1.effClass i r)) then
      let a1 := d1.arbI i
      (((d1.setArb i { a1 with holder := none }).growQueue i t.req (t :: a1.queue t.req)).count ARB_PREEMPT_CNT.sat
        ARB_PREEMPT_CNT.count 1 i).raise 354
    else d1

/-- R388: the holder sends one burst. -/
def Dev.sendBurst (d : Dev) (i : Nat) : Dev :=
  match (d.arbI i).holder with
  | none => d
  | some t =>
    let d1 := d.setCredit i t.req (d.credit i t.req - 1)
    let d2 := if (d1.arbI i).get 20 = 0 then d1
      else (d1.wr ARB_REQ_QUOTA.used (min (d1.rd ARB_REQ_QUOTA.used i t.req + 1) 1023) i t.req).updMask i t.req
    if t.left ≤ 1 then d2.setArb i { d2.arbI i with holder := none }
    else
      let t1 := { t with left := t.left - 1 }
      (d2.setArb i { d2.arbI i with holder := some t1 }).holderChange i t1

/-- One clock of instance i: the holder's burst, then a decision where the target is free. -/
def arbTick (s : State) (i : Nat) : State :=
  arbDecide (onDev s (fun d =>
    let d1 := d.sendBurst i
    d1.setArb i { d1.arbI i with clock := (d1.arbI i).clock + 1 })) i

/-- R388, R391, R392: a window starts at instance i. Where that changes the holder's class, it is a priority change to the holder. -/
def Dev.windowStart (d : Dev) (i : Nat) : Dev :=
  let a := (((d.arbI i).put 0 (d.rd ARB_INST_CFG.mode i)).put 1 (d.rd ARB_INST_CFG.window i)).put 3 (d.arbI i).clock
  let a1 := forUp 32 (fun r a => ((a.put (200 + r) (d.rd ARB_REQ_CFG.quota i r)).put (300 + r) (d.rd ARB_REQ_CFG.class i r)).put (400 + r)
    (d.rd ARB_REQ_CFG.present i r)) a
  let d1 := forUp 32 (fun r d =>
    ((d.setCredit i r (min (d.credit i r) 0 + (d.rd ARB_REQ_CFG.weight i r : Nat))).wr ARB_REQ_QUOTA.used 0 i r).updMask i r)
    (d.setArb i a1)
  match (d1.arbI i).holder with
  | some t => if d1.effClass i t.req = (d1.arbI i).get 20 then d1 else d1.setArb i ((d1.arbI i).put 23 1)
  | none => d1

/-- A write of ARB_INST_CFG[i]: a window below 64 is dropped (R392). -/
def Dev.arbInstWrite (d : Dev) (i v : Nat) : Dev :=
  let d1 := d.wrb ARB_INST_CFG.mode (bit v 31) i
  if v % 2 ^ 16 < 64 then d1 else d1.wr ARB_INST_CFG.window (v % 2 ^ 16) i

/-- A write of ARB_REQ_CFG[i][r]: a class other than 0 and 1 is dropped; a class is in force at the next decision (R392). -/
def Dev.arbReqWrite (d : Dev) (i r v : Nat) : Dev :=
  let d1 := (d.wr ARB_REQ_CFG.quota (bits v 25 16) i r).wr ARB_REQ_CFG.weight (v % 2 ^ 14) i r
  if bits v 31 30 < 2 then
    let d2 := d1.wr ARB_REQ_CFG.class (bits v 31 30) i r
    d2.setArb i ((d2.arbI i).put (300 + r) (bits v 31 30))
  else d1

/-- After a load every instance starts with what ARBITER gives: no request waits, and a window starts (R456's boot state). -/
def Dev.initArbiters (d : Dev) : Dev :=
  forUp 71 (fun i d => d.windowStart i) { d with arb := [] }

/-! ### Pseudo-channels (R363 to R382) -/

/-- Pseudo-channel p's controller runs. -/
def Dev.pchOn (d : Dev) (p : Nat) : Bool := decide (p < 64) && d.unitOn MEM_PCH_STATUS.ent p

/-- R381: physical pseudo-channel p enters the failed set: its reads complete at once with the error flag, its writes are dropped. -/
def Dev.failPch (d : Dev) (p : Nat) : Dev :=
  if d.pchFailed p then d
  else
    let x := d.pchS p
    let d1 := d.wrBit MEM_PCH_FAILED.failed (p % 32) true (p / 32)
    let d2 := (d1.wr MEM_STATUS.failed (countUp 64 d1.pchFailed)).wr MEM_PCH_STATUS.state 2 p
    let d3 := d2.setPch p { x with reads := [], writes := [], cordLow := none, training := false, dueSince := none }
    (x.reads.foldl (fun d t => d.readFailed t) d3).raise 324 true

/-- R381: an uncorrectable error of pseudo-channel p; the fourth within 1 s fails it. -/
def Dev.pchError (d : Dev) (p : Nat) : Dev :=
  let x := d.pchS p
  let recent := d.ticks :: x.errs.filter (fun t => decide (d.ticks < t + 250000000))
  let d1 := d.setPch p { x with errs := recent }
  if 4 ≤ recent.length then d1.failPch p else d1

/-- R380: what an error found on a transfer counts and raises: 1 corrected, 2 uncorrectable, 3 parity retried, 4 parity retry failed. -/
def Dev.transferError (d : Dev) (p err : Nat) : Dev :=
  match err with
  | 1 => (d.count MEM_ECC_CORR_CNT.sat MEM_ECC_CORR_CNT.count 1 p).raise 320
  | 2 => ((d.count MEM_ECC_UNCORR_CNT.sat MEM_ECC_UNCORR_CNT.count 1 p).raise 321).pchError p
  | 4 => ((d.count MEM_PARITY_CNT.sat MEM_PARITY_CNT.count 1 p).raise 322).pchError p
  | _ => d

/-- The transfer's data is lost. -/
def badTransfer (err : Nat) : Bool := err == 2 || err == 4

/-! #### Refresh (R366, R371, R372) -/

/-- A bank of pseudo-channel p is busy: a granted transaction of the bank has still to reach the DRAM. -/
def Dev.bankBusy (d : Dev) (p bank : Nat) : Bool :=
  (d.unreached p).any (fun t => d.dramBank t.addr == bank)

/-- One refresh of a bank is issued, which closes the bank's page (R366). -/
def Dev.refreshBank (d : Dev) (p bank : Nat) : Dev :=
  let x := d.pchS p
  let due := tget x.refreshDue bank 0
  d.setPch p { x with refreshDue := if due ≤ 1 then tdel x.refreshDue bank else tput x.refreshDue bank (due - 1), open_ := tdel x.open_ bank }

/-- A bank whose refresh has been postponed to the limit. -/
def Dev.bankAtLimit (d : Dev) (p : Nat) : Option Nat :=
  (List.range 32).find? (fun b => decide (0 < tget (d.pchS p).refreshDue b 0) && decide (Config.refreshLimit ≤ tget (d.pchS p).refreshDue b 0))

/-- R372: a bank at the limit is refreshed, whatever waits, and counts. -/
def Dev.forcedRefresh (d : Dev) (p bank : Nat) : Dev :=
  (d.refreshBank p bank).count MEM_REF_FORCED_CNT.sat MEM_REF_FORCED_CNT.count 1 p

/-- R371: a due refresh goes to a bank with no waiting transaction, one whose page is closed first; none goes before it is due. -/
def Dev.idleRefresh (d : Dev) (p : Nat) : Dev :=
  let x := d.pchS p
  let free := (List.range 32).filter (fun b => decide (0 < tget x.refreshDue b 0) && ! d.bankBusy p b)
  match free.find? (fun b => (tfind x.open_ b).isNone) with
  | some b => d.refreshBank p b
  | none => (match free with | b :: _ => d.refreshBank p b | [] => d)

/-- A command slot of pseudo-channel p that a refresh may take. -/
def Dev.refreshSlot (d : Dev) (p : Nat) : Dev :=
  match d.bankAtLimit p with
  | some b => d.forcedRefresh p b
  | none => d.idleRefresh p

/-- R371: one more refresh of a bank comes due, at the end of the interval that the stack's temperature asks for, and a slot follows: a
bank at the limit before it goes first (R372); a busy bank's refresh is postponed. -/
def Dev.refreshDue (d : Dev) (p bank : Nat) : Dev :=
  let d0 := d.waitTick (tget (d.pchS p).refAt bank 0 + Config.refreshInterval (d.rdBit MEM_STATUS.temp_high (p / 32)))
  let x := d0.pchS p
  let d1 := d0.setPch p { x with refreshDue := tput x.refreshDue bank (tget x.refreshDue bank 0 + 1), refAt := tput x.refAt bank d0.ticks }
  match d0.bankAtLimit p with
  | some b => d1.forcedRefresh p b
  | none => d1.idleRefresh p

/-! #### Transfers (R363 to R368, R380) -/

/-- R364, R368: a granted read may return: its data is on its way, or its bank's order allows it, and in a cord it was granted before the cord
began, or no write can go before it. -/
def Dev.readReady (d : Dev) (p : Nat) (t : Txn) : Bool :=
  ! t.waits || d.bankFirst p t &&
  ((d.pchS p).cordLow.isNone || decide (t.order < (d.pchS p).cordFrom) || (d.nextWrite p).isNone)

/-- R363, R380: the k-th read in flight at pseudo-channel p returns, if it may. -/
def Dev.readReturn (d : Dev) (p k err : Nat) : Dev :=
  match (d.pchS p).reads[k]? with
  | none => d
  | some t =>
    if d.readReady p t then
      let d1 := if t.waits then d.openPage p t.addr else d
      let d2 := d1.setPch p { d1.pchS p with reads := (d1.pchS p).reads.eraseIdx k }
      ((if badTransfer err then d2.readFailed t else d2.toRequester t false t.data).transferError p err).refreshSlot p
    else d

/-- R368: a cord ends when the write queue has fallen to its low watermark. -/
def Dev.cordDone (d : Dev) (p : Nat) : Dev :=
  let x := d.pchS p
  match x.cordLow with
  | some low => if x.writes.length ≤ low then (d.setPch p { x with cordLow := none }).cordCheck p else d
  | none => d

/-- R363, R364, R367, R380: the first write of pseudo-channel p that its bank's order allows reaches the DRAM: in a cord, or while no
read that could return waits. A write whose transfer fails leaves unknown bytes, under any later queued write to them. -/
def writeRetire (s : State) (p err : Nat) : State :=
  let x := s.dev.pchS p
  match s.dev.nextWrite p with
  | none => s
  | some t =>
    if x.cordLow.isNone && x.reads.any (s.dev.readReady p) then s
    else
      let rest := x.writes.filter (fun u => u.order != t.order)
      let s1 := onDev s (fun d => (d.openPage p t.addr).setPch p { (d.openPage p t.addr).pchS p with writes := rest })
      let s2 := if badTransfer err then
          let later := rest.filter (fun u => decide (t.order < u.order))
          let m := later.foldl (fun m u => hbmPutBytes m u.addr u.data) (hbmPutBytes s1.hbm t.addr (s1.dev.freeBytes t.len))
          onDev { s1 with hbm := m } (fun d => { d with free := d.free + t.len })
        else s1
      onDev s2 (fun d => ((d.transferError p err).cordDone p).refreshSlot p)

/-- R368: the cord of pseudo-channel p drains the write queue to its low watermark and ends. -/
def cordEnd (s : State) (p : Nat) : State :=
  forUp 48 (fun _ s => if (s.dev.pchS p).cordLow.isSome then writeRetire s p 0 else s) s

/-- R375, R376: another pseudo-channel of p's stack is in a training run. -/
def Dev.stackTraining (d : Dev) (p : Nat) : Bool := (List.range 32).any (fun q => (d.pchS (p / 32 * 32 + q)).training)

/-- R376: a due run starts in a training window, with no grant held (R375), during a relight too (R91, log entry 126). The readout holds its
last values from here on (R378). -/
def Dev.trainStart (d : Dev) (p : Nat) : Dev :=
  let x := d.pchS p
  if x.dueSince.isSome && d.trainingWindow && ! d.stackTraining p && ! d.pchFailed p && (d.arbI p).holder.isNone then
    ((d.setPch p { x with training := true }).wr MEM_TRAIN_STATUS.age_ms (d.trainAge p) p).wr MEM_PCH_STATUS.state 1 p
  else d

/-- Some logical pseudo-channel is mapped to physical pseudo-channel p. -/
def Dev.pchUsed (d : Dev) (p : Nat) : Bool := (List.range 64).any (fun l => d.rd MEM_PCH_REMAP.physical l == p)

/-- R378: a run ends with a margin. -/
def Dev.trainEnd (d : Dev) (p margin : Nat) : Dev :=
  let x := d.pchS p
  if x.training then
    let d1 := ((d.setPch p { x with training := false, dueSince := none, lastRun := some d.ticks }).wr MEM_PCH_STATUS.state
      (if d.pchUsed p then 0 else 3) p).wr
      MEM_TRAIN_STATUS.margin margin p
    let d2 := if margin % 256 < d1.rd MEM_TRAIN_CFG.min_margin then d1.raise 325 else d1
    if margin % 256 = 0 then d2.failPch p else d2
  else d

/-- R377: a run due for 10 s, in which no window has come, is deferred; one that has met a window goes on waiting to start. Until the 10 s are
over nothing happens: the lines of the wall groups that have started come first (log entry 135). -/
def Dev.trainDefer (d : Dev) (p : Nat) : Dev :=
  let x := d.pchS p
  match x.dueSince with
  | none => d
  | some t =>
    if x.training || x.seen || d.trainingWindow || decide (d.ticks < t + msTicks 10000) then d
    else ((d.setPch p { x with dueSince := none }).count MEM_TRAIN_DEFER_CNT.sat MEM_TRAIN_DEFER_CNT.count 1 p).raise 326

/-- R370: a write of MEM_CORD_WM. -/
def Dev.cordWmWrite (d : Dev) (v : Nat) : Dev :=
  if bits v 5 0 < bits v 13 8 ∧ bits v 13 8 ≤ 48 then (d.wr MEM_CORD_WM.high (bits v 13 8)).wr MEM_CORD_WM.low (bits v 5 0) else d

/-- R373: stack s reports whether its temperature needs a raised refresh rate. -/
def Dev.tempChange (d : Dev) (s : Nat) (raised : Bool) : Dev :=
  let was := d.rdBit MEM_STATUS.temp_high s
  let d1 := d.wrBit MEM_STATUS.temp_high s raised
  if raised && ! was then d1.raise 327 else d1

/-! ### Commands -/

/-- ARBITER_DECISION (R387): instance i decides, and runs on for so many of its clocks. -/
def execArbiterDecision (i clocks : Nat) (s : State) : Res :=
  if s.dev.arbOn i then .next (forUp clocks (fun _ s => arbTick s i) (arbDecide s i)) else .next s

/-- ARB_WINDOW_START (R388): instance i reaches the end of its window. -/
def execArbWindowStart (i : Nat) (s : State) : Res :=
  if s.dev.arbOn i then
    let a := s.dev.arbI i
    let s1 := forUp (a.get 3 + a.get 1 - a.clock) (fun _ s => arbTick s i) s
    .next (onDev s1 (fun d => d.windowStart i))
  else .next s

/-- HBM_READ_RETURN (R363, R380). -/
def execHbmReadReturn (p k err : Nat) (s : State) : Res :=
  nextDev s (fun d => if d.pchOn p then d.readReturn p k err else d)

/-- HBM_WRITE_RETIRE (R363, R367). -/
def execHbmWriteRetire (p err : Nat) (s : State) : Res := if s.dev.pchOn p then .next (writeRetire s p err) else .next s

/-- CORD_END (R368). -/
def execCordEnd (p : Nat) (s : State) : Res := .next (if s.dev.pchOn p then cordEnd s p else s)

/-- REFRESH_DUE (R371, R372). -/
def execRefreshDue (p bank : Nat) (s : State) : Res := nextDev s (fun d => if d.pchOn p then d.refreshDue p (bank % 32) else d)

/-- HBM_TEMP_CHANGE (R373). -/
def execHbmTempChange (stack : Nat) (raised : Bool) (s : State) : Res :=
  nextDev s (fun d => if d.pchOn (32 * stack) then d.tempChange stack raised else d)

/-- PERIODIC_TRAINING_DUE (R375). -/
def execPeriodicTrainingDue (p : Nat) (s : State) : Res :=
  nextDev s (fun d =>
    if d.pchOn p && ! d.pchFailed p && (d.pchS p).dueSince.isNone then
      let d1 := d.waitTick (((d.pchS p).lastRun.getD 0) + msTicks (d.rd MEM_TRAIN_CFG.interval_ms))
      d1.setPch p { d1.pchS p with dueSince := some d1.ticks, seen := d1.trainingWindow }
    else d)

/-- TRAINING_RUN_START (R376). -/
def execTrainingRunStart (p : Nat) (s : State) : Res := nextDev s (fun d => if d.pchOn p then d.trainStart p else d)

/-- TRAINING_RUN_END (R378). -/
def execTrainingRunEnd (p margin : Nat) (s : State) : Res := nextDev s (fun d => if d.pchOn p then d.trainEnd p margin else d)

/-- TRAINING_DEFER (R377). -/
def execTrainingDefer (p : Nat) (s : State) : Res := nextDev s (fun d => if d.pchOn p then d.trainDefer p else d)

end Sys2Proof.Machine
end

