-- ==== Sys2Proof/Machine/Kiln.lean ====
section
/-!
DEFINITION. The kiln (14_recorder_kiln.md R549 to R557): measurements and their held readouts, quality limits, the
internal reference, corrections that wait for a boundary, and the alarms.
-/
namespace Sys2Proof.Machine

/-- The kiln does its work: it has power and is not held in reset. -/
def Dev.kilnRuns (d : Dev) : Bool := d.rdb GLB_PWR_STATUS.core && ! d.blockHeld 16

/-- R551: mark or clear the readouts that a measurement of item (1 CAL_RES, 2 bias, 3 sensors, 4 monitors, 5 lanes of
port group `inst`, 6 eye of port `inst`) updates. -/
def Dev.kilnCinder (d : Dev) (item inst : Nat) (on : Bool) : Dev :=
  match item with
  | 1 => d.wrb KLN_RES.cinder on
  | 2 => d.wrb KLN_BIAS_STATUS.cinder on
  | 3 => forUp 32 (fun i d => d.wrb KLN_TEMP.cinder on i) d
  | 4 => forUp 8 (fun i d => d.wrb KLN_VMON.cinder on i) d
  | 5 => d.wrb KLN_PG_STATUS.cinder on inst
  | _ => d.wrb TLK_BC_EYE.cinder on inst

/-- A quality figure passes its limit (R554). -/
def Dev.kilnQuality (d : Dev) (exceeds : Bool) : Dev :=
  if exceeds then (d.count KLN_QUALITY_CNT.sat KLN_QUALITY_CNT.count).raise 579 else d

/-- R549, R555: a CAL_RES measurement; `x` is the resistance in units of 2 mΩ, so that 2.000 kΩ is 1,000,000 and the
residual in ppm is x − 1,000,000. -/
def Dev.kilnRes (d : Dev) (x : Int) : Dev :=
  let ppm := x - 1000000
  let d1 := d.wr KLN_RES.residual_ppm (satS 24 ppm)
  let d2 := d1.kilnQuality (decide ((d.rd KLN_CFG.res_limit_ppm : Int) < ppm.natAbs))
  let cause := if 2000000 < x then 1 else if x < 500000 then 2 else if x < 950000 ∨ 1050000 < x then 3 else 0
  if cause ≠ 0 then
    ({ (d2.wr KLN_STATUS.internal 1).wr KLN_STATUS.cause cause with kln := { d2.kln with goodRes := 0 } } : Dev).raise 576 true
  else if d2.rdb KLN_STATUS.internal then
    let good := if ppm.natAbs ≤ 5000 then d2.kln.goodRes + 1 else 0
    let d3 : Dev := { d2 with kln := { d2.kln with goodRes := good } }
    if 3 ≤ good then ((d3.wr KLN_STATUS.internal 0).wr KLN_STATUS.cause 0).raise 577 else d3
  else d2

/-- The nominal values of the monitored rails in mV (16_pins_electrical.md R583). -/
def railNominal : List Nat := [750, 800, 1100, 400, 850, 1200, 900, 1800]

/-- R557: the 32 sensor readings in signed Q8.8 °C. -/
def Dev.kilnTemps (d : Dev) (vals : List Int) : Dev :=
  let d1 := forUp 32 (fun i d => d.wr KLN_TEMP.temp (satS 16 (lget vals i 0)) i) d
  let lim := toS 16 (d.rd KLN_TEMP_LIMIT.limit)
  if (List.range 32).any (fun i => decide (lim ≤ toS 16 (d1.rd KLN_TEMP.temp i))) then d1.raise 580 else d1

/-- R557: the 8 monitor readings in mV. -/
def Dev.kilnMons (d : Dev) (vals : List Int) : Dev :=
  let off (m : Nat) : Bool :=
    let nom := lget railNominal m 0
    let mv := satU 16 (lget vals m 0)
    decide (nom * 105 < mv * 100) || decide (mv * 100 < nom * 95)
  let d1 := forUp 8 (fun m d => (d.wr KLN_VMON.mv (satU 16 (lget vals m 0)) m).wrb KLN_VMON.alarm (off m) m) d
  if (List.range 8).any off then d1.raise 581 else d1

/-! ### Corrections (R552, R553) -/

/-- The key of a setting's code in force. -/
def kilnKey (item inst setting : Nat) : Nat := (item * 256 + inst) * 64 + setting

/-- The code in force of a setting. -/
def Dev.kilnCode (d : Dev) (item inst setting : Nat) : Int := tget d.kln.codes (kilnKey item inst setting) 0

/-- A setting's code comes into force. -/
def Dev.setKilnCode (d : Dev) (item inst setting : Nat) (c : Int) : Dev :=
  { d with kln := { d.kln with codes := tput d.kln.codes (kilnKey item inst setting) c } }

/-- The readouts of the corrections: the lanes' swing (0) and termination (1) codes in force, and whether a correction waits. While a
measurement that updates the readout runs they hold their last value (R551). -/
def Dev.kilnShow (d : Dev) (item inst : Nat) : Dev :=
  if item = 5 ∧ d.rdb KLN_PG_STATUS.cinder inst = false then
    ((d.wr KLN_PG_STATUS.swing (satU 8 (d.kilnCode 5 inst 0)) inst).wr KLN_PG_STATUS.term (satU 8 (d.kilnCode 5 inst 1)) inst).wrb
      KLN_PG_STATUS.deferred (d.kln.waiting.any (fun c => c.item == 5 && c.inst == inst)) inst
  else if item = 2 ∧ d.rdb KLN_BIAS_STATUS.cinder = false then
    d.wrb KLN_BIAS_STATUS.deferred (d.kln.waiting.any (fun c => c.item == 2))
  else d

/-- A measurement's correction: wanted codes by setting; each one that differs from the code in force waits. Where a correction of the resource
waits already, the new codes are its own from now on, and its 10 s go on (R553, log entry 162). -/
def Dev.kilnWant (d : Dev) (item inst : Nat) (codes : List Int) : Dev :=
  let keep := d.kln.waiting.filter (fun c => ! (c.item == item && c.inst == inst))
  let old := d.kln.waiting.find? (fun c => c.item == item && c.inst == inst)
  let new := (List.range codes.length).filterMap (fun i =>
    let cur := d.kilnCode item inst i
    if lget codes i 0 = cur then none
    else some { item := item, inst := inst, setting := i, current := cur, target := lget codes i 0,
                since := (old.map (fun c => c.since)).getD d.ticks, deferred := old.any (fun c => c.deferred) : Correction })
  ({ d with kln := { d.kln with waiting := keep ++ new } } : Dev).kilnShow item inst

/-- The corrections that wait for this item are in force: those of CAL_RES with the next measurement of any item, those of a readout's
scaling (sensors and monitors) with the next readout (R549, R552). -/
def Dev.kilnBring (d : Dev) (item : Nat) : Dev :=
  let d1 := forEach (d.kln.waiting.filter (fun c => c.item == item)) (fun c d => d.setKilnCode item c.inst c.setting c.target) d
  { d1 with kln := { d1.kln with waiting := d1.kln.waiting.filter (fun c => c.item != item) } }

/-- R552: the boundary of the resource a correction changes: a port for the eye items, a port group for the lanes; a
bias generator's owner is a port group (0 to 23), an Ethernet PHY (24 to 27) or the PCIe PHY (28) (log entry 10). The corrections of
CAL_RES, the sensors and the monitors wait for no boundary (`kilnBring`). -/
def Dev.kilnBoundary (d : Dev) (item inst : Nat) : Bool :=
  if item = 1 ∨ item = 3 ∨ item = 4 then false
  else if item = 6 then d.portBoundary inst
  else if inst < 24 then d.portGroupBoundary inst
  else if inst < 28 then ! d.rdb NET_ETH_STATUS.up (inst - 24)
  else ! d.stk.pcieUp

/-- One code nearer. -/
def oneCode (cur target : Int) : Int := if cur < target then cur + 1 else if target < cur then cur - 1 else cur

/-- A waiting correction of this resource whose setting has not moved in the present boundary. -/
def Dev.kilnMovable (d : Dev) (item inst : Nat) (c : Correction) : Bool :=
  c.item == item && c.inst == inst && ! d.kln.moved.contains (kilnKey item inst c.setting)

/-- R553: in one boundary every waiting correction of the resource moves its setting by one code, once. -/
def Dev.kilnApply (d : Dev) (item inst : Nat) : Dev :=
  if d.kilnBoundary item inst then
    let mine := d.kln.waiting.filter (d.kilnMovable item inst)
    let rest := d.kln.waiting.filter (fun c => ! d.kilnMovable item inst c)
    let moved := mine.map (fun c => { c with current := oneCode c.current c.target })
    let d1 := forEach moved (fun c d => d.setKilnCode item inst c.setting c.current) d
    ({ d1 with kln := { d1.kln with waiting := rest ++ moved.filter (fun c => c.current != c.target),
                                    moved := d1.kln.moved ++ mine.map (fun c => kilnKey item inst c.setting) } } : Dev).kilnShow item inst
  else d

/-- R553: a resource that has left its boundary may move each setting by one code more in the next one. It is looked at when a line
starts and when a link comes up, the two ways out of a boundary. -/
def Dev.kilnSweep (d : Dev) : Dev :=
  { d with kln := { d.kln with moved := d.kln.moved.filter (fun k => d.kilnBoundary (k / 16384) (k / 64 % 256)) } }

/-- R553: the correction of the resource that is not fully in force 10 s after it was computed is reported, once. -/
def Dev.kilnDefer (d : Dev) (item inst : Nat) : Dev :=
  let late (c : Correction) : Bool := c.item == item && c.inst == inst && ! c.deferred && decide (10000 ≤ d.msSince c.since)
  if d.kln.waiting.any late then
    ((({ d with kln := { d.kln with waiting := d.kln.waiting.map (fun c => if late c then { c with deferred := true } else c) } } :
      Dev).count KLN_DEFER_CNT.sat KLN_DEFER_CNT.count).raise 578)
  else d

/-! ### The commands -/

/-- A measurement's results reach their readouts (R551, R554, R555, R557). -/
def Dev.kilnReadout (d : Dev) (item inst : Nat) (vals : List Int) : Dev :=
  match item with
  | 1 => d.kilnRes (lget vals 0 0)
  | 2 => d.wr KLN_BIAS_STATUS.worst_err (satU 8 (lget vals 0 0).natAbs)
  | 3 => d.kilnTemps vals
  | 4 => d.kilnMons vals
  | 5 => (d.wr KLN_PG_STATUS.term_err (satS 8 (lget vals 0 0)) inst).kilnQuality
      (decide (d.rd KLN_CFG.term_limit < (lget vals 0 0).natAbs))
  | _ => ((d.wr TLK_BC_EYE.width (satU 8 (lget vals 0 0)) inst).wr TLK_BC_EYE.height (satU 16 (lget vals 1 0)) inst).kilnQuality
      (decide (satU 8 (lget vals 0 0) < d.rd KLN_CFG.eye_limit))

/-- KILN_MEASUREMENT (R550, R551): a measurement of an item starts, with the corrections of CAL_RES in force (R549). -/
def execKilnMeasurement (item inst : Nat) (s : State) : Res :=
  nextDev s (fun d => if d.kilnRuns then ((d.kilnBring 1).wr KLN_STATUS.busy item).kilnCinder item inst true else d)

/-- KILN_MEASUREMENT_DONE (R551): the values measured and the codes the correction wants. -/
def execKilnMeasurementDone (item inst : Nat) (vals codes : List Int) (s : State) : Res :=
  nextDev s (fun d =>
    if d.kilnRuns then
      let d1 := if item = 3 ∨ item = 4 then d.kilnBring item else d
      (((d1.wr KLN_STATUS.busy 0).kilnCinder item inst false).kilnReadout item inst vals).kilnWant item inst codes
    else d)

/-- KILN_CORRECTION_APPLY (R552, R553). -/
def execKilnCorrectionApply (item inst : Nat) (s : State) : Res :=
  nextDev s (fun d => if d.kilnRuns then d.kilnApply item inst else d)

/-- KILN_DEFERRED (R553). -/
def execKilnDeferred (item inst : Nat) (s : State) : Res :=
  nextDev s (fun d => if d.kilnRuns then d.kilnDefer item inst else d)

/-- R556: the corrections of an item that the boot brings into force: from the factory trims and the readings each setting's code
settles by a rule that the manual does not give (`Config.kilnTrimmed`, log entry 122). -/
def Dev.kilnTrim (d : Dev) (trims : List Nat) (item insts settings : Nat) (vals : List Int) : Dev :=
  forUp insts (fun i d => forUp settings (fun k d => d.setKilnCode item i k (Config.kilnTrimmed trims item i k vals)) d) d

/-- R556: the kiln's boot: from the factory trims of OTP words 232 to 255 the first measurements, every correction in
force at once. `groups` holds (termination error, swing code, termination code) by port group, the codes that the row found. -/
def Dev.kilnBoot (d : Dev) (trims : List Nat) (res : Int) (bias : Int) (temps mons : List Int) (groups : List (Int × Int × Int)) : Dev :=
  let d1 := (((d.kilnReadout 1 0 [res]).kilnReadout 2 0 [bias]).kilnReadout 3 0 temps).kilnReadout 4 0 mons
  let d2 := (((d1.kilnTrim trims 1 1 1 [res]).kilnTrim trims 2 29 1 [bias]).kilnTrim trims 3 1 32 temps).kilnTrim trims 4 1 8 mons
  let d3 := forUp groups.length (fun g d =>
    let x := lget groups g (0, 0, 0)
    (((d.kilnReadout 5 g [x.1]).setKilnCode 5 g 0 x.2.1).setKilnCode 5 g 1 x.2.2).kilnShow 5 g) d2
  d3.wr KLN_STATUS.boot_done 1

end Sys2Proof.Machine
end

