-- ==== Sys2Proof/Machine/Linor.lean ====
section
/-!
DEFINITION. Linor surfaces (03_scene_stream.md R120 to R132): plane geometry, prefix codes, block and
block-row decoding with its faults, and the rebuild of dynamic tables. Bytes are read through a function
from section offset to byte, so that every reader (band fetch, map decoder, codec) uses one decoder.
-/
namespace Sys2Proof.Machine

/-! ### Plane formats (R120, R121) -/

/-- The format code's fields. -/
def fmtCompressed (f : Nat) : Bool := bit f 7
def fmtTransfer (f : Nat) : Nat := bits f 6 5
def fmtMatrix (f : Nat) : Nat := bits f 4 3
/-- d: bits per luma and chroma sample. -/
def fmtDepth (f : Nat) : Nat := if bit f 2 then 10 else 8
def fmtSub (f : Nat) : Nat := bits f 1 0

/-- A format code that uses no reserved value. -/
def fmtValid (f : Nat) : Bool := fmtTransfer f != 3 && fmtMatrix f < 2 && fmtSub f != 3

/-- Bits per sample of component k (0 Y, 1 Cb, 2 Cr, 3 A): A always has 8. -/
def compDepth (f k : Nat) : Nat := if k = 3 then 8 else fmtDepth f

/-- Width of component k of a W-wide plane (R120). -/
def compWidth (f w k : Nat) : Nat := if (k = 1 ∨ k = 2) ∧ fmtSub f ≠ 2 then w / 2 else w

/-- Height of component k (R120). -/
def compHeight (f h k : Nat) : Nat := if (k = 1 ∨ k = 2) ∧ fmtSub f = 0 then h / 2 else h

/-- R120's limits on a plane's dimensions. -/
def dimsValid (f w h : Nat) : Bool :=
  decide (32 ≤ w) && decide (w ≤ 16384) && decide (4 ≤ h) && decide (h ≤ 16384) &&
  (fmtSub f == 2 || w % 2 == 0) && (fmtSub f != 0 || h % 2 == 0)

/-- Bytes per uncompressed sample (R121). -/
def sampleBytes (f k : Nat) : Nat := if compDepth f k = 8 then 1 else 2

/-- The pitch of an uncompressed component row (R121). -/
def rowPitch (f w k : Nat) : Nat := (compWidth f w k * sampleBytes f k + 63) / 64 * 64

/-- Block columns and block rows of a component of width w and height h. -/
def blockCols (w : Nat) : Nat := (w + 31) / 32
def blockRows (h : Nat) : Nat := (h + 3) / 4

/-! ### Prefix codes (R125 to R127) -/

/-- The built-in tables 0 to 7 (R126). -/
def builtinTable (n : Nat) : List Nat :=
  match n with
  | 0 => [1, 2, 3, 4, 5, 6, 7, 8, 9, 10, 10]
  | 1 => [2, 1, 3, 4, 5, 6, 7, 8, 9, 10, 10]
  | 2 => [2, 2, 2, 3, 4, 5, 6, 7, 8, 9, 9]
  | 3 => [3, 3, 2, 2, 3, 4, 5, 6, 7, 8, 8]
  | 4 => [4, 4, 3, 2, 2, 3, 4, 5, 6, 7, 7]
  | 5 => [6, 6, 5, 4, 3, 2, 2, 3, 4, 5, 5]
  | 6 => [7, 7, 6, 5, 4, 3, 2, 2, 3, 4, 4]
  | _ => [8, 8, 7, 6, 5, 4, 3, 2, 2, 3, 3]

/-- R127's test of a table: every length in 1 to 12 and Σ 2^(12 − len) = 4,096. -/
def tableValid (lens : List Nat) : Bool :=
  lens.length == 11 && lens.all (fun l => decide (1 ≤ l) && decide (l ≤ 12)) &&
  lens.foldl (fun a l => a + 2 ^ (12 - l)) 0 == 4096

/-- R125: the code of every symbol, as (length, code) in symbol order. -/
def canonCodes (lens : List Nat) : List (Nat × Nat) :=
  let step := forUp 12 (fun l0 (st : Nat × Tab Nat) =>
    let l := l0 + 1
    let st' := forUp 11 (fun s (st : Nat × Tab Nat) =>
      if lget lens s 0 = l then (st.1 + 1, tput st.2 s st.1) else st) st
    (st'.1 * 2, st'.2)) (0, [])
  (List.range 11).map (fun s => (lget lens s 0, tget step.2 s 0))

/-- The symbol whose code is the `l`-bit number `c`, if any. -/
def symOf (codes : List (Nat × Nat)) (l c : Nat) : Option Nat :=
  (List.range 11).find? (fun s => lget codes s (0, 0) == (l, c))

/-! ### Bits of a byte string (R98: most significant bit first) -/

/-- Bit p of the bytes that `rd` reads, counted from bit 7 of byte 0. -/
def bitAt (rd : Nat → Nat) (p : Nat) : Nat := rd (p / 8) / 2 ^ (7 - p % 8) % 2

/-- n bits from bit position p. -/
def bitsAt (rd : Nat → Nat) (p n : Nat) : Nat := forUp n (fun i a => a * 2 + bitAt rd (p + i)) 0

/-- Big-endian field of n bytes at offset o. -/
def beRd (rd : Nat → Nat) (o n : Nat) : Nat := forUp n (fun i a => a * 256 + rd (o + i)) 0

/-- Read one symbol at bit p, no further than bit `lim`: the symbol and the next position. -/
def readSym (rd : Nat → Nat) (codes : List (Nat × Nat)) (lim : Nat) : Nat → Nat → Nat → Nat → Option (Nat × Nat)
  | 0, _, _, _ => none
  | fuel + 1, l, c, p =>
    if lim ≤ p then none
    else
      let c' := c * 2 + bitAt rd p
      match symOf codes (l + 1) c' with
      | some s => some (s, p + 1)
      | none => readSym rd codes lim fuel (l + 1) c' (p + 1)

/-! ### Blocks (R122 to R124) -/

/-- R124's prediction of sample k of a block from the samples before it, latest first. -/
def predict (k : Nat) (prev : List Nat) : Int :=
  let a : Int := (lget prev 0 0 : Nat)
  let b : Int := (lget prev 31 0 : Nat)
  let n : Int := (lget prev 32 0 : Nat)
  if k < 32 then a
  else if k % 32 = 0 then b
  else
    if max a b ≤ n then min a b else if n ≤ min a b then max a b else a + b - n

/-- R124's residual of m. -/
def residual (m : Nat) : Int := if m % 2 = 0 then (m / 2 : Nat) else -(((m + 1) / 2 : Nat) : Int)

/-- Samples 1 to 127 of a CODED payload: latest-first samples, next bit, symbols read. -/
def codedRest (rd : Nat → Nat) (codes : List (Nat × Nat)) (d lim : Nat) :
    Nat → Nat → List Nat → List Nat → Option (List Nat × Nat × List Nat)
  | 0, p, xs, syms => some (xs, p, syms)
  | n + 1, p, xs, syms =>
    match readSym rd codes lim 12 0 0 p with
    | none => none
    | some (s, p') =>
      let eb := s - 1
      if lim < p' + eb then none
      else
        let m := if s = 0 then 0 else 2 ^ eb + bitsAt rd p' eb
        let x := ofS d (predict (128 - (n + 1)) xs + residual m)
        codedRest rd codes d lim n (p' + eb) (x :: xs) (s :: syms)

/-- A CODED payload of `n` bytes from byte `o`: the 128 stored samples and their symbols, or none where
R132 calls it fault 0x22. -/
def decodeCoded (rd : Nat → Nat) (codes : List (Nat × Nat)) (d o n : Nat) : Option (List Nat × List Nat) :=
  let lim := (o + n) * 8
  let p0 := o * 8
  if lim < p0 + d then none
  else
    match codedRest rd codes d lim 127 (p0 + d) [bitsAt rd p0 d] [] with
    | none => none
    | some (xs, p, syms) =>
      if 8 ≤ lim - p ∨ bitsAt rd p (lim - p) ≠ 0 then none else some (xs.reverse, syms)

/-- What a block decoded to. -/
inductive BlockKind where
  | empty | opaque_ | coded | raw
  deriving DecidableEq, Repr

/-- A decoded block: how it decodes, its type bits, its stored samples (CODED and RAW), its fault code or 0,
and its symbols. -/
structure Block where
  kind : BlockKind
  typ : Nat
  samples : List Nat
  fault : Nat
  syms : List Nat
  deriving DecidableEq, Repr

/-- A block that decodes as EMPTY with fault code f. -/
def emptyBlock (typ f : Nat) : Block := ⟨.empty, typ, [], f, []⟩

/-- The type of the block at byte o (R122). -/
def blockType (rd : Nat → Nat) (o : Nat) : Nat := rd o / 64

/-- The size in bytes of the block at byte o whose header lies inside the row (R122). -/
def blockSize (rd : Nat → Nat) (d o : Nat) : Nat :=
  match blockType rd o with
  | 2 => 2 + beRd rd o 2 % 2048
  | 3 => 1 + (128 * d + 7) / 8
  | _ => 1

/-- The block at byte o fits below `e` (R132 0x22). -/
def blockFits (rd : Nat → Nat) (d o e : Nat) : Bool :=
  if blockType rd o = 2 then decide (o + 2 ≤ e) && decide (o + blockSize rd d o ≤ e)
  else decide (o < e) && decide (o + blockSize rd d o ≤ e)

/-- Decode the block of component k at byte o, with d stored bits. -/
def decodeBlock (rd : Nat → Nat) (codes : List (Nat × Nat)) (k d o : Nat) : Block :=
  match blockType rd o with
  | 0 => emptyBlock 0 0
  | 1 => if k = 3 then ⟨.opaque_, 1, [], 0, []⟩ else emptyBlock 1 0x21
  | 2 => match decodeCoded rd codes d (o + 2) (blockSize rd d o - 2) with
    | some (xs, syms) => ⟨.coded, 2, xs, 0, syms⟩
    | none => emptyBlock 2 0x22
  | _ => ⟨.raw, 3, (List.range 128).map (fun i => bitsAt rd ((o + 1) * 8 + i * d) d), 0, []⟩

/-! ### Block rows (R130 to R132) -/

/-- The size of an index entry, E = 16 + 4 × (G − 1). -/
def indexEntryBytes (bc : Nat) : Nat := 16 + 4 * ((bc + 31) / 32 - 1)

/-- The lengths field of the index entry at byte e. -/
def entryLens (rd : Nat → Nat) (e : Nat) : List Nat :=
  (List.range 8).map (fun s => beRd rd (e + 8) 4 / 2 ^ (28 - 4 * s) % 16) ++
  (List.range 3).map (fun s => beRd rd (e + 12) 4 / 2 ^ (28 - 4 * s) % 16)

/-- A decoded stretch of a block row: the first block column, its blocks, and the row's fault (0x23, 0x24). -/
structure RowDec where
  first : Nat
  blocks : List Block
  fault : Nat
  deriving DecidableEq, Repr

/-- Walk blocks from byte o: skip `skip` of them, then decode the rest (R131). `past` is 0 while blocks fit,
1 once a block would extend past the row end and 2 once that fault has been counted; from 1 on every block
is EMPTY and the fault counts once. -/
def walkBlocks (rd : Nat → Nat) (codes : List (Nat × Nat)) (k d e : Nat) :
    Nat → Nat → Nat → Nat → List Block → List Block
  | 0, _, _, _, acc => acc.reverse
  | fuel + 1, skip, o, past, acc =>
    if past ≠ 0 ∨ blockFits rd d o e = false then
      if skip = 0 then
        walkBlocks rd codes k d e fuel 0 o 2 (emptyBlock 0 (if past = 2 then 0 else 0x22) :: acc)
      else walkBlocks rd codes k d e fuel (skip - 1) o 1 acc
    else
      walkBlocks rd codes k d e fuel (skip - 1) (o + blockSize rd d o) 0
        (if skip = 0 then decodeBlock rd codes k d o :: acc else acc)

/-- Decode block columns c0 to c1 − 1 of block row r of a component section of `len` bytes: `bc` block
columns, d stored bits, lengths from the index entry (R130). -/
def decodeRow (rd : Nat → Nat) (len bc k d r c0 c1 : Nat) : RowDec :=
  let eb := indexEntryBytes bc
  let e := r * eb
  let ro := beRd rd e 4
  let rl := beRd rd (e + 4) 4
  let allEmpty (f : Nat) : RowDec := ⟨c0, List.replicate (c1 - c0) (emptyBlock 0 0), f⟩
  if len < e + eb ∨ len < ro + rl then allEmpty 0x23
  else
    let lens := entryLens rd e
    if tableValid lens = false then allEmpty 0x24
    else
      let g := c0 / 32
      let start := if g = 0 then ro else ro + beRd rd (e + 16 + 4 * (g - 1)) 4
      ⟨c0, walkBlocks rd (canonCodes lens) k d (ro + rl) (c1 - g * 32) (c0 - g * 32) start 0 [], 0⟩

/-! ### What a decode reads (R131, R153) -/

/-- The bytes of a block row that a walk from byte o, where block column c begins, reads, as ranges [from, to): each block's header, and
the whole of a block it decodes; it ends at a block that does not fit below `e`. -/
def walkReads (rd : Nat → Nat) (d e : Nat) (decoded : Nat → Bool) : Nat → Nat → Nat → List (Nat × Nat)
  | 0, _, _ => []
  | fuel + 1, c, o =>
    let h := if blockType rd o = 2 then 2 else 1
    if blockFits rd d o e = false then [(min o e, min (o + h) e)]
    else (o, o + (if decoded c then blockSize rd d o else h)) ::
      walkReads rd d e decoded fuel (c + 1) (o + blockSize rd d o)

/-- Ranges in rising order, with those that meet joined and empty ones left out. -/
def joinRanges : List (Nat × Nat) → List (Nat × Nat)
  | [] => []
  | (a, b) :: t =>
    if b ≤ a then joinRanges t
    else match joinRanges t with
      | [] => [(a, b)]
      | (c, f) :: r => if b = c then (a, f) :: r else (a, b) :: (c, f) :: r

/-- The byte ranges of a component section of `len` bytes that a decoder reads of block row r for the runs of block columns `runs`: the
index entry, then the row as far as the entry can be used. -/
def rowReads (rd : Nat → Nat) (len bc d r : Nat) (runs : List (Nat × Nat)) (decoded : Nat → Bool) : List (Nat × Nat) :=
  let eb := indexEntryBytes bc
  let e := r * eb
  let ro := beRd rd e 4
  let rl := beRd rd (e + 4) 4
  let entry := (min len e, min len (e + eb))
  if len < e + eb ∨ len < ro + rl ∨ tableValid (entryLens rd e) = false then [entry]
  else entry :: joinRanges (runs.flatMap (fun c =>
    let g := c.1 / 32
    walkReads rd d (ro + rl) decoded (c.2 - g * 32) (g * 32) (if g = 0 then ro else ro + beRd rd (e + 16 + 4 * (g - 1)) 4)))

/-- R123: the decoded value of stored value v with shift q and d bits. -/
def unshift (d q v : Nat) : Nat := min (v * 2 ^ q + (if q = 0 then 0 else 2 ^ (q - 1))) (2 ^ d - 1)

/-- R122: the value an EMPTY block of component k decodes to. -/
def emptyValue (k d : Nat) (fullRange : Bool) : Nat :=
  if k = 3 then 0 else if k = 0 then (if fullRange then 0 else 16 * 2 ^ (d - 8)) else 128 * 2 ^ (d - 8)

/-- The decoded value of sample (x, y mod 4) of a block (R122, R123). -/
def blockSample (b : Block) (k d q : Nat) (fullRange : Bool) (x y : Nat) : Nat :=
  match b.kind with
  | .empty => emptyValue k d fullRange
  | .opaque_ => 255
  | .coded | .raw => unshift d q (lget b.samples (y % 4 * 32 + x % 32) 0)

/-! ### Dynamic tables (R129) -/

/-- The index s that maximises `better`, first found kept unless a later one is strictly better. -/
def pickBest (cand : List Nat) (better : Nat → Nat → Bool) : Option Nat :=
  cand.foldl (fun o s => match o with
    | none => some s
    | some b => if better s b then some s else some b) none

/-- R129's first lengths: the least l in 1 to 11 with (h + 1) << l ≥ t, else 12. -/
def firstLen (h t : Nat) : Nat :=
  match (List.range 11).find? (fun i => decide (t ≤ (h + 1) * 2 ^ (i + 1))) with
  | some i => i + 1
  | none => 12

/-- The Kraft sum of a table in units of 1 / 4,096. -/
def kraft (lens : List Nat) : Nat := lens.foldl (fun a l => a + 2 ^ (12 - l)) 0

/-- While the sum is too large, lengthen the symbol of least count below 12, ties to the highest. -/
def lengthen (h : List Nat) : Nat → List Nat → List Nat
  | 0, lens => lens
  | fuel + 1, lens =>
    if kraft lens ≤ 4096 then lens
    else
      match pickBest ((List.range 11).filter (fun s => decide (lget lens s 0 < 12)))
          (fun a b => decide (lget h a 0 ≤ lget h b 0)) with
      | none => lens
      | some s => lengthen h fuel (lset lens s (lget lens s 0 + 1))

/-- While the sum is too small, shorten the symbol of greatest count that fits, ties to the lowest. -/
def shorten (h : List Nat) : Nat → List Nat → List Nat
  | 0, lens => lens
  | fuel + 1, lens =>
    if 4096 ≤ kraft lens then lens
    else
      match pickBest ((List.range 11).filter
          (fun s => decide (2 ≤ lget lens s 0) && decide (2 ^ (12 - lget lens s 0) ≤ 4096 - kraft lens)))
          (fun a b => decide (lget h b 0 < lget h a 0)) with
      | none => lens
      | some s => shorten h fuel (lset lens s (lget lens s 0 - 1))

/-- R129: the table rebuilt from a histogram of symbols 0 to 10. -/
def rebuildTable (h : List Nat) : List Nat :=
  let t := 11 + h.foldl (· + ·) 0
  shorten h 132 (lengthen h 132 ((List.range 11).map (fun s => firstLen (lget h s 0) t)))

/-- The histogram of a list of symbols. -/
def histogram (syms : List Nat) : List Nat := (List.range 11).map (fun s => syms.count s)

/-- The histogram R129 takes from a decoded row: every CODED block without fault among the last 256 blocks. -/
def rowHistogram (blocks : List Block) : List Nat :=
  histogram ((blocks.drop (blocks.length - 256)).flatMap
    (fun b => if b.kind = .coded ∧ b.fault = 0 then b.syms else []))

end Sys2Proof.Machine
end

