-- ==== Sys2Proof/Machine/Ingest.lean ====
section
/-!
DEFINITION. Ingest (03_scene_stream.md R98 to R119, R127, R128, R604): datagrams, frame slots, parity repair, admission
with presence and concealment, and loaded tables.
-/
namespace Sys2Proof.Machine

/-! ### Datagram headers -/

/-- R101: frame a is newer than frame b. -/
def newer (a b : Nat) : Bool :=
  let x := (a + 2 ^ 32 - b) % 2 ^ 32
  decide (1 ≤ x) && decide (x < 2 ^ 31)

/-- Wall group g accepts datagrams from Ethernet port e for this UDP port (R99). -/
def Dev.streamPort (d : Dev) (g e udp : Nat) : Bool :=
  d.rdb ING_STREAM_CFG.enable g && d.rdBit ING_STREAM_CFG.eth_mask e g && d.rd ING_STREAM_UDP.udp_port g == udp

/-- A datagram is dropped with an error code: recorded, counted and raised (R99 to R111). -/
def Dev.pktErr (d : Dev) (g code : Nat) : Dev :=
  (((d.wr ING_LAST_ERR.code code).wr ING_LAST_ERR.group g).count ING_PKT_ERR_CNT.sat ING_PKT_ERR_CNT.count 1 g).raise 69

/-- R99: a datagram that no group accepts, on a port in some enabled group's eth_mask. -/
def Dev.unmatched (d : Dev) (e : Nat) : Dev :=
  match (List.range 4).find? (fun g => d.rdb ING_STREAM_CFG.enable g && d.rdBit ING_STREAM_CFG.eth_mask e g) with
  | some g => d.pktErr g 0x08
  | none => d

/-- The packet's payload parameters: P, g and data_bytes. -/
abbrev PktFix := Nat × Nat × Nat

/-- payload_size and group_size are within their ranges (R102, R106). -/
def fixValid (x : PktFix) : Bool :=
  decide (256 ≤ x.1) && decide (x.1 ≤ 8960) && x.1 % 16 == 0 && (x.2.1 == 0 || (decide (2 ≤ x.2.1) && decide (x.2.1 ≤ 32)))

/-! ### FRAME packets (R102) -/

/-- The layer entry at byte o of a FRAME packet. -/
def parseLayer (p : List Byte) (o : Nat) : Layer :=
  let w0 := beAt p o 4
  { id := bits w0 31 24, slot := bits w0 21 16, visible := bit w0 8, fullRange := bit w0 9, fmt := bits w0 7 0,
    width := beAt p (o + 4) 2, height := beAt p (o + 6) 2, off := beAt p (o + 8) 4, len := beAt p (o + 12) 4,
    comp := (List.range 4).map (fun k => beAt p (o + 16 + 4 * k) 4),
    coding := (List.range 4).map (fun k => beAt p (o + 32 + k) 1), shift := beAt p (o + 0x24) 4 % 4 }

/-- The reserved fields of the layer entry at byte o are 0. -/
def layerReserved (p : List Byte) (o : Nat) : Bool :=
  let w0 := beAt p o 4
  bits w0 23 22 == 0 && bits w0 15 10 == 0 && (List.range 4).all (fun k => bits (beAt p (o + 32 + k) 1) 6 4 == 0) &&
  beAt p (o + 0x24) 4 / 4 == 0 && beAt p (o + 0x28) 8 == 0

/-- The end of component k's section within its surface: the next component's start, or the surface's end (R116). -/
def Layer.compEnd (l : Layer) (k : Nat) : Nat := if k < 3 then lget l.comp (k + 1) 0 else l.len

/-- Bytes of component k when it is not compressed (R121). -/
def Layer.rawBytes (l : Layer) (k : Nat) : Nat := compHeight l.fmt l.height k * rowPitch l.fmt l.width k

/-- The layer entry breaks none of R102's rules (R120, R121). -/
def Layer.valid (l : Layer) (dataBytes : Nat) : Bool :=
  fmtValid l.fmt && dimsValid l.fmt l.width l.height && decide (l.off + l.len ≤ dataBytes) &&
  (List.range 4).all (fun k => decide (lget l.comp k 0 < l.compEnd k)) &&
  (fmtCompressed l.fmt || ((List.range 4).all (fun k => lget l.coding k 0 == 0 && decide (lget l.comp k 0 + l.rawBytes k ≤ l.compEnd k))
    && l.shift == 0))

/-- The layers of a FRAME packet. -/
def frameLayers (p : List Byte) : List Layer := (List.range (beAt p 0x1C 4 % 32)).map (fun i => parseLayer p (0x24 + 48 * i))

/-- P, g and data_bytes of a FRAME packet. -/
def frameFix (p : List Byte) : PktFix := (beAt p 0x1C 2, beAt p 0x1E 1, beAt p 0x20 4)

/-- R102's rules but for the size. -/
def frameValid (p : List Byte) : Bool :=
  let n := beAt p 0x1C 4 % 32
  decide (1 ≤ n) && decide (n ≤ 16) && decide (beAt p 0x18 4 < 1000000000) && fixValid (frameFix p) &&
  beAt p 0x10 2 == 0 && bits (beAt p 0x1C 4) 7 5 == 0 && bits (beAt p 0 4) 11 8 == 0 &&
  (List.range n).all (fun i => layerReserved p (0x24 + 48 * i)) && (frameLayers p).all (fun l => l.valid (beAt p 0x20 4))

/-- The presentation time of a FRAME packet in ns. -/
def framePt (p : List Byte) : Nat := (beAt p 0x12 2 * 2 ^ 32 + beAt p 0x14 4) * 1000000000 + beAt p 0x18 4

/-! ### Slots (R111, R112) -/

/-- J of wall group g. -/
def Dev.slotCount (d : Dev) (g : Nat) : Nat := d.rd ING_STREAM_CFG.slots g

/-- The pending slot that holds frame f. -/
def IngGroup.slotOf (x : IngGroup) (f : Nat) : Option (Nat × IngSlot) := x.pending.find? (fun p => p.2.frame == f)

/-- The frames held: pending, scanned, and the concealment source unless taken. -/
def IngGroup.held (x : IngGroup) : List Nat :=
  x.pending.map (fun p => p.2.frame) ++ (x.scan.map (fun a => a.frame)).toList ++
  (if x.taken then [] else (x.source.map (fun a => a.frame)).toList)

/-- Slot s is neither pending, scanned nor held as source. -/
def IngGroup.slotFree (x : IngGroup) (s : Nat) : Bool :=
  (tfind x.pending s).isNone && ! x.scan.any (fun a => a.slot == s) && (x.taken || ! x.source.any (fun a => a.slot == s))

/-- R111: the slot a claim takes, the lowest-numbered free one (log entry 128), and whether it is the spent source's. -/
def Dev.claimable (d : Dev) (g : Nat) : Option (Nat × Bool) :=
  let x := d.ingG g
  match (List.range (d.slotCount g)).find? x.slotFree with
  | some s => some (s, false)
  | none => if x.spent ∧ x.taken = false then x.source.map (fun a => (a.slot, true)) else none

/-- R111: frame f is not newer than every frame held. -/
def IngGroup.older (x : IngGroup) (f : Nat) : Bool := x.held.any (fun h => ! newer f h)

/-- Frame f was dropped whole (R111) or released (R112), and no newer frame is held, for which R111 would give an error: its packets drop
without a code (log entry 68). -/
def IngGroup.gone (x : IngGroup) (f : Nat) : Bool := tget x.dead f 0 == 1 && ! x.older f

/-- Frame f's later packets are dropped without a claim: why is 1 dropped, 2 admitted. -/
def IngGroup.bury (x : IngGroup) (f why : Nat) : IngGroup := { x with dead := tput x.dead f why, fixes := tdel x.fixes f }

/-- R106: P, g and data_bytes as a packet of frame f has fixed them, in its slot or before it has one. -/
def IngGroup.fixOf (x : IngGroup) (f : Nat) : Option PktFix :=
  match x.slotOf f with
  | some p => p.2.fixed
  | none => tfind x.fixes f

/-- R106: a packet of frame f with these values passes the checks: the first such packet fixes them. -/
def Dev.fixFrame (d : Dev) (g f : Nat) (fix : PktFix) : Dev :=
  let x := d.ingG g
  if (x.fixOf f).isSome then d else d.setIng g { x with fixes := tput x.fixes f fix }

/-- R111: the first accepted packet of frame f, with its P, g and data_bytes: the slot it has or claims, or its drop. -/
def Dev.claimSlot (d : Dev) (g f : Nat) (fix : PktFix) : Dev × Option Nat :=
  let x := d.ingG g
  match x.slotOf f with
  | some p => (d, some p.1)
  | none =>
    if x.older f then (d.pktErr g 0x06, none)
    else if tget d.img.mem.slotSize g 0 < fix.2.2 then (d.pktErr g 0x05, none)
    else match d.claimable g with
      | none =>
        (((d.setIng g (x.bury f 1)).count ING_SLOT_OVERFLOW_CNT.sat ING_SLOT_OVERFLOW_CNT.count 1 g).raise 68, none)
      | some (s, spent) =>
        let slot : IngSlot := { frame := f, fixed := some fix, hdr := none, present := [], acc := [], parity := [] }
        (d.setIng g { x with pending := tput x.pending s slot, taken := x.taken || spent, fixes := tdel x.fixes f }, some s)

/-- The pending slot s of group g. -/
def Dev.pendingSlot (d : Dev) (g s : Nat) : IngSlot :=
  tget (d.ingG g).pending s { frame := 0, fixed := none, hdr := none, present := [], acc := [], parity := [] }

/-- Replace pending slot s. -/
def Dev.setSlot (d : Dev) (g s : Nat) (x : IngSlot) : Dev := d.setIng g { d.ingG g with pending := tput (d.ingG g).pending s x }

/-- R112: a frame whose presentation time is not later than that of the last admitted frame is released. -/
def Dev.frameHeader (d : Dev) (g s : Nat) (h : FrameHdr) : Dev :=
  let x := d.ingG g
  let sl := d.pendingSlot g s
  match sl.hdr with
  | some h' => if h'.raw = h.raw then d else d.pktErr g 0x04
  | none =>
    if x.scan.any (fun a => decide (h.pt ≤ a.hdr.pt)) then
      ((d.setIng g ({ x with pending := tdel x.pending s }.bury sl.frame 1)).count ING_LATE_FRAME_CNT.sat
        ING_LATE_FRAME_CNT.count 1 g).raise 67
    else d.setSlot g s { sl with hdr := some h }

/-- The admitted frame f, while it is held. -/
def IngGroup.admitted (x : IngGroup) (f : Nat) : Option Admitted :=
  match x.scan with
  | some a => if a.frame = f then some a else (if x.taken then none else x.source.filter (fun b => b.frame == f))
  | none => none

/-- A FRAME packet that passed R102. -/
def Dev.frameTaken (d : Dev) (g : Nat) (p : List Byte) : Dev :=
  let f := beAt p 8 4
  let x := d.ingG g
  match x.admitted f with
  | some a => if a.hdr.raw = p then d else d.pktErr g 0x04
  | none =>
    if x.gone f then d
    else if (x.fixOf f).any (fun y => y != frameFix p) then d.pktErr g 0x04
    else match (d.fixFrame g f (frameFix p)).claimSlot g f (frameFix p) with
      | (d1, none) => d1
      | (d1, some s) => d1.frameHeader g s { pt := framePt p, layers := frameLayers p, raw := p }

/-! ### DATA and PARITY packets (R106 to R110, R114) -/

/-- R107: packets of a frame, and the span of packet q. -/
def packetCount (x : PktFix) : Nat := if x.1 = 0 then 0 else (x.2.2 + x.1 - 1) / x.1
def packetSpan (x : PktFix) (q : Nat) : Nat := min (q * x.1) x.2.2 - (q - 1) * x.1

/-- R107, R109: the error code of a DATA or PARITY packet with sequence q and payload length n, or 0. A PARITY payload that is not P
bytes long, for which the spec names no code, takes 0x03 (log entry 103). -/
def dataCode (isData : Bool) (x : PktFix) (q n : Nat) : Nat :=
  if isData then (if q < 1 ∨ packetCount x < q then 0x06 else if n ≠ packetSpan x q then 0x03 else 0)
  else if x.2.1 = 0 then 0x04
  else if packetCount x ≤ q * x.2.1 then 0x06
  else if n ≠ x.1 then 0x03
  else 0

/-- Exclusive-or of two payloads of n bytes, each padded with zeros (R109). -/
def xorBytes (n : Nat) (a b : List Byte) : List Byte := (List.range n).map (fun i => a.getD i 0 ^^^ b.getD i 0)

/-- The DATA packets of parity group k, and those of them that are missing. -/
def groupPackets (x : PktFix) (k : Nat) : List Nat :=
  (List.range (min ((k + 1) * x.2.1) (packetCount x) - k * x.2.1)).map (fun i => k * x.2.1 + 1 + i)
def IngSlot.missingOf (sl : IngSlot) (x : PktFix) (k : Nat) : List Nat :=
  (groupPackets x k).filter (fun q => (tfind sl.present q).isNone)

/-- The payload of DATA packet q is written to its slot, and marked present (R13, R107). -/
def storeData (s : State) (g slot q : Nat) (fix : PktFix) (bs : List Byte) : State :=
  let base := tget s.dev.img.mem.slotBase (g * 8 + slot) 0
  let s1 := (writeHbm s 16 (s.dev.blockSecure 2) (base + (q - 1) * fix.1) bs).1
  onDev s1 (fun d =>
    let sl := d.pendingSlot g slot
    let k := (q - 1) / fix.2.1
    d.setSlot g slot { sl with
      present := tput sl.present q 1,
      acc := if fix.2.1 = 0 then sl.acc else tput sl.acc k (xorBytes fix.1 (tget sl.acc k []) bs) })

/-- R110: parity group k with one packet missing and its PARITY present is repaired at once. -/
def repairGroup (s : State) (g slot k : Nat) (fix : PktFix) : State :=
  let sl := s.dev.pendingSlot g slot
  match tfind sl.parity k, sl.missingOf fix k with
  | some par, [q] =>
    let bs := (xorBytes fix.1 par (tget sl.acc k [])).take (packetSpan fix q)
    onDev (storeData s g slot q fix bs) (fun d => d.count ING_REPAIR_CNT.sat ING_REPAIR_CNT.count 1 g)
  | _, _ => s

/-- A DATA or PARITY packet of a frame that holds a slot. A second PARITY packet of a group that is still incomplete takes the first one's
place (log entry 153). -/
def placePacket (s : State) (g slot : Nat) (isData : Bool) (q : Nat) (fix : PktFix) (bs : List Byte) : State :=
  let sl := s.dev.pendingSlot g slot
  if isData then
    if (tfind sl.present q).isSome then onDev s (fun d => d.count ING_DUP_PKT_CNT.sat ING_DUP_PKT_CNT.count 1 g)
    else
      let s1 := storeData s g slot q fix bs
      if fix.2.1 = 0 then s1 else repairGroup s1 g slot ((q - 1) / fix.2.1) fix
  else if (sl.missingOf fix q).isEmpty then s
  else repairGroup (onDev s (fun d => d.setSlot g slot { sl with parity := tput sl.parity q bs })) g slot q fix

/-- R114: a packet of an admitted frame. -/
def Dev.latePacket (d : Dev) (g : Nat) : Dev := (d.count ING_LATE_PKT_CNT.sat ING_LATE_PKT_CNT.count 1 g).raise 70

/-- A DATA or PARITY packet that group g accepts. One too short for its extension drops with 0x03, a length the spec gives no code of
its own (log entry 103). The codes of R107 and R109 come before those of R111 (log entry 131). -/
def dataTaken (s : State) (g : Nat) (p : List Byte) (isData : Bool) : State :=
  let d := s.dev
  let x := d.ingG g
  let f := beAt p 8 4
  let q := beAt p 12 4
  let fix : PktFix := (beAt p 0x10 2, beAt p 0x12 1, beAt p 0x14 4)
  let bs := p.drop 0x18
  if p.length < 0x18 then onDev s (fun d => d.pktErr g 0x03)
  else if fixValid fix = false ∨ beAt p 0x13 1 ≠ 0 then onDev s (fun d => d.pktErr g 0x07)
  else if (x.admitted f).isSome ∨ tget x.dead f 0 = 2 then onDev s (fun d => d.latePacket g)
  else if x.gone f then s
  else if (x.fixOf f).any (fun y => y != fix) then onDev s (fun d => d.pktErr g 0x04)
  else if dataCode isData fix q bs.length ≠ 0 then
    onDev s (fun d => (d.fixFrame g f fix).pktErr g (dataCode isData fix q bs.length))
  else match (d.fixFrame g f fix).claimSlot g f fix with
    | (d1, none) => { s with dev := d1 }
    | (d1, some slot) => placePacket { s with dev := d1 } g slot isData q fix bs

/-! ### Datagrams (R99, R100) -/

/-- A datagram arrives at ingest from Ethernet port e. One that two enabled groups match goes to the lower-numbered (log entry 104); of
several faults the first of 0x01, 0x02, 0x03 shows (log entry 130). -/
def datagram (s : State) (e udp : Nat) (p : List Byte) : State :=
  let d := s.dev
  if p.length < 16 then
    match (List.range 4).find? (fun g => d.streamPort g e udp) with
    | some g => onDev s (fun d => d.pktErr g 0x03)
    | none => onDev s (fun d => d.unmatched e)
  else match (List.range 4).find? (fun g => d.streamPort g e udp && d.rd ING_STREAM_CFG.stream_id g == beAt p 4 2) with
    | none => onDev s (fun d => d.unmatched e)
    | some g =>
      let typ := beAt p 3 1
      if beAt p 0 2 ≠ 0x4656 ∨ beAt p 2 1 / 16 ≠ 1 then onDev s (fun d => d.pktErr g 0x01)
      else if typ < 1 ∨ 3 < typ then onDev s (fun d => d.pktErr g 0x02)
      else if beAt p 6 2 ≠ p.length - 16 then onDev s (fun d => d.pktErr g 0x03)
      else if typ = 1 then
        if p.length < 0x24 ∨ beAt p 6 2 ≠ 20 + 48 * (beAt p 0x1C 4 % 32) then onDev s (fun d => d.pktErr g 0x03)
        else if frameValid p = false then onDev s (fun d => d.pktErr g 0x07)
        else onDev s (fun d => d.frameTaken g p)
      else dataTaken s g p (typ == 2)

/-- Ingest has power and is not held in reset. -/
def Dev.ingRuns (d : Dev) : Bool := d.rdb GLB_PWR_STATUS.core && ! d.blockHeld 2

/-! ### Admission (R19, R113 to R119, R604) -/

/-- The group's loaded table of a coding byte, if it names a loaded table that is not valid in `tabs` (R104). -/
def codingInvalid (tabs : Tab (List Nat)) (l : Layer) : Bool :=
  fmtCompressed l.fmt && l.coding.any (fun c => decide (8 ≤ c % 16) && (tfind tabs (c % 16)).isNone)

/-! ### Schedule entries (R136 to R138) -/

/-- SCHEDULES of wall group g, and the offsets its header gives (log entry 3): schedule table and stream table. -/
def Dev.schedBody (d : Dev) (g : Nat) : List Byte := d.img.body 0x07 g
def Dev.schedTable (d : Dev) (g : Nat) : Nat := d.img.schedAt 2 g
def Dev.streamTable (d : Dev) (g : Nat) : Nat := d.img.schedAt 3 g

/-- A schedule entry. -/
structure SchedEntry where
  valid : Bool
  set : Nat
  u0 : Int
  v0 : Int
  du : Nat
  dv : Nat
  colBase : Int
  colWidth : Nat
  deriving DecidableEq, Repr

/-- The entry at byte o of the section. -/
def parseSched (b : List Byte) (o : Nat) : SchedEntry :=
  { valid := bit (leAt b (o + 4) 4) 31, set := bits (leAt b (o + 4) 4) 20 16, u0 := toS 48 (leAt b o 6),
    v0 := toS 48 (leAt b (o + 8) 6), du := leAt b (o + 16) 4, dv := leAt b (o + 20) 4,
    colBase := toS 32 (leAt b (o + 24) 4), colWidth := leAt b (o + 28) 2 }

/-- The entry of (port n, view, slot). -/
def Dev.sched (d : Dev) (n view slot : Nat) : SchedEntry :=
  parseSched (d.schedBody (d.portGroup n)) (d.schedTable (d.portGroup n) + ((n * 96 + view) * 64 + slot) * 32)

/-- Depth slots in the palette of wall group g: slot_count of its DEPTH_PALETTE. -/
def Dev.paletteCount (d : Dev) (g : Nat) : Nat := leAt (d.img.body 0x06 g) 0 1

/-- R104, R137: the image prepares depth slot k of wall group g: the palette holds it, and every port of the group has a valid entry
for it (log entry 105). -/
def Dev.slotPrepared (d : Dev) (g k : Nat) : Bool :=
  decide (k < d.paletteCount g) && (d.groupPorts g).all (fun n => (List.range 96).any (fun v => (d.sched n v k).valid))

/-- R604: the layer error code of entry i, or 0. -/
def layerCode (prepared : Nat → Bool) (planes : Nat) (tabs : Tab (List Nat)) (ls : List Layer) (i : Nat) (l : Layer) : Nat :=
  if prepared l.slot = false then 0x31
  else if planes ≤ i then 0x32
  else if (ls.take i).any (fun m => m.id == l.id) then 0x33
  else if codingInvalid tabs l then 0x34
  else 0

/-- A layer error is counted, raised and recorded (R604). -/
def Dev.layerErr (d : Dev) (g code : Nat) : Dev :=
  (((d.wr ING_LAST_ERR.code code).wr ING_LAST_ERR.group g).count ING_LAYER_ERR_CNT.sat ING_LAYER_ERR_CNT.count 1 g).raise 72

/-- The frame-area bytes from a to before b are all present. -/
def spanPresent (present : Tab Nat) (P a b : Nat) : Bool :=
  decide (b ≤ a) || P == 0 || (List.range ((b - 1) / P - a / P + 1)).all (fun i => (tfind present (a / P + i + 1)).isSome)

/-- R116: block row r of component k of layer l is present. `m` reads HBM from the slot's base. -/
def rowPresent (mem : Nat → Nat) (present : Tab Nat) (P : Nat) (l : Layer) (k r : Nat) : Bool :=
  let lo := l.off + lget l.comp k 0
  let hi := l.off + l.compEnd k
  if fmtCompressed l.fmt then
    let eb := indexEntryBytes (blockCols (compWidth l.fmt l.width k))
    let br := blockRows (compHeight l.fmt l.height k)
    let rd (o : Nat) : Nat := mem (lo + o)
    let ro := lo + beRd rd (r * eb) 4
    spanPresent present P lo (min hi (lo + br * eb)) &&
    (decide (hi < lo + r * eb + 8) || spanPresent present P (min hi ro) (min hi (ro + beRd rd (r * eb + 4) 4)))
  else
    let pitch := rowPitch l.fmt l.width k
    spanPresent present P (lo + 4 * r * pitch) (min hi (lo + min (4 * r + 4) (compHeight l.fmt l.height k) * pitch))

/-- The key of block row r of component k of layer i. -/
def rowKey (i k r : Nat) : Nat := (i * 4 + k) * 4096 + r

/-- R118: a source layer m conceals rows of layer l. -/
def Layer.conceals (l m : Layer) : Bool :=
  m.id == l.id && m.fmt == l.fmt && m.width == l.width && m.height == l.height && m.coding == l.coding && m.shift == l.shift

/-- R118: what a missing row decodes from: 1 the source's row, 2 EMPTY. -/
def concealKind (src : Option Admitted) (l : Layer) (k r : Nat) : Nat :=
  match src with
  | none => 2
  | some a =>
    match a.hdr.layers.findIdx? l.conceals with
    | some i => if (tfind a.missing (rowKey i k r)).isNone then 1 else 2
    | none => 2

/-- R116 to R118: the missing block rows of a frame's layers. -/
def missingRows (mem : Nat → Nat) (present : Tab Nat) (P : Nat) (whole : Bool) (src : Option Admitted) (ls : List Layer) : Tab Nat :=
  forUp ls.length (fun i t =>
    match ls[i]? with
    | none => t
    | some l => forUp 4 (fun k t => forUp (blockRows (compHeight l.fmt l.height k)) (fun r t =>
        if whole ∨ rowPresent mem present P l k r = false then tput t (rowKey i k r) (concealKind src l k r) else t) t) t) []

/-- The block rows among `t` that count: those of visible layers, or all when R117 applied. -/
def countedRows (whole : Bool) (ls : List Layer) (t : Tab Nat) : List (Nat × Nat) :=
  t.filter (fun p => whole || ((ls[p.1 / 16384]?).any (fun l => l.visible)))

/-- R113: the slot admitted at an admission point: the newest whose presentation time is not later than the coming line 0
(`limit`, in 2⁻¹⁶ ns of the time base). -/
def IngGroup.candidate (x : IngGroup) (limit : Int) : Option (Nat × IngSlot × FrameHdr) :=
  x.pending.foldl (fun o p => match p.2.hdr with
    | none => o
    | some h =>
      if limit < ((h.pt * 65536 : Nat) : Int) then o
      else match o with
        | some (_, b, _) => if newer p.2.frame b.frame then some (p.1, p.2, h) else o
        | none => some (p.1, p.2, h)) none

/-- R128: accepted loaded tables take effect in the group. -/
def Dev.groupTables (d : Dev) (g : Nat) : Dev := d.setIng g { d.ingG g with tables := d.ltab }

/-- R114 to R119: slot s of group g is admitted; `planes` is the active plane count of the coming frame's mode. -/
def admitSlot (s : State) (g planes slot : Nat) (sl : IngSlot) (h : FrameHdr) : State :=
  let d := s.dev
  let x := d.ingG g
  let codes := h.layers.zipIdx.map (fun p => layerCode (d.slotPrepared g) planes d.ltab h.layers p.2 p.1)
  let layers := h.layers.zipIdx.map (fun p => if lget codes p.2 0 = 0 then p.1 else { p.1 with visible := false })
  let fix := sl.fixed.getD (0, 0, 0)
  let missPk := packetCount fix - sl.present.length
  let whole : Bool := decide (1024 < missPk)
  let base := tget d.img.mem.slotBase (g * 8 + slot) 0
  let src := x.scan
  let miss := missingRows (fun o => (hbmGet s.hbm (base + o)).toNat) sl.present fix.1 whole src layers
  let rows := countedRows whole layers miss
  let adm : Admitted := { slot := slot, frame := sl.frame, hdr := { h with layers := layers }, missing := miss, tables := d.ltab }
  let keepNew := x.pending.filter (fun p => p.1 != slot && newer p.2.frame sl.frame)
  let dead := (tput x.dead sl.frame 2).filter (fun p => newer p.1 sl.frame || decide ((sl.frame + 2 ^ 32 - p.1) % 2 ^ 32 ≤ 65536))
  let d1 := d.setIng g { x with pending := keepNew, scan := some adm, source := src, spent := false, taken := false,
                                dead := dead, fixes := x.fixes.filter (fun p => newer p.1 sl.frame), tables := d.ltab }
  let d2 := codes.foldl (fun d c => if c = 0 then d else d.layerErr g c) d1
  let d3 := (((((d2.wr ING_ADMIT_FRAME.frame_number sl.frame g).wr ING_ADMIT_STATUS.repeat 0 g).wrb ING_ADMIT_STATUS.concealed
    (! rows.isEmpty) g).wrb ING_ADMIT_STATUS.emptied (rows.any (fun p => p.2 == 2)) g).wrb ING_ADMIT_STATUS.whole whole g).wr
    ING_ADMIT_STATUS.conceal_rows (min rows.length 0xFFFF) g
  let d4 := if rows.isEmpty then d3 else
    ((d3.count ING_LOST_PKT_CNT.sat ING_LOST_PKT_CNT.count missPk g).count ING_CONCEAL_ROW_CNT.sat ING_CONCEAL_ROW_CNT.count
      rows.length g)
  let d5 := d4.raise 64
  { s with dev := if rows.isEmpty then d5 else d5.raise 65 }

/-- R21: the previous frame is sent again. -/
def Dev.repeatFrame (d : Dev) (g : Nat) (counted : Bool) : Dev :=
  if counted then ((d.wr ING_ADMIT_STATUS.repeat 1 g).count ING_REPEAT_CNT.sat ING_REPEAT_CNT.count 1 g).raise 66 else d

/-- R115: at the end of the active lines of a scan the concealment source becomes spent. -/
def Dev.sourceSpent (d : Dev) (g : Nat) : Dev :=
  if (d.ingG g).source.isSome then d.setIng g { d.ingG g with spent := true } else d

/-! ### Loaded tables (R127) -/

/-- The lengths in table k's shadow registers (index k − 8). -/
def Dev.shadowTable (d : Dev) (i : Nat) : List Nat :=
  let lo := d.rd ING_LTABLE_LO.lengths_lo i
  let hi := d.rd ING_LTABLE_HI.lengths_hi i
  (List.range 8).map (fun s => lo / 2 ^ (28 - 4 * s) % 16) ++ (List.range 3).map (fun s => hi / 2 ^ (8 - 4 * s) % 16)

/-- R127: tables submitted by a write of commit with this mask. -/
def Dev.tableCommit (d : Dev) (mask : Nat) : Dev :=
  forUp 8 (fun i d =>
    if mask.testBit i then
      let t := d.shadowTable i
      if tableValid t then ({ d with ltab := tput d.ltab (8 + i) t } : Dev).wrBit ING_LTABLE_CTRL.valid i true
      else ((d.wr ING_LAST_ERR.code 0x41).wr ING_LAST_ERR.group 0).raise 73
    else d) d

/-! ### The commands -/

/-- FRAME_PACKET (R102, R103, R111, R112): a datagram from Ethernet port e reaches ingest. -/
def execFramePacket (e udp : Nat) (p : List Byte) (s : State) : Res := .next (if s.dev.ingRuns then datagram s e udp p else s)

/-- DATA_PACKET (R106 to R110). -/
def execDataPacket (e udp : Nat) (p : List Byte) (s : State) : Res := .next (if s.dev.ingRuns then datagram s e udp p else s)

/-- PARITY_PACKET (R106, R109, R110). -/
def execParityPacket (e udp : Nat) (p : List Byte) (s : State) : Res := .next (if s.dev.ingRuns then datagram s e udp p else s)

end Sys2Proof.Machine
end

