-- ==== Sys2Proof/Machine/Pulse.lean ====
section
/-!
DEFINITION. Steps of time bases (12_network_time.md R473 to R478), genlock, and timed pulse outputs (R485 to R491).
-/
namespace Sys2Proof.Machine

/-! ### Timing sources -/

/-- The time on a timing source: a wall group's line clock or a time base (R485). -/
def Dev.sourceNow (d : Dev) (line : Bool) (index : Nat) : Nat := if line then (d.lineClock index).toNat else d.tbNow index

/-- The time on an output's source. -/
def Dev.pulseNow (d : Dev) (p : PulseOut) : Nat := d.sourceNow p.line p.index

/-- Time passes until time base b reads t, where that is still ahead. -/
def Dev.waitTb (d : Dev) (b t : Nat) : Dev :=
  let want := t * 2 ^ 32
  let inc := d.tbInc b
  if want ≤ (d.tb b).val ∨ inc = 0 then d else d.advance ((want - (d.tb b).val + inc - 1) / inc)

/-- Time passes until a timing source reads t. -/
def Dev.waitSource (d : Dev) (line : Bool) (index t : Nat) : Dev := if line then d.waitLine index (t : Nat) else d.waitTb index t

/-! ### Timed pulse outputs (R485 to R491) -/

/-- R485: t(n). -/
def PulseOut.at_ (p : PulseOut) (n : Nat) : Nat := p.start + (n * p.num * fuSec + p.den / 2) / p.den

/-- The first n with t(n) at or after t. -/
def PulseOut.firstFrom (p : PulseOut) (t : Nat) : Nat :=
  if t ≤ p.start then 0
  else
    let a := p.num * fuSec
    if a = 0 then 0 else ((t - p.start) * p.den - p.den / 2 + a - 1) / a

def Dev.pulse (d : Dev) (o : Nat) : Option PulseOut := tfind d.net.pulses o
def Dev.setPulse (d : Dev) (o : Nat) (p : PulseOut) : Dev := { d with net := { d.net with pulses := tput d.net.pulses o p } }

/-- NET_TPO_STATUS.armed follows: an output is armed until its last pulse has ended (R489). -/
def Dev.pulseRegs (d : Dev) (o : Nat) (p : PulseOut) : Dev :=
  (d.wrb NET_TPO_STATUS.armed (p.next.isSome || (p.until_.isSome && d.rdb NET_TPO_STATUS.armed o)) o).wrb
    NET_TPO_STATUS.active p.until_.isSome o

/-- The pin's inactive level is high: by the polarity armed with while a pulse is due or in progress, and by the register's otherwise
(R491). -/
def Dev.pulseLow (d : Dev) (o : Nat) : Bool :=
  match d.pulse o with
  | some p => if p.next.isSome || p.until_.isSome then p.low else d.rdb NET_TPO_CTRL.polarity o
  | none => d.rdb NET_TPO_CTRL.polarity o

/-- The level of output o's pin. -/
def Dev.pinHigh (d : Dev) (o : Nat) : Bool := ((d.pulse o).map (fun p => p.until_.isSome)).getD false != d.pulseLow o

/-- The pin goes to the level that is now right, where that is not the level it had. -/
def Dev.movePin (d : Dev) (o : Nat) (was : Bool) : Dev := if d.pinHigh o = was then d else d.emit (.tpo o (d.pinHigh o))

/-- The due pulse of an output begins at source time t. -/
def Dev.pulseRise (d : Dev) (o t : Nat) (p : PulseOut) : Dev :=
  let p1 := { p with until_ := some (t + p.width), next := if p.periodic then p.next.map (· + 1) else none,
                     endLine := p.line, endIndex := p.index }
  (d.setPulse o p1).pulseRegs o p1

/-- The pulse in progress ends; an output with no pulse due is then no longer armed. -/
def Dev.pulseFall (d : Dev) (o : Nat) (p : PulseOut) : Dev :=
  let p1 := { p with until_ := none }
  (d.setPulse o p1).pulseRegs o p1

/-- R487: a once pulse fires at once, late. -/
def Dev.pulseLate (d : Dev) (o : Nat) (p : PulseOut) : Dev :=
  ((d.count NET_TPO_LATE_CNT.sat NET_TPO_LATE_CNT.count 1 o).raise 485).pulseRise o (d.pulseNow p) p

/-- The start time in NET_TPO_START. -/
def Dev.pulseStart (d : Dev) (o : Nat) : Nat :=
  (d.rd NET_TPO_START3.seconds_hi o * 2 ^ 32 + d.rd NET_TPO_START2.seconds_lo o) * fuSec +
  d.rd NET_TPO_START1.nanoseconds o * 65536 + d.rd NET_TPO_START0.fraction o

/-- R488: the arm is refused. -/
def Dev.armRefused (d : Dev) (o : Nat) : Bool :=
  let w := d.rd NET_TPO_WIDTH.width_ns o
  let num := d.rd NET_TPO_PER_NUM.per o
  let den := d.rd NET_TPO_PER_DEN.per o
  decide (w < 8) || num == 0 || den == 0 ||
  (d.rdb NET_TPO_CTRL.mode o && (decide (num * 1000000 < den) || decide (num * 1000000000 ≤ w * den)))

/-- R487, R489: the output is armed with the settings in force; a pulse in progress goes on to its end on the source it began on. -/
def Dev.pulseArm (d : Dev) (o : Nat) : Dev :=
  if d.armRefused o then d.wr NET_TPO_STATUS.err 1 o
  else
    let p : PulseOut :=
      { line := d.rdb NET_TPO_CTRL.src o, index := d.rd NET_TPO_CTRL.index o, low := d.rdb NET_TPO_CTRL.polarity o,
        periodic := d.rdb NET_TPO_CTRL.mode o, start := d.pulseStart o, num := d.rd NET_TPO_PER_NUM.per o,
        den := d.rd NET_TPO_PER_DEN.per o, width := d.rd NET_TPO_WIDTH.width_ns o * 65536, next := some 0,
        until_ := (d.pulse o).bind (fun q => q.until_), endLine := ((d.pulse o).map (fun q => q.endLine)).getD false,
        endIndex := ((d.pulse o).map (fun q => q.endIndex)).getD 0 }
    let d1 := (d.wr NET_TPO_STATUS.err 0 o).wr NET_TPO_STATUS.armed 1 o
    let soon := d1.pulseNow p + 100 * 65536
    if p.periodic then d1.setPulse o { p with next := some (p.firstFrom soon) }
    else if p.start < soon then d1.pulseLate o p
    else d1.setPulse o p

/-- R489: the output stops once any pulse in progress has ended. -/
def Dev.pulseDisarm (d : Dev) (o : Nat) : Dev :=
  let d1 := d.wr NET_TPO_STATUS.armed 0 o
  match d.pulse o with
  | none => d1
  | some p => d1.setPulse o { p with next := none }

/-- A write of NET_TPO_CTRL[o]: disarm wins over arm; the pin of an output that is not armed goes with its polarity (R491). -/
def Dev.tpoCtrlWrite (d : Dev) (o v : Nat) : Dev :=
  let d1 := (((d.wrb NET_TPO_CTRL.src (bit v 16) o).wr NET_TPO_CTRL.index (bits v 13 12) o).wrb NET_TPO_CTRL.polarity (bit v 8) o).wrb
    NET_TPO_CTRL.mode (bit v 0) o
  (if bit v 30 then d1.pulseDisarm o else if bit v 31 then d1.pulseArm o else d1).movePin o (d.pinHigh o)

/-- TPO_EDGE: the source reaches the output's next edge. -/
def Dev.pulseEdge (d : Dev) (o : Nat) : Dev :=
  match d.pulse o with
  | none => d
  | some p =>
    match p.until_, p.next with
    | some t, _ => ((d.waitSource p.endLine p.endIndex t).pulseFall o p).movePin o (d.pinHigh o)
    | none, some n => ((d.waitSource p.line p.index (p.at_ n)).pulseRise o (p.at_ n) p).movePin o (d.pinHigh o)
    | none, none => d

/-- R490: a step of a timing source ends the pulse in progress on it whose end it passed. -/
def Dev.endStepped (d : Dev) (o : Nat) (p : PulseOut) : Dev :=
  match p.until_ with
  | some t => if t < d.sourceNow p.endLine p.endIndex then d.pulseFall o p else d
  | none => d

/-- R490: a forward step of an output's source passed its next edge. -/
def Dev.edgeStepped (d : Dev) (o : Nat) (p : PulseOut) : Dev :=
  match p.next with
  | none => d
  | some n =>
    let now := d.pulseNow p
    if p.periodic then
      let m := max n (p.firstFrom now)
      (d.count NET_TPO_SKIP_CNT.sat NET_TPO_SKIP_CNT.count (m - n) o).setPulse o { p with next := some m }
    else if p.start < now then d.pulseLate o p
    else d

/-- R490: after a step of a source, the end of a pulse in progress on it and the next pulse of an output timed on it. -/
def Dev.pulseStepped (d : Dev) (line : Bool) (index o : Nat) (p : PulseOut) : Dev :=
  let d1 := if p.endLine == line && p.endIndex == index then d.endStepped o p else d
  (match d1.pulse o with
   | some q => if q.line == line && q.index == index then d1.edgeStepped o q else d1
   | none => d1).movePin o (d.pinHigh o)

/-- R490: every output timed on this source. -/
def Dev.pulsesStep (d : Dev) (line : Bool) (index : Nat) : Dev :=
  forUp 8 (fun o d => match d.pulse o with
    | some p => d.pulseStepped line index o p
    | none => d) d

/-- R490: the outputs on the line clocks that a restart of the generators has stepped; `old` is the device before it. -/
def Dev.linesStep (d old : Dev) : Dev :=
  forUp 4 (fun g d => if d.lineClock g = old.lineClock g then d else d.pulsesStep true g) d

/-- R491, R587: the pin of every output goes low, the inactive level of the polarity's Reset entry. -/
def Dev.pinsLow (d : Dev) : Dev := forUp 8 (fun o d => if d.pinHigh o then d.emit (.tpo o false) else d) d

/-- R491: every output is disarmed and its pin goes to the inactive level of the polarity's Reset entry. -/
def Dev.pulsesOff (d : Dev) : Dev :=
  let d1 := d.pinsLow
  { d1 with net := { d1.net with pulses := [] } }

/-! ### Steps of a time base (R473) -/

/-- The step's size as NET_TB_LAST_STEP records it, Δ in 2⁻¹⁶ ns. -/
def stepField (delta : Int) : Nat := ofS 32 (clampI (sarI (delta + 32768) 16) (-0x7FFFFFFF) 0x7FFFFFFF)

/-- Time base b takes the value v (2⁻⁴⁸ ns) in a step of Δ = delta (2⁻¹⁶ ns): it is counted and reported, the line clocks of its wall
groups do not follow it once they have begun (R210), and outputs timed on it, or on a line clock that does follow it, compare again
(R490). -/
def Dev.tbStep (d : Dev) (b : Nat) (v : Int) (delta : Int) : Dev :=
  let d1 := d.setTb b { d.tb b with val := (v % ((tbModulus : Nat) : Int)).toNat }
  let d2 := forUp 4 (fun g d => if d.groupTb g = b ∧ (d.scnG g).begun then
    d.setScn g { d.scnG g with lcDiff := (d.scnG g).lcDiff + delta } else d) d1
  let d3 := ((d2.wr NET_TB_LAST_STEP.step_ns (stepField delta) b).count NET_TB_STEP_CNT.sat NET_TB_STEP_CNT.count 1 b).raise 482
  forUp 4 (fun g d => if d.groupTb g = b ∧ (d.scnG g).begun = false then d.pulsesStep true g else d) (d3.pulsesStep false b)

/-- A step by delta (2⁻¹⁶ ns). -/
def Dev.tbStepBy (d : Dev) (b : Nat) (delta : Int) : Dev :=
  d.tbStep b (((d.tb b).val : Nat) + delta * 2 ^ 32) delta

/-- Time base b is disciplined by the genlock. -/
def Dev.genlock (d : Dev) (b : Nat) : Bool := d.rd NET_TB_CTRL.discipline b == 2

/-- A rate or step write is dropped under GENLOCK. -/
def Dev.tbDropped (d : Dev) (b : Nat) : Dev := d.wr NET_TB_STATUS.wr_dropped 1 b

/-- TB_RATE_WRITE (R472). -/
def Dev.tbRateWrite (d : Dev) (b v : Nat) : Dev := if d.genlock b then d.tbDropped b else d.wr NET_TB_RATE.rate v b

/-- A write of NET_TB_STEP_CTRL[b] (R473): frac is stored; go steps by step_ns and frac, signed together. -/
def Dev.tbStepWrite (d : Dev) (b v : Nat) : Dev :=
  let d1 := d.wr NET_TB_STEP_CTRL.frac (v % 2 ^ 16) b
  if bit v 31 then
    if d1.genlock b then d1.tbDropped b
    else d1.tbStepBy b (toS 32 (d1.rd NET_TB_STEP_NS.step_ns b) * 65536 + ((v % 2 ^ 16 : Nat) : Int))
  else d1

/-- The value in NET_TB_SET, in 2⁻¹⁶ ns. -/
def Dev.tbSetValue (d : Dev) (b : Nat) : Nat :=
  (d.rd NET_TB_SET3.seconds_hi b * 2 ^ 32 + d.rd NET_TB_SET2.seconds_lo b) * fuSec + d.rd NET_TB_SET1.nanoseconds b * 65536 +
  d.rd NET_TB_SET0.fraction b

/-- R473: a set loads the time base or is refused. -/
def Dev.tbSet (d : Dev) (b : Nat) : Dev :=
  if d.genlock b then d.tbDropped b
  else if 999999999 < d.rd NET_TB_SET1.nanoseconds b then d.wr NET_TB_STATUS.set_refused 1 b
  else d.tbStep b ((d.tbSetValue b * 2 ^ 32 : Nat) : Int) (((d.tbSetValue b : Nat) : Int) - ((d.tbNow b : Nat) : Int))

/-- The genlock of time base b starts acquisition from the rate in force (R477). -/
def Dev.acquire (d : Dev) (b : Nat) : Dev :=
  (d.wr NET_TB_CTRL.state 1 b).setTb b { d.tb b with good := 0, last := d.tbNow b, integ := toS 32 (d.rd NET_TB_RATE.rate b) }

/-- A write of NET_TB_CTRL[b]: bandwidth 3 and discipline 3 are dropped; the state is the hardware's under GENLOCK; a set acts under the
discipline now in force (R473, R477, R478). -/
def Dev.tbCtrlWrite (d : Dev) (b v : Nat) : Dev :=
  let was := d.genlock b
  let d1 := (if bits v 9 8 = 3 then d else d.wr NET_TB_CTRL.bandwidth (bits v 9 8) b).wr NET_TB_CTRL.gl_input (bits v 6 4) b
  let d2 := if bits v 1 0 = 3 then d1 else d1.wr NET_TB_CTRL.discipline (bits v 1 0) b
  let d3 := if d2.genlock b then (if was then d2 else d2.acquire b) else d2.wr NET_TB_CTRL.state (bits v 29 28) b
  if bit v 31 then d3.tbSet b else d3

/-! ### Genlock (R477, R478) -/

/-- The grid's period as a fraction of fuSec, and the phase error of time t against the nearest grid point, times p_den. -/
def Dev.glPeriod (d : Dev) (b : Nat) : Nat := d.rd NET_TB_GL_PERIOD.p_num b * fuSec
def Dev.glError (d : Dev) (b t : Nat) : Int :=
  let x : Int := (((t : Nat) : Int) - toS 32 (d.rd NET_TB_GL_OFFSET.offset_ns b) * 65536) * (d.rd NET_TB_GL_PERIOD.p_den b : Nat)
  let p : Int := ((d.glPeriod b : Nat) : Int)
  if p = 0 then 0 else x - (2 * x + p) / (2 * p) * p

/-- |e| is at most n ns. -/
def Dev.glWithin (d : Dev) (b : Nat) (e : Int) (n : Nat) : Bool :=
  decide (e.natAbs ≤ n * 65536 * d.rd NET_TB_GL_PERIOD.p_den b)

/-- ±200 ppm: the bound of the loop's rate (R477). -/
def loopBound (r : Int) : Int := clampI r (-219902326) 219902326

/-- R477: the loop's bandwidth in Hz, as a fraction: that of NET_TB_CTRL.bandwidth, but at most a tenth of the edge rate p_den / p_num. -/
def Dev.loopBandwidth (d : Dev) (b : Nat) : Nat × Nat :=
  let want := 10 ^ d.rd NET_TB_CTRL.bandwidth b
  let num := d.rd NET_TB_GL_PERIOD.p_num b
  let den := d.rd NET_TB_GL_PERIOD.p_den b
  if want * num ≤ den then (want, 10) else (den, 10 * num)

/-- R477: the second-order loop with damping 0.7 takes phase error e: the integral part and the rate that it sets. -/
def Dev.loopTurn (d : Dev) (b : Nat) (e : Int) : Int × Int :=
  let bw := d.loopBandwidth b
  let period := (d.rd NET_TB_GL_PERIOD.p_num b, d.rd NET_TB_GL_PERIOD.p_den b)
  let integ := loopBound ((d.tb b).integ + Config.genlockIntegral bw (7, 10) period e)
  (integ, loopBound (integ + Config.genlockProportional bw (7, 10) period e))

/-- An edge of the genlock's input, stamped t. -/
def Dev.glEdge (d : Dev) (b t : Nat) : Dev :=
  let den := d.rd NET_TB_GL_PERIOD.p_den b
  let e := d.glError b t
  if d.glPeriod b < 4 * e.natAbs ∨ den = 0 then d
  else
    let eNs := clampI (divFloor (2 * e + den * 65536) (2 * den * 65536)) (-0x7FFFFFFF) 0x7FFFFFFF
    let d1 := d.wr NET_TB_GL_ERR.e_ns (satS 32 eNs) b
    let d2 := if d1.rd NET_TB_CTRL.state b = 3 then d1.acquire b else d1
    let good := if d2.glWithin b e 100 then (d2.tb b).good + 1 else 0
    let d3 := d2.setTb b { d2.tb b with good := good, last := d2.tbNow b }
    let d4 := if d3.rd NET_TB_CTRL.state b = 1 ∧ 8 ≤ good then (d3.wr NET_TB_CTRL.state 2 b).raise 483 else d3
    if d4.glWithin b e 1000 then
      let turn := d4.loopTurn b e
      (d4.wr NET_TB_RATE.rate (ofS 32 turn.2) b).setTb b { d4.tb b with integ := turn.1 }
    else d4.tbStepBy b (-(divFloor (2 * e + den) (2 * den)))

/-- R478: no edge fell near 4 consecutive grid points: those after the grid point nearest the last edge, or after acquisition began, which
counts a nearest point whose window was all still to come. -/
def Dev.glLost (d : Dev) (b : Nat) : Dev :=
  let st := d.rd NET_TB_CTRL.state b
  let den := d.rd NET_TB_GL_PERIOD.p_den b
  if d.genlock b && (st == 1 || st == 2) && den != 0 then
    let point : Int := (((d.tb b).last * den : Nat) : Int) - d.glError b (d.tb b).last
    let ahead : Bool := decide (4 * d.glError b (d.tb b).last < -((d.glPeriod b : Nat) : Int))
    let d1 := d.waitTb b ((point + (((if ahead then 13 else 17) * d.glPeriod b / 4 : Nat) : Int)).toNat / den)
    (d1.wr NET_TB_CTRL.state 3 b).raise 484
  else d

end Sys2Proof.Machine
end

