-- ==== Sys2Proof/Machine/Net.lean ====
section
/-!
DEFINITION. Network and time (12_network_time.md): Ethernet links, frame filtering and classification, control queues, and the
commands of time bases, genlock, timed pulses and capture inputs.
-/
namespace Sys2Proof.Machine

/-! ### Links (R463) -/

/-- Ethernet port e runs. -/
def Dev.ethOn (d : Dev) (e : Nat) : Bool := decide (e < 4) && d.unitOn NET_ETH_CTRL.ent e

/-- The port is up. -/
def Dev.ethUp (d : Dev) (e : Nat) : Bool := d.rdb NET_ETH_STATUS.up e

/-- The bits of NET_ETH_STATUS[e] all take one value; a link that comes up ends its kiln boundary (R553). -/
def Dev.ethBits (d : Dev) (e v : Nat) : Dev :=
  ((((d.wr NET_ETH_STATUS.an_done v e).wr NET_ETH_STATUS.trained v e).wr NET_ETH_STATUS.fec_aligned v e).wr
    NET_ETH_STATUS.pcs_locked v e).wr NET_ETH_STATUS.up v e |>.kilnSweep

/-- R463: the port leaves up: frames in flight are dropped, and ETH_LINK_DOWN is raised. -/
def Dev.ethDown (d : Dev) (e : Nat) : Dev :=
  let d1 := d.ethBits e 0
  ({ d1 with net := { d1.net with tx := d1.net.tx.map (fun t => if t.port = e then { t with sent := false } else t) } } : Dev).raise 481

/-- R463: auto-negotiation starts again while the port is enabled. -/
def Dev.ethNegotiate (d : Dev) (e : Nat) : Dev := if d.rdb NET_ETH_CTRL.enable e then d.emit (.negotiate e) else d

/-- A write of NET_ETH_CTRL[e]: enable is stored, a restart takes the port down and negotiates again. -/
def Dev.ethCtrlWrite (d : Dev) (e v : Nat) : Dev :=
  let d1 := d.wrb NET_ETH_CTRL.enable (bit v 0) e
  if bit v 31 then (d1.ethDown e).ethNegotiate e
  else if bit v 0 = false ∧ d1.ethUp e then d1.ethDown e
  else d1

/-! ### Frames (R464 to R466) -/

/-- A frame without its FCS, its EtherType past one 802.1Q tag, the offset of its payload, its VID (none untagged). -/
structure EthFrame where
  bytes : List Byte
  etype : Nat
  off : Nat
  vid : Option Nat
  deriving DecidableEq, Repr

/-- The parts of a frame. -/
def ethParse (b : List Byte) : EthFrame :=
  if beAt b 12 2 = 0x8100 then ⟨b, beAt b 16 2, 18, some (beAt b 14 2 % 4096)⟩ else ⟨b, beAt b 12 2, 14, none⟩

/-- The FCS of a frame is correct (IEEE 802.3): its last four bytes are the CRC-32 of the others, least significant byte first. -/
def fcsOk (b : List Byte) : Bool :=
  leAt b (b.length - 4) 4 == crc32 ((b.take (b.length - 4)).map (fun x => x.toNat))

/-- R464: the destination address is admitted on port e. -/
def Dev.macAdmitted (d : Dev) (e a : Nat) : Bool :=
  a == d.rd NET_ETH_MAC_HI.mac_hi e * 2 ^ 32 + d.rd NET_ETH_MAC_LO.mac_lo e || a == 0xFFFFFFFFFFFF ||
  a == 0x011B19000000 || a == 0x0180C200000E ||
  (List.range 32).any (fun k => d.rdb NET_ETH_MCAST_HI.valid e k &&
    a == d.rd NET_ETH_MCAST_HI.mac_hi e k * 2 ^ 32 + d.rd NET_ETH_MCAST_LO.mac_lo e k)

/-- R464: the tag is admitted on port e. -/
def Dev.vlanAdmitted (d : Dev) (e : Nat) (vid : Option Nat) : Bool :=
  let want := d.rd NET_ETH_VLAN.vid e
  if want = 0 then vid == none || vid == some 0 else vid == some want

/-- The 16-bit one's complement sum of bytes, folded. -/
def onesSum (b : List Byte) : Nat :=
  let s := sumUp ((b.length + 1) / 2) (fun i => (b.getD (2 * i) 0).toNat * 256 + (b.getD (2 * i + 1) 0).toNat)
  let f (x : Nat) : Nat := x % 65536 + x / 65536
  f (f (f s))

/-- The IP version of a frame (0 for none), and its IPv4 header length. -/
def EthFrame.ip (f : EthFrame) : Nat := if f.etype = 0x0800 then 4 else if f.etype = 0x86DD then 6 else 0
def EthFrame.ihl (f : EthFrame) : Nat := beAt f.bytes f.off 1 % 16 * 4

/-- What the chain of IPv6 headers of a frame ends in: the offset of a UDP header, and whether a Fragment header and any extension header
stood before it. -/
structure Ip6Chain where
  udp : Option Nat
  fragment : Bool
  extended : Bool
  deriving DecidableEq, Repr

/-- The chain from a header with number `nh` at byte o on (log entry 120): Hop-by-Hop, Routing, Destination, Mobility, HIP and Shim6 headers
count their length in 8 bytes, Authentication in 4; past a Fragment header other than the first fragment's nothing is read. -/
def ip6Walk (b : List Byte) : Nat → Nat → Nat → Ip6Chain → Ip6Chain
  | 0, _, _, c => c
  | fuel + 1, nh, o, c =>
    if b.length ≤ o then c
    else if nh = 17 then { c with udp := some o }
    else if nh = 44 then
      (if beAt b (o + 2) 2 / 8 = 0 then ip6Walk b fuel (beAt b o 1) (o + 8) { c with fragment := true, extended := true }
       else { c with fragment := true, extended := true })
    else if nh = 0 ∨ nh = 43 ∨ nh = 60 ∨ nh = 135 ∨ nh = 139 ∨ nh = 140 then
      ip6Walk b fuel (beAt b o 1) (o + 8 + 8 * beAt b (o + 1) 1) { c with extended := true }
    else if nh = 51 then ip6Walk b fuel (beAt b o 1) (o + 8 + 4 * beAt b (o + 1) 1) { c with extended := true }
    else c

/-- The header chain of an IPv6 frame; none of any other frame. -/
def EthFrame.chain (f : EthFrame) : Ip6Chain :=
  if f.ip = 6 then ip6Walk f.bytes 1200 (beAt f.bytes (f.off + 6) 1) (f.off + 40) ⟨none, false, false⟩ else ⟨none, false, false⟩

/-- The frame is an IP fragment. -/
def EthFrame.fragment (f : EthFrame) : Bool := (f.ip == 4 && beAt f.bytes (f.off + 6) 2 % 2 ^ 14 != 0) || f.chain.fragment

/-- The offset of the frame's UDP header. -/
def EthFrame.udpOff (f : EthFrame) : Option Nat :=
  if f.ip = 4 then
    (if beAt f.bytes (f.off + 9) 1 = 17 ∧ beAt f.bytes (f.off + 6) 2 % 2 ^ 13 = 0 then some (f.off + f.ihl) else none)
  else f.chain.udp

/-- R465 order 3: the IPv4 header checksum fails. -/
def EthFrame.headerBad (f : EthFrame) : Bool :=
  f.ip == 4 && (decide (f.ihl < 20) || onesSum (slice f.bytes f.off f.ihl) != 0xFFFF)

/-- R465 order 3, R466: the UDP checksum fails. -/
def EthFrame.udpBad (f : EthFrame) : Bool :=
  match f.udpOff with
  | none => false
  | some u =>
    let len := beAt f.bytes (u + 4) 2
    if beAt f.bytes (u + 6) 2 = 0 then f.ip == 6
    else
      let addrs := if f.ip = 4 then slice f.bytes (f.off + 12) 8 else slice f.bytes (f.off + 8) 32
      onesSum (addrs ++ beBytes 2 17 ++ beBytes 2 len ++ slice f.bytes u len) != 0xFFFF

/-- Where R465 sends an accepted frame. -/
inductive EthDest where
  | ptp (msg : Nat) (transport : Nat)
  | fragment | checksum
  | control
  | ingest (udp off len : Nat)
  | untyped
  deriving DecidableEq, Repr

/-- R465: the first destination that fits; UDP over IPv6 with extension headers is no frame of ingest's and goes to the control queue. -/
def Dev.ethClassify (d : Dev) (e : Nat) (f : EthFrame) : EthDest :=
  let port := match f.udpOff with
    | some u => beAt f.bytes (u + 2) 2
    | none => 0
  let u := f.udpOff.getD 0
  if f.etype = 0x88F7 then .ptp f.off 2
  else if port = 319 ∨ port = 320 then .ptp (u + 8) (if f.ip = 4 then 0 else 1)
  else if f.fragment then .fragment
  else if f.headerBad || f.udpBad then .checksum
  else if f.udpOff.isSome then
    if f.chain.extended || (List.range 8).any (fun k => d.rdb NET_ETH_CTRL_UDP.valid e k && d.rd NET_ETH_CTRL_UDP.udp_port e k == port) then
      .control
    else .ingest port (u + 8) (beAt f.bytes (u + 4) 2 - 8)
  else if f.ip ≠ 0 ∨ f.etype = 0x0806 ∨ f.etype = 0x88CC then .control
  else .untyped

/-- R479: the time base whose PTP queue takes a message. -/
def Dev.ptpQueue (d : Dev) (e transport : Nat) (msg : List Byte) : Option Nat :=
  if beAt msg 1 1 % 16 ≠ 2 then none
  else (List.range 4).find? (fun b => d.rdb NET_TB_PTP.enable b && d.rd NET_TB_PTP.domain b == beAt msg 4 1 &&
    d.rdBit NET_TB_PTP.port_mask e b && d.rd NET_TB_PTP.transport b == transport)

/-- A PTP event message (R481). -/
def ptpEvent (msg : List Byte) : Bool := decide (beAt msg 0 1 % 16 < 4)

/-! ### Control queues (R468 to R470, R482 to R484) -/

/-- S, modulus, entries and slot address of a control queue. -/
def Dev.qSize (d : Dev) (q : Nat) : Nat := 2 ^ d.rd NET_Q_CFG.size_log2 q
def Dev.qMod (d : Dev) (q : Nat) : Nat := 2 * d.qSize q
def Dev.qFill (d : Dev) (q : Nat) : Nat :=
  (d.rd NET_Q_HEAD.index q + d.qMod q - d.rd NET_Q_TAIL.index q % d.qMod q) % d.qMod q
def Dev.qAddr (d : Dev) (q i : Nat) : Nat :=
  d.rd NET_Q_BASE_HI.base_hi q * 2 ^ 32 + d.rd NET_Q_BASE_LO.base_lo q + i % d.qSize q * 2048

/-- A stamp at time t with its uncertainty: err is the error of this stamp, within ±bound, all in 2⁻¹⁶ ns. -/
def stampAt (t : Nat) (corr err : Int) (bound : Nat) : Nat := (((t : Nat) : Int) + corr + clampI err (-(bound : Int)) bound).toNat

/-- A time in ps, in 2⁻¹⁶ ns, rounded half up (R5). -/
def psUnits (t : Int) : Int := divFloor (t * 65536 + 500) 1000

/-- R482: the asymmetry fields: ingress is subtracted from a receive stamp, egress added to a transmit stamp. -/
def Dev.ingressCorr (d : Dev) (e : Nat) : Int := -psUnits (toS 16 (d.rd NET_ETH_ASYM.ingress_ps e))
def Dev.egressCorr (d : Dev) (e : Nat) : Int := psUnits (toS 16 (d.rd NET_ETH_ASYM.egress_ps e))

/-- R483: the fixed correction of a MAC stamp. -/
def macFix (rx : Bool) : Int := psUnits (if rx then -286400 else 98600)

/-- R483: the MAC stamp of a frame whose message timestamp point crossed the balls at t, as the PCS measures it (within pcsErr): its first
byte crosses the MAC client interface the fixed correction away from that, within the uncertainty against the PCS stamp, and the stamp takes
both corrections from there. -/
def macStamp (rx : Bool) (t : Nat) (asym pcsErr err : Int) : Nat :=
  let bound : Int := psUnits (if rx then 10400 else 2400)
  let crossing : Int := ((t : Nat) : Int) + clampI pcsErr (-65536) 65536 - macFix rx + clampI err (-bound) bound
  (crossing + macFix rx + asym).toNat

/-- The slot header (R470's table). -/
def slotHeader (len port tb : Nat) (pcs : Option Nat) (req ovf sent : Bool) (mac : Nat) : List Byte :=
  leBytes 4 (len + port * 2 ^ 16 + tb * 2 ^ 18 + b2n pcs.isSome * 2 ^ 24 + b2n req * 2 ^ 25 + b2n ovf * 2 ^ 26 + b2n sent * 2 ^ 27) ++
  (timeWords (pcs.getD 0)).flatMap (leBytes 4) ++ (timeWords mac).flatMap (leBytes 4) ++ List.replicate 36 0

/-- R469: a frame is dropped at queue q. -/
def Dev.queueDrop (d : Dev) (q : Nat) : Dev := (d.count NET_Q_DROP_CNT.sat NET_Q_DROP_CNT.count 1 q).raise 490

/-- Pending PCS stamps of port e (R484): frames with one whose slot has not completed. -/
def pendingStamps (l : List EthSlot) (e : Nat) : Nat := l.countP (fun x => x.port == e && x.event)

/-- R469, R482 to R484: a frame that arrived at port e joins receive queue q, stamped on time base tb; `event` for a PTP event message. -/
def Dev.enqueueFrame (d : Dev) (q e tb : Nat) (f : List Byte) (event : Bool) (pcsErr macErr : Int) : Dev :=
  let waiting := d.net.rx.countP (fun x => x.queue == q)
  if 1984 < f.length ∨ d.qSize q ≤ d.qFill q + waiting then d.queueDrop q
  else
    let ovf := event && decide (16 ≤ pendingStamps d.net.rx e)
    let takes := event && ! ovf
    let t := d.tbNow tb
    let pcs := if takes then some (stampAt t (d.ingressCorr e) pcsErr 65536) else none
    let mac := macStamp true t (d.ingressCorr e) pcsErr macErr
    let d1 := if ovf then (d.count NET_ETH_STAMP_OVF_CNT.sat NET_ETH_STAMP_OVF_CNT.count 1 e).raise 489 else d
    let slot : EthSlot :=
      { queue := q, index := (d.rd NET_Q_HEAD.index q + waiting) % d.qMod q, port := e,
        bytes := slotHeader f.length e tb pcs false ovf false mac ++ f, sent := false, stamp := 0, event := takes,
        frame := [], ovf := ovf }
    { d1 with net := { d1.net with rx := d1.net.rx ++ [slot] } }

/-- A counter of Ethernet port e counts one frame. -/
def Dev.ethCount (d : Dev) (sat cnt : Fld) (e : Nat) : Dev := d.count sat cnt 1 e

/-- R464 to R466, R479: a frame, FCS included, arrives at port e. -/
def frameReceive (s : State) (e : Nat) (b : List Byte) (pcsErr macErr : Int) : State :=
  let d := s.dev
  let f := ethParse (b.take (b.length - 4))
  if b.length < 64 ∨ 9216 < b.length then onDev s (fun d => d.ethCount NET_ETH_SIZE_ERR_CNT.sat NET_ETH_SIZE_ERR_CNT.count e)
  else if fcsOk b = false then onDev s (fun d => d.ethCount NET_ETH_FCS_ERR_CNT.sat NET_ETH_FCS_ERR_CNT.count e)
  else if f.etype = 0x8808 then onDev s (fun d => d.ethCount NET_ETH_MACCTL_DROP_CNT.sat NET_ETH_MACCTL_DROP_CNT.count e)
  else if (d.macAdmitted e (beAt b 0 6) && d.vlanAdmitted e f.vid) = false then
    onDev s (fun d => d.ethCount NET_ETH_FILTER_DROP_CNT.sat NET_ETH_FILTER_DROP_CNT.count e)
  else match d.ethClassify e f with
    | .ptp o tr =>
      let msg := f.bytes.drop o
      (match d.ptpQueue e tr msg with
      | some q => onDev s (fun d => d.enqueueFrame q e q f.bytes (ptpEvent msg) pcsErr macErr)
      | none => onDev s (fun d => d.ethCount NET_ETH_PTP_DROP_CNT.sat NET_ETH_PTP_DROP_CNT.count e))
    | .fragment => onDev s (fun d => d.ethCount NET_ETH_FRAG_DROP_CNT.sat NET_ETH_FRAG_DROP_CNT.count e)
    | .checksum => onDev s (fun d => d.ethCount NET_ETH_CSUM_ERR_CNT.sat NET_ETH_CSUM_ERR_CNT.count e)
    | .control => onDev s (fun d => d.enqueueFrame (4 + e) e (d.rd NET_EVT_TB.tb) f.bytes false pcsErr macErr)
    | .ingest udp o len => if s.dev.ingRuns then datagram s e udp (slice f.bytes o len) else s
    | .untyped => onDev s (fun d => d.ethCount NET_ETH_TYPE_DROP_CNT.sat NET_ETH_TYPE_DROP_CNT.count e)

/-- The network's accesses to control queues: its world is that of block NET (log entry 13). -/
def netReq : Nat := 16
def netWrite (s : State) (a : Nat) (b : List Byte) : State := (writeHbm s netReq (s.dev.blockSecure 13) a b).1
def netRead (s : State) (a n : Nat) : State × Bool × List Byte := readHbm s netReq (s.dev.blockSecure 13) a n

/-- R469: the oldest frame waiting for queue q has its slot complete; head advances and QUEUEq is raised. -/
def queueDeliver (s : State) (q : Nat) : State :=
  match s.dev.net.rx.find? (fun x => x.queue == q) with
  | none => s
  | some x =>
    let s1 := netWrite s (s.dev.qAddr q x.index) x.bytes
    onDev s1 (fun d => ((({ d with net := { d.net with rx := d.net.rx.erase x } } : Dev).wr NET_Q_HEAD.index
      ((x.index + 1) % d.qMod q) q).raise (496 + q)))

/-- The frames of transmit queue q that are under way: taken, and their slots not yet passed by tail. -/
def Dev.txUnderWay (d : Dev) (q : Nat) : Nat := d.net.tx.countP (fun x => x.queue == q)

/-- R470: transmit queue q has a frame that is not yet under way. -/
def Dev.txReady (d : Dev) (q : Nat) : Bool := decide (d.txUnderWay q < d.qFill q)

/-- R470: no other transmit queue that is ready comes before queue q in turn. -/
def Dev.txTurn (d : Dev) (q : Nat) : Bool :=
  (List.range 8).all (fun k => ! d.txReady (8 + k) || decide ((q + 15 - d.net.turn) % 8 ≤ (8 + k + 15 - d.net.turn) % 8))

/-- R470: the next frame of transmit queue q is taken when the queue's turn has come, and starts to leave where its slot allows. An event
message that is to be stamped takes its place among the port's 16 pending PCS stamps, or finds them full (R484). -/
def transmitFrame (s : State) (q : Nat) : State :=
  if s.dev.txReady q = false ∨ s.dev.txTurn q = false then s
  else
    let i := (s.dev.rd NET_Q_TAIL.index q + s.dev.txUnderWay q) % s.dev.qMod q
    let (s1, err, h) := netRead s (s.dev.qAddr q i) 64
    let len := leAt h 0 4 % 2 ^ 16
    let port := bits (leAt h 0 4) 17 16
    let ok := ! err && decide (14 ≤ len) && decide (len ≤ 1984) && s1.dev.ethUp port
    let (s2, err2, f) := if ok then netRead s1 (s.dev.qAddr q i + 64) len else (s1, false, [])
    let sent := ok && ! err2
    let p := ethParse f
    let event := match s2.dev.ethClassify port p with
      | .ptp o _ => ptpEvent (f.drop o)
      | _ => false
    let due := event && sent && bit (leAt h 0 4) 25
    let ovf := due && decide (16 ≤ pendingStamps s2.dev.net.tx port)
    let slot : EthSlot :=
      { queue := q, index := i, port := port, bytes := h, sent := sent,
        stamp := s2.dev.tbNow (bits (leAt h 0 4) 19 18), event := due && ! ovf, frame := f, ovf := ovf }
    onDev s2 (fun d =>
      let d1 := if ovf then (d.count NET_ETH_STAMP_OVF_CNT.sat NET_ETH_STAMP_OVF_CNT.count 1 port).raise 489 else d
      { d1 with net := { d1.net with tx := d1.net.tx ++ [slot], turn := q } })

/-- R470: a frame as it leaves, its FCS appended (IEEE 802.3). -/
def withFcs (b : List Byte) : List Byte := b ++ leBytes 4 (crc32 (b.map (fun x => x.toNat)))

/-- R470, R482, R483: the oldest frame under way on queue q has left, or was not sent or dropped with its link (R463); its stamps are written, and
the tail advances. -/
def transmitComplete (s : State) (q : Nat) (pcsErr macErr : Int) : State :=
  match s.dev.net.tx.find? (fun x => x.queue == q) with
  | none => s
  | some x =>
    let w := leAt x.bytes 0 4
    let req := bit w 25
    let corr := s.dev.egressCorr x.port
    let pcs := if x.sent && x.event then some (stampAt x.stamp corr pcsErr 65536) else none
    let hdr := if x.sent && req then
        slotHeader (w % 2 ^ 16) x.port (bits w 19 18) pcs true x.ovf true (macStamp false x.stamp corr pcsErr macErr)
      else leBytes 4 (clearBits w (2 ^ 27) + b2n x.sent * 2 ^ 27) ++ x.bytes.drop 4
    let s1 := netWrite s (s.dev.qAddr q x.index) hdr
    onDev s1 (fun d =>
      let d1 := if x.sent then d.emit (.eth x.port (withFcs x.frame)) else d
      (({ d1 with net := { d1.net with tx := d1.net.tx.erase x } } : Dev).wr NET_Q_TAIL.index ((x.index + 1) % d1.qMod q) q).raise
        (496 + q))

/-- R468: a write of NET_Q_HEAD (transmit) or NET_Q_TAIL (receive) by the queue's owner, under R439 and R440. -/
def Dev.queueWrite (d : Dev) (who : Initiator) (q : Nat) (head : Bool) (v : Nat) : Dev :=
  let m := d.qMod q
  let owner : Bool := endpointOf who == some (d.rd NET_Q_CFG.owner q) && d.rdb NET_Q_CFG.dir q == head
  let old := d.rd (if head then NET_Q_HEAD.index else NET_Q_TAIL.index) q
  let adv := (v % 2 ^ 13 % m + m - old % m) % m
  if owner && (if head then decide (1 ≤ adv) && decide (adv ≤ d.qSize q - d.qFill q) else decide (adv ≤ d.qFill q)) then
    d.wr (if head then NET_Q_HEAD.index else NET_Q_TAIL.index) (v % 2 ^ 13 % m) q
  else d.ringErr

/-! ### Capture inputs (R492 to R494) -/

/-- A capture input counts a dropped edge. -/
def Dev.captureDrop (d : Dev) (c : Nat) : Dev := (d.count NET_CAP_OVF_CNT.sat NET_CAP_OVF_CNT.count 1 c).raise 487

/-- R492: the filter time of capture input c, in ns. -/
def Dev.capFilter (d : Dev) (c : Nat) : Nat := lget [0, 10, 100, 1000] (d.rd NET_CAP_CTRL.filter c) 0

/-- R492: the stamp of an edge that input c recognises now: the level first crossed one filter time ago, on the input's time base, within
1 ns. -/
def Dev.captureStamp (d : Dev) (c : Nat) : Nat :=
  let b := d.rd NET_CAP_CTRL.tb c
  stampAt (((d.tb b).val - d.capFilter c * d.tbInc b / 4) / 2 ^ 32) 0 (freeErr d.free 65536) 65536

/-- Input c recognises an edge: a genlock that uses the input acts on its stamp, and the stamp is held or dropped. -/
def Dev.captureEdge (d : Dev) (c : Nat) (rising : Bool) : Dev :=
  let d0 := d.wrb NET_CAP_STATUS.level rising c
  let sel := d.rd NET_CAP_CTRL.edge c
  if d.rdb NET_CAP_CTRL.enable c && (if rising then sel == 1 || sel == 3 else sel == 2 || sel == 3) then
    let t := d.captureStamp c
    let d0 := d0.nextFree
    let close := match tfind d.net.stamps c with
      | some l => decide (l ≤ t) && decide (t - l < 50 * 65536)
      | none => false
    if close then d0.captureDrop c
    else
      let fifo := tget d.net.capFifo c []
      let d1 := if 16 ≤ fifo.length then d0.captureDrop c
        else ({ d0 with net := { d0.net with capFifo := tput d0.net.capFifo c (fifo ++ [(t, rising)]),
                                             stamps := tput d0.net.stamps c t } } : Dev).raise 486
      forUp 4 (fun b d => if d.genlock b ∧ d.rd NET_TB_CTRL.gl_input b = c then d.glEdge b t else d) d1
  else d0

/-- R493, R48: a read of NET_CAP_STAMP0[c] removes the oldest stamp, whose other words the reader's latch takes. -/
def Dev.capturePop (d : Dev) (who : Initiator) (c : Nat) : Dev :=
  match tget d.net.capFifo c [] with
  | [] => d
  | x :: rest =>
    let d1 : Dev := { d with net := { d.net with capFifo := tput d.net.capFifo c rest } }
    ((d1.setLatch who (NET_CAP_STAMP1.ent.at_ c 0) (tNanos x.1)).setLatch who (NET_CAP_STAMP2.ent.at_ c 0)
      (tSeconds x.1 % 2 ^ 32)).setLatch who (NET_CAP_STAMP3.ent.at_ c 0) (tSeconds x.1 / 2 ^ 32 % 65536)

/-! ### Other writes and the load -/

/-- R476: what a snapshot takes of time base b, within 1 ns. -/
def Dev.snapTime (d : Dev) (b : Nat) : Nat := stampAt (d.tbNow b) 0 (freeErr (d.free + b) 65536) 65536

/-- A write of NET_SNAP_CTRL: a snapshot of all four time bases (R476). -/
def Dev.snapWrite (d : Dev) (v : Nat) : Dev :=
  if bit v 31 then
    (forUp 4 (fun b (x : Dev) => x.wrTime NET_TB_SNAP0.fraction NET_TB_SNAP1.nanoseconds NET_TB_SNAP2.seconds_lo NET_TB_SNAP3.seconds_hi
      (d.snapTime b) b) { d with free := d.free + 4 }).wr NET_SNAP_CTRL.valid 1
  else d

/-- A write of NET_TB_GL_PERIOD[b] that gives no period is dropped (R478). -/
def Dev.glPeriodWrite (d : Dev) (b v : Nat) : Dev :=
  if v % 2 ^ 16 = 0 ∨ v / 2 ^ 16 % 2 ^ 16 = 0 then d
  else (d.wr NET_TB_GL_PERIOD.p_num (v / 2 ^ 16) b).wr NET_TB_GL_PERIOD.p_den (v % 2 ^ 16) b

/-- Two PTP instances share a domain and an Ethernet port (R480). -/
def ptpClash (d : Dev) (b v : Nat) : Bool :=
  bit v 31 && (List.range 4).any (fun c => c != b && d.rdb NET_TB_PTP.enable c && d.rd NET_TB_PTP.domain c == v % 256 &&
    (d.rd NET_TB_PTP.port_mask c &&& bits v 27 24) != 0)

/-- A write of NET_TB_PTP[b] (R480); transport 3 and profiles above 3 are dropped. -/
def Dev.ptpWrite (d : Dev) (b v : Nat) : Dev :=
  if ptpClash d b v then d
  else
    let d1 := (((d.wrb NET_TB_PTP.enable (bit v 31) b).wr NET_TB_PTP.port_mask (bits v 27 24) b).wrb NET_TB_PTP.boundary
      (bit v 15) b).wr NET_TB_PTP.domain (v % 256) b
    let d2 := if bits v 21 20 = 3 then d1 else d1.wr NET_TB_PTP.transport (bits v 21 20) b
    if 3 < bits v 18 16 then d2 else d2.wr NET_TB_PTP.profile (bits v 18 16) b

/-- What NETWORK gives Ethernet port e. -/
def Dev.netEth (d : Dev) (c : EthCfg) (e : Nat) : Dev :=
  let d1 := (((((d.wrb NET_ETH_CTRL.enable c.enable e).wr NET_ETH_CTRL.pmd c.pmd e).wr NET_ETH_MAC_LO.mac_lo (c.mac % 2 ^ 32) e).wr
    NET_ETH_MAC_HI.mac_hi (c.mac / 2 ^ 32) e).wr NET_ETH_VLAN.vid c.vid e).wr NET_ETH_ASYM.egress_ps c.egress e
  let d2 := d1.wr NET_ETH_ASYM.ingress_ps c.ingress e
  c.ctrlUdp.zipIdx.foldl (fun d p => (d.wr NET_ETH_CTRL_UDP.udp_port p.1 e p.2).wrb NET_ETH_CTRL_UDP.valid (p.1 != 0) e p.2) d2

/-- What a load takes of NETWORK (R92, R475): the Ethernet ports, control queues and time bases that it sets afresh, as masks, and whether
it sets the event time base. -/
structure NetTake where
  eth : Nat
  queues : Nat
  tbs : Nat
  event : Bool
  deriving DecidableEq, Repr

/-- What NETWORK gives the NET registers at load, the time bases apart. -/
def Dev.initNetwork (d : Dev) (t : NetTake) : Dev :=
  let n := d.img.net
  let d0 := if t.event then d.wr NET_EVT_TB.tb n.eventTb else d
  let d1 := n.eth.zipIdx.foldl (fun d p => if t.eth.testBit p.2 then d.netEth p.1 p.2 else d) d0
  n.queues.zipIdx.foldl (fun d p =>
    let c := p.1
    if t.queues.testBit p.2 = false then d
    else (((((((d.wr NET_Q_CFG.dir c.dir p.2).wr NET_Q_CFG.owner c.owner p.2).wr NET_Q_CFG.size_log2 c.sizeLog2 p.2).wr NET_Q_CFG.source
      c.source p.2).wr NET_Q_BASE_LO.base_lo (c.base % 2 ^ 32) p.2).wr NET_Q_BASE_HI.base_hi (c.base / 2 ^ 32) p.2).wr
      NET_Q_HEAD.index 0 p.2).wr NET_Q_TAIL.index 0 p.2) d1

/-- R475: at a load after power-on or cold reset the time bases take their disciplines; at a relight those that it changes (R92). -/
def Dev.initTimeBases (d : Dev) (t : NetTake) : Dev :=
  d.img.net.tbs.zipIdx.foldl (fun d p =>
    let c := p.1
    let b := p.2
    if t.tbs.testBit b = false then d else
    let d1 := (((((d.wr NET_TB_CTRL.bandwidth c.bandwidth b).wr NET_TB_CTRL.gl_input c.glInput b).wr NET_TB_CTRL.discipline
      c.discipline b).wr NET_TB_GL_PERIOD.p_num c.pNum b).wr NET_TB_GL_PERIOD.p_den c.pDen b).wr NET_TB_GL_OFFSET.offset_ns
      c.glOffset b
    let d2 := (((((d1.wrb NET_TB_PTP.enable (bit c.ptp 31) b).wr NET_TB_PTP.port_mask (bits c.ptp 27 24) b).wr NET_TB_PTP.transport
      (bits c.ptp 21 20) b).wr NET_TB_PTP.profile (bits c.ptp 18 16) b).wrb NET_TB_PTP.boundary (bit c.ptp 15) b).wr NET_TB_PTP.domain
      (c.ptp % 256) b
    if c.discipline = 2 then d2.acquire b else d2) d

/-! ### Commands -/

/-- ETH_LINK_UP (R463, R576): port e gains block lock and FEC alignment, its reference present. -/
def execEthLinkUp (e : Nat) (s : State) : Res :=
  nextDev s (fun d => if d.ethOn e && d.rdb NET_ETH_CTRL.enable e && ! d.ethUp e && ! d.glb.clocksLost.testBit 4 then (d.ethBits e 1).raise 480 else d)

/-- ETH_LINK_DOWN (R463). -/
def execEthLinkDown (e : Nat) (s : State) : Res :=
  nextDev s (fun d => if d.ethOn e && d.ethUp e then (d.ethDown e).ethNegotiate e else d)

/-- ETH_FRAME_RECEIVE (R464, R465): a frame with its FCS; the errors of its stamps within their uncertainty, in 2⁻¹⁶ ns. -/
def execEthFrameReceive (e : Nat) (bytes : List Byte) (pcsErr macErr : Int) (s : State) : Res :=
  .next (if s.dev.ethOn e && s.dev.ethUp e then frameReceive s e bytes pcsErr macErr else s)

/-- The NET block runs. -/
def Dev.netRuns (d : Dev) : Bool := d.rdb GLB_PWR_STATUS.core && ! d.blockHeld 13

/-- CONTROL_QUEUE_DELIVER (R469). -/
def execControlQueueDeliver (q : Nat) (s : State) : Res := .next (if s.dev.netRuns && decide (q < 8) then queueDeliver s q else s)

/-- TRANSMIT_FRAME (R470). -/
def execTransmitFrame (q : Nat) (s : State) : Res :=
  .next (if s.dev.netRuns && decide (8 ≤ q) && decide (q < 16) then transmitFrame s q else s)

/-- TRANSMIT_COMPLETE (R470). -/
def execTransmitComplete (q : Nat) (pcsErr macErr : Int) (s : State) : Res :=
  .next (if s.dev.netRuns then transmitComplete s q pcsErr macErr else s)

/-- Time base b runs. -/
def Dev.tbRuns (d : Dev) (b : Nat) : Bool := decide (b < 4) && d.rdb GLB_PWR_STATUS.core

/-- GENLOCK_LOST (R478). -/
def execGenlockLost (b : Nat) (s : State) : Res := nextDev s (fun d => if d.tbRuns b then d.glLost b else d)

/-- TPO_EDGE (R485). -/
def execTpoEdge (o : Nat) (s : State) : Res := nextDev s (fun d => if d.netRuns then d.pulseEdge o else d)

/-- CAPTURE_EDGE (R492, R493). -/
def execCaptureEdge (c : Nat) (rising : Bool) (s : State) : Res :=
  nextDev s (fun d => if d.netRuns && decide (c < 8) then d.captureEdge c rising else d)

/-- CAPTURE_OVERVOLT (R494): the input's level passes 5.8 V, upward or back. -/
def execCaptureOvervolt (c : Nat) (exceeds : Bool) (s : State) : Res :=
  nextDev s (fun d =>
    if d.netRuns && decide (c < 8) then
      let d1 := d.wrb NET_CAP_STATUS.overvolt exceeds c
      if exceeds && ! d.rdb NET_CAP_STATUS.overvolt c then d1.raise 488 else d1
    else d)

end Sys2Proof.Machine
end

