-- ==== Sys2Proof/Machine/ColourMath.lean ====
section
/-!
DEFINITION. The arithmetic of a ray, to the bit: positions, phases and filters of a plane-sample
(04_ray_synthesis.md R138 to R142) and compositing, conversion, transfer, overlay, crosstalk, gain, drive
coding and the firescreen stage (05_composition.md R175 to R203).
-/
namespace Sys2Proof.Machine

/-! ### Positions and filters -/

/-- R138: source index and phase of a Q20.28 position. -/
def tapOrigin (pos : Int) : Int × Nat :=
  let q := pos + 2 ^ 21
  (sarI q 28, (sarI q 22 % 64).toNat)

/-- R138: the position of hogel index i. -/
def stepPos (start : Int) (step i : Nat) : Int := start + (i : Int) * step

/-- R141: the value of a 12-bit coefficient code. -/
def coeffValue (c : Nat) : Int := if c = 0x800 then 2048 else if c < 0x800 then c else (c : Int) - 4096

/-- R142: one filtered row. `s k` is the line-store value at tap k. -/
def hFilter (ch : Nat → Int) (s : Nat → Int) : Int := sarI (sumUpI 6 (fun k => ch k * s k) + 64) 7

/-- R142: one component of a plane-sample; `s r k` is the value at tap row r, column k. -/
def sampleFilter (ch cv : Nat → Int) (s : Nat → Nat → Int) (isAlpha : Bool) : Nat :=
  let acc := sumUpI 4 (fun r => cv r * hFilter ch (s r))
  let o := (clampI (sarI (acc + 1024) 11) 0 65535).toNat
  if isAlpha then min (o + o / 4096) 65535 else o

/-- A plane-sample: Y, Cb, Cr and A, each unsigned 16 bits. -/
structure PlaneSample where
  y : Nat
  cb : Nat
  cr : Nat
  a : Nat
  deriving DecidableEq, Repr

/-- R159: a gated plane-sample. -/
def gatedSample : PlaneSample := ⟨0, 0, 0, 0⟩

/-! ### Compositing (R175) -/

/-- The running sums of R175. -/
structure CompAcc where
  t : Int
  y : Int
  cb : Int
  cr : Int
  deriving DecidableEq, Repr

/-- Nothing composited yet. -/
def compInit : CompAcc := ⟨65536, 0, 0, 0⟩

/-- R175: one plane. -/
def compPlane (offY offC : Int) (acc : CompAcc) (s : PlaneSample) : CompAcc :=
  let a1 : Int := if s.a = 65535 then 65536 else s.a
  let w := sarI (acc.t * a1 + 32768) 16
  { t := acc.t - w
    y := acc.y + sarI (w * (s.y - offY) + 32768) 16
    cb := acc.cb + sarI (w * (s.cb - offC) + 32768) 16
    cr := acc.cr + sarI (w * (s.cr - offC) + 32768) 16 }

/-- R175: every plane, nearest first. -/
def composite (offY offC : Int) (l : List PlaneSample) : CompAcc := l.foldl (compPlane offY offC) compInit

/-! ### Conversion, transfer, overlay, crosstalk, gain -/

/-- Red, green and blue, each unsigned 16 bits. -/
structure Rgb where
  r : Nat
  g : Nat
  b : Nat
  deriving DecidableEq, Repr

/-- The same function on each colour, told which colour it is. -/
def Rgb.mapI (f : Nat → Nat → Nat) (x : Rgb) : Rgb := ⟨f 0 x.r, f 1 x.g, f 2 x.b⟩

/-- R177: row c of the conversion. -/
def convertRow (m0 m1 m2 off : Int) (a : CompAcc) : Nat :=
  (clampI (sarI (m0 * a.y + m1 * a.cb + m2 * a.cr + 8192) 14 + off) 0 65535).toNat

/-- R178: a curve of 1,024 entries and an end value, `tab 1024` being the end value E. -/
def transferCurve (tab : Nat → Int) (x : Nat) : Nat :=
  let k := x / 64
  let f := x % 64
  (clampI (tab k + sarI ((tab (k + 1) - tab k) * f + 32) 6) 0 65535).toNat

/-- R180: palette colour `e` with alpha `a` over colour c. -/
def overlayColour (a e c : Nat) : Nat :=
  let a1 := if a = 65535 then 65536 else a
  min (e + ((65536 - a1) * c + 32768) / 65536) 65535

/-- R184: row c of the crosstalk matrix. -/
def crosstalkRow (x0 x1 x2 : Int) (v : Rgb) : Nat :=
  (clampI (sarI (x0 * v.r + x1 * v.g + x2 * v.b + 8192) 14) 0 65535).toNat

/-- R185: uniformity gain in Q1.9. -/
def applyGain (g c : Nat) : Nat := min ((c * g + 256) / 512) 65535

/-! ### Drive coding (R197, R198) -/

/-- R197: the drive code of a drive word. -/
def driveDec (w : Nat) : Nat :=
  if w < 256 then w
  else if w < 512 then 256 + 2 * (w - 256)
  else if w < 704 then 768 + 4 * (w - 512)
  else 1536 + 8 * (w - 704)

/-- R197: the largest drive word whose code does not exceed c. -/
def driveEnc (c : Nat) : Nat :=
  if c < 256 then c
  else if c < 768 then 256 + (c - 256) / 2
  else if c < 1536 then 512 + (c - 768) / 4
  else min (704 + (c - 1536) / 8) 1023

/-- The ordered dither pattern P of R198, row by row. -/
def ditherPattern : List (List Nat) :=
  [[0, 32, 8, 40, 2, 34, 10, 42], [48, 16, 56, 24, 50, 18, 58, 26],
   [12, 44, 4, 36, 14, 46, 6, 38], [60, 28, 52, 20, 62, 30, 54, 22],
   [3, 35, 11, 43, 1, 33, 9, 41], [51, 19, 59, 27, 49, 17, 57, 25],
   [15, 47, 7, 39, 13, 45, 5, 37], [63, 31, 55, 23, 61, 29, 53, 21]]

/-- P[y][x]. -/
def ditherAt (y x : Nat) : Nat := lget (lget ditherPattern y []) x 0

/-- R198: the dither threshold base b of hogel (i, j), view (h, vr), scan frame f. -/
def ditherBase (i h j vr f : Nat) (off : Bool) : Nat :=
  let x := (i + h) % 8
  let y := (j + vr) % 8
  if off then 32
  else if f % 4 = 0 then ditherAt y x
  else if f % 4 = 1 then ditherAt x (7 - y)
  else if f % 4 = 2 then ditherAt (7 - y) (7 - x)
  else ditherAt (7 - x) y

/-- R198: the drive word of colour v under threshold base b. -/
def driveWord (b v : Nat) : Nat :=
  let (s, vb, wb) := if v < 4096 then (0, 0, 0) else if v < 12288 then (1, 4096, 256)
    else if v < 24576 then (2, 12288, 512) else (3, 24576, 704)
  let th := b * 2 ^ (4 + s) / 64
  min (wb + (v - vb + th) / 2 ^ (4 + s)) 1023

/-! ### Firescreen stage (R200) and ray value (R203) -/

/-- R200: limit drive word w by quarter factor k (Q1.16) and ceiling l. -/
def firescreenWord (k l w : Nat) : Nat :=
  let c1 := (driveDec w * k + 32768) / 65536
  driveEnc (min c1 (driveDec (driveEnc l)))

/-- R203: the 30-bit ray value. -/
def rayValue (r g b : Nat) : Nat := r % 1024 * 2 ^ 20 + g % 1024 * 2 ^ 10 + b % 1024

end Sys2Proof.Machine
end

