-- ==== Sys2Proof/Machine/Packets.lean ====
section
/-!
DEFINITION. The packets of the tile link (07_tile_link.md R249 to R258, R271 to R278) and how a port sends them, the start
of training, and the tables of DRIVE_REF (08_tile_control.md R313 to R317).
-/
namespace Sys2Proof.Machine

/-! ### Building packets (R250) -/

/-- Words, most significant byte first. -/
def wordBytes (l : List Nat) : List Byte := l.flatMap (fun w => beBytes 4 w)

/-- A packet: header words, body and CRC trailer, least significant byte first. -/
def packet (w0 w1 w2 w3 : Nat) (body : List Byte) : List Byte :=
  let b := wordBytes [w0, w1, w2, w3] ++ body
  b ++ leBytes 4 (crc32 (b.map (fun x => x.toNat)))

/-- Word 0 of a packet header: type, version 1, port, sub and seq. -/
def headWord (typ port sub seq : Nat) : Nat := typ * 2 ^ 28 + 2 ^ 24 + port % 256 * 65536 + sub % 256 * 256 + seq % 256

/-- R250: the header and body of a packet, if its trailer is good. -/
def goodPacket (p : List Byte) : Option (List Byte) :=
  let n := p.length - 4
  if 20 ≤ p.length ∧ leAt p n 4 = crc32 ((p.take n).map (fun x => x.toNat)) then some (p.take n) else none

/-- R250, R257: what a back-channel packet of this type holds: its port and its body, if its trailer, version (log entry 155) and type are good
and its body has a length that the type allows. -/
def bcParse (typ : Nat) (okLen : Nat → Bool) (p : List Byte) : Option (Nat × List Nat) :=
  match goodPacket p with
  | none => none
  | some b =>
    let w0 := beAt b 0 4
    let len := b.length - 16
    if okLen len = false ∨ w0 / 2 ^ 28 ≠ typ ∨ bits w0 27 24 ≠ 1 then none
    else some (bits w0 23 16, (List.range (len / 4)).map (fun i => beAt b (16 + 4 * i) 4))

/-! ### Lanes (R240, R244 to R249, R261) -/

/-- Rate code of port n (R240). -/
def Dev.rateCode (d : Dev) (n : Nat) : Nat := lget d.img.clock.laneRate (n / 4) 0

/-- The four lane fields of TLK_LANE_STATUS and TLK_LANE_MAP of lane p. -/
def laneShort (p : Nat) : Fld := { TLK_LANE_STATUS.short0 with lo := 4 * p + 3 }
def laneOpen (p : Nat) : Fld := { TLK_LANE_STATUS.open0 with lo := 4 * p + 2 }
def laneTerm (p : Nat) : Fld := { TLK_LANE_STATUS.term_ok0 with lo := 4 * p + 1 }
def laneDriving (p : Nat) : Fld := { TLK_LANE_STATUS.driving0 with lo := 4 * p }
def laneInvert (k : Nat) : Fld := { TLK_LANE_MAP.invert0 with lo := 8 * k + 4 }
def lanePhysical (k : Nat) : Fld := { TLK_LANE_MAP.physical0 with lo := 8 * k, rst := k }

/-- R261: the lane map in force on port n. -/
def Dev.laneMap (d : Dev) (n : Nat) : LaneMap :=
  ⟨(List.range 4).map (fun k => d.rd (lanePhysical k) n), (List.range 4).map (fun k => d.rdb (laneInvert k) n)⟩

/-- Port n's transmitter now, and the skip sets that have left since its last columns. -/
def Dev.txNow (d : Dev) (n : Nat) : TxState × Nat := (d.lnk n).tx.upTo d.ticks (d.rateCode n) (d.freeVal 4)

/-- Columns leave port n, skip sets among them as R246 lays down. -/
def Dev.sendColumns (d : Dev) (n : Nat) (m : LaneMap) (cols : List (List Sym)) (out : Nat → List (List Nat) → Out) : Dev :=
  let t := d.txNow n
  let r := TxState.send m cols t.1
  (d.nextFree.setLnk n { d.lnk n with tx := r.2 }).emit (out t.2 r.1)

/-- A packet leaves port n (R249). -/
def Dev.sendLink (d : Dev) (n : Nat) (b : List Byte) : Dev :=
  (d.setLnk n { d.lnk n with txBefore := (d.txNow n).1 }).sendColumns n (d.laneMap n) (packetColumns b) (fun k c => .link n k b c)

/-- A skip set leaves port n at once. -/
def Dev.sendSkip (d : Dev) (n : Nat) : Dev :=
  let t := d.txNow n
  let r := t.1.skip (d.laneMap n)
  (d.nextFree.setLnk n { d.lnk n with tx := r.2 }).emit (.columns n t.2 r.1)

/-- R273: the lanes of port n wake, and the training burst and a skip set leave; disparity starts anew (R244). -/
def Dev.wakeLanes (d : Dev) (n : Nat) : Dev :=
  let d1 := (d.setLnk n { d.lnk n with tx := TxState.start d.ticks }).emit (.lanes n 3)
  ((d1.sendColumns n (d1.laneMap n) trainingBurst (.columns n)).sendSkip n).emit (.lanes n 2)

/-- R259, R260: port n starts to send TS1, each lane with its own number, or TS2 over its lane map (R261). -/
def Dev.sendTraining (d : Dev) (n : Nat) (ts2 : Bool) : Dev :=
  let d1 := if ts2 then d else d.setLnk n { d.lnk n with tx := TxState.start d.ticks }
  d1.sendColumns n (if ts2 then d1.laneMap n else LaneMap.straight) (trainingSet n (d.rateCode n) ts2) (fun k c => .training n k ts2 c)

/-- The newest packet of port n that has left: the skip sets before it and its bytes. -/
def newestLink (n : Nat) : List Out → Option (Nat × List Byte)
  | [] => none
  | .link p k b _ :: t => if p = n then some (k, b) else newestLink n t
  | _ :: t => newestLink n t

/-- The newest packet of port n gives way to another record. -/
def replaceLink (n : Nat) (new : Out) : List Out → List Out
  | [] => [new]
  | .link p k b c :: t => if p = n then new :: t else .link p k b c :: replaceLink n new t
  | o :: t => o :: replaceLink n new t

/-- R251: the packet under way, the newest of port n, ends with ABT after some of its data columns (log entry 99); where it is a line packet,
no further line packet of the scan frame follows. -/
def Dev.abortPacket (d : Dev) (n : Nat) : Dev :=
  let x := d.lnk n
  let d1 := d.count TLK_ABORT_CNT.sat TLK_ABORT_CNT.count 1 n
  let p := newestLink n d.out
  let b := (p.map (fun q => q.2)).getD []
  let k := d.freeVal 16 % ((b.length + 3) / 4 + 1)
  let r := TxState.send (d.laneMap n) (cutColumns b k) x.txBefore
  let line : Bool := p.isNone || beAt b 0 1 / 16 == 1
  let d2 := d1.nextFree.setLnk n { x with aborted := x.aborted || line, tx := r.2 }
  { d2 with out := replaceLink n (.abort n ((p.map (fun q => q.1)).getD 0) (b.take (4 * k)) r.1) d2.out }

/-! ### Sending packets -/

/-- The next sequence number of a packet type on port n. -/
def Dev.linkSeq (d : Dev) (n typ : Nat) : Nat := tget (d.lnk n).seqs typ 0

/-- Forward lanes of port n are in electrical idle. -/
def Dev.lanesIdle (d : Dev) (n : Nat) : Bool := d.rdb TLK_PORT_STATE.idle n

/-- R271: a packet that port n started now, behind the columns queued there, would end before its lanes enter idle. -/
def Dev.endsBeforeIdle (d : Dev) (n : Nat) (b : List Byte) : Bool :=
  ! d.linkUp n || d.rateCode n == 0 || (match d.idleAhead (d.portGroup n) with
    | none => true
    | some t =>
      let columns := (TxState.send (d.laneMap n) (packetColumns b) (d.txNow n).1).2.ahead
      decide (((columns * 8 * 4 * 65536 : Nat) : Int) ≤ t * (columnRate (d.rateCode n) : Nat)))

/-- A control or time packet with its sequence number leaves port n at once (R254). -/
def Dev.startPacket (d : Dev) (n typ sub w1 : Nat) (body : List Byte) : Dev :=
  let seq := d.linkSeq n typ
  (d.setLnk n { d.lnk n with seqs := tput (d.lnk n).seqs typ ((seq + 1) % 256), lastCtl := d.ticks }).sendLink n
    (packet (headWord typ n sub seq) w1 0 0 body)

/-- A control or time packet of port n leaves, or waits with its sequence number: it waits with idle lanes, behind another that waits, and where it
would not end before the lanes enter idle (R271). -/
def Dev.sendPacket (d : Dev) (n typ sub w1 : Nat) (body : List Byte) : Dev :=
  let seq := d.linkSeq n typ
  let x := d.lnk n
  if d.lanesIdle n || ! x.waitPk.isEmpty || ! d.endsBeforeIdle n (packet (headWord typ n sub seq) w1 0 0 body) then
    d.setLnk n { x with seqs := tput x.seqs typ ((seq + 1) % 256), waitPk := x.waitPk ++ [(typ, headWord typ n sub seq, w1, body)] }
  else d.startPacket n typ sub w1 body

/-- A CONTROL packet of a subtype. -/
def Dev.sendControl (d : Dev) (n sub : Nat) (body : List Byte) : Dev := d.sendPacket n 2 sub body.length body

/-- The packets that wait leave port n, in order. -/
def Dev.releaseWaiting (d : Dev) (n : Nat) : Dev :=
  forEach (d.lnk n).waitPk (fun p d => d.sendLink n (packet p.2.1 p.2.2.1 0 0 p.2.2.2))
    (d.setLnk n { d.lnk n with waitPk := [], lastCtl := if (d.lnk n).waitPk.isEmpty then (d.lnk n).lastCtl else d.ticks })

/-- R238, R271: port n's lanes leave idle, and the packets that waited leave; those that waited for an idle that was not entered leave too. -/
def Dev.leaveIdle (d : Dev) (n : Nat) : Dev :=
  if d.lanesIdle n then ((d.wakeLanes n).wr TLK_PORT_STATE.idle 0 n).releaseWaiting n
  else if (d.lnk n).waitPk.isEmpty then d else d.releaseWaiting n

/-- The last scan frame number a KEEPALIVE carries: 0 before the group starts. -/
def Dev.keepaliveFrame (d : Dev) (n : Nat) : Nat :=
  match d.img.port n with
  | some c => if d.started c.group then d.rd SCN_FRAME_NUM.frame c.group else 0
  | none => 0

/-- R256: a KEEPALIVE leaves port n; idle lanes leave idle for it and return after a skip set (R272). None starts that would not end before the
lanes enter idle (R271): it is due again in idle (log entry 159). -/
def Dev.sendKeepalive (d : Dev) (n : Nat) : Dev :=
  let seq := d.linkSeq n 2
  let p := packet (headWord 2 n 2 seq) 4 0 0 (wordBytes [d.keepaliveFrame n])
  let d1 := d.setLnk n { d.lnk n with seqs := tput (d.lnk n).seqs 2 ((seq + 1) % 256), lastCtl := d.ticks, lastLine := d.ticks }
  if d.lanesIdle n then (((d1.wakeLanes n).sendLink n p).sendSkip n).emit (.lanes n 1)
  else if d.endsBeforeIdle n p then d1.sendLink n p else d

/-- A time field of a link packet. -/
def timeField (t : Int) : List Byte := wordBytes (timeWords t.toNat)

/-! ### Time exchanges (R274 to R278) -/

/-- R277: an exchange is discarded; every sixteenth in a row raises TIME_FAULT. -/
def Dev.exchangeMissed (d : Dev) (n : Nat) : Dev :=
  let x := d.lnk n
  let d1 := (d.count TLK_TIME_MISS_CNT.sat TLK_TIME_MISS_CNT.count 1 n).setLnk n { x with exch := none, misses := x.misses + 1 }
  if (x.misses + 1) % 16 = 0 then d1.raise 231 else d1

/-- R274, R275: a TSY leaves port n and opens an exchange; `step` is its step flag (R278). An exchange still open is discarded (log entry
100), and t1 is the line clock as the TSY is queued (log entry 157). -/
def Dev.startExchange (d : Dev) (n : Nat) (step : Bool) : Dev :=
  let d1 := if (d.lnk n).exch.isSome then d.exchangeMissed n else d
  let x := d1.lnk n
  (d1.setLnk n { x with exch := some { num := x.exchNext, t1 := d1.lineClock (d1.portGroup n), asym := toS 32 (d1.rd TLK_ASYM.asym_ps n),
                                       tick := d1.ticks, step := step },
                        exchNext := (x.exchNext + 1) % 256 }).sendColumns n (d1.laneMap n) [wholeColumn .tsy] (.columns n)

/-! ### Training starts (R259, R260) -/

/-- R576: the tile reference of port n is lost; a port DOWN waits for its return. -/
def Dev.refLost (d : Dev) (n : Nat) : Bool := d.glb.clocksLost.testBit (n / 24)

/-- Training of port n starts from DETECT: every lane is probed again (R269). While the device is halted the port stays down (R68), and
while its reference is lost it waits DOWN for the return (R576, log entry 136). -/
def Dev.startTraining (d : Dev) (n : Nat) : Dev :=
  if d.glb.phase = .halted then d
  else if d.refLost n then
    ((d.wr TLK_PORT_STATE.state 1 n).wr TLK_PORT_STATE.phase 0 n).setLnk n { d.lnk n with held := false, await := true }
  else
  let d1 := ((d.wr TLK_PORT_STATE.state 2 n).wr TLK_PORT_STATE.phase 1 n).wr TLK_PORT_STATE.idle 0 n
  let d2 := forUp 4 (fun p d => (((d.wr (laneShort p) 0 n).wr (laneOpen p) 0 n).wr (laneTerm p) 0 n).wr (laneDriving p) 0 n) d1
  (d2.setLnk n { d2.lnk n with exch := none, exchNext := 0, exchDone := 0, misses := 0, lastSwapped := none, csum := none,
                               sawReport := false, phaseAt := d2.ticks, held := false, await := false, secondSwap := none,
                               waitPk := [], rejoin := false, rxRd := false }).emit (.lanes n 3)

/-! ### The back-channel (R244 to R250, R257, R262) -/

/-- TLK_PORT_STATE.state: 0 OFF, 1 DOWN, 2 TRAIN, 3 UP, 4 TEST. -/
def Dev.linkState (d : Dev) (n : Nat) : Nat := d.rd TLK_PORT_STATE.state n

/-- The port's registers and engine answer: its group has power and the tile link is not held in reset. -/
def Dev.tlkRuns (d : Dev) (n : Nat) : Bool := d.portOn n && ! d.blockHeld 6

/-- Whether the back-channel of port n is received inverted: as its probe shows in training, and as found there afterwards (R262). -/
def Dev.bcInverted (d : Dev) (n : Nat) (rx : List Nat) : Bool :=
  let held := d.rdb TLK_LANE_STATUS.bc_inverted n
  if d.linkState n = 2 then (probeInverted rx).getD held else held

/-- R244, R262: the symbols of what a back-channel has received since the port's last command, its inversion corrected. -/
def Dev.bcSymbols (d : Dev) (n : Nat) (rx : List Nat) : List (Option Sym) × Bool :=
  decodeLane (d.lnk n).rxRd (if d.bcInverted n rx then rx.map (fun c => 1023 - c) else rx)

/-- R247, R248, R250: the bytes of the packet that a port has received, if it is whole; what the elastic buffer does in each skip set
(`slips`) drops out with the sets. -/
def Dev.bcBytes (d : Dev) (n : Nat) (rx : List Nat) (slips : Nat) : Option (List Byte) :=
  packetBytes (matchRates slips (d.bcSymbols n rx).1)

/-- The receiver after these code groups. -/
def Dev.bcReceived (d : Dev) (n : Nat) (rx : List Nat) (slips : Nat) : Dev :=
  let x := d.lnk n
  let r := d.bcSymbols n rx
  (d.wrb TLK_LANE_STATUS.bc_inverted (d.bcInverted n rx) n).setLnk n
    { x with rxRd := r.2, bcFil := lastFil x.bcFil (matchRates slips r.1) }

/-- R250, R257: the body words of the back-channel packet of this type that port n has received; none where it is dropped: outside training
its port must be the port's own. -/
def Dev.bcWords (d : Dev) (n typ : Nat) (okLen : Nat → Bool) (rx : List Nat) (slips : Nat) : Option (List Nat) :=
  match (d.bcBytes n rx slips).bind (bcParse typ okLen) with
  | some (port, w) => if port = n ∨ d.linkState n = 2 then some w else none
  | none => none

/-- R257: a back-channel packet is taken, or dropped and counted. -/
def Dev.bcTake (d : Dev) (n typ : Nat) (okLen : Nat → Bool) (rx : List Nat) (slips : Nat) (f : List Nat → Dev → Dev) : Dev :=
  if d.tlkRuns n = false then d
  else
    let d1 := d.bcReceived n rx slips
    match d.bcWords n typ okLen rx slips with
    | none => d1.count TLK_BC_ERR_CNT.sat TLK_BC_ERR_CNT.count 1 n
    | some w => f w (d1.setLnk n { d1.lnk n with lastBc := d1.ticks })

/-! ### DRIVE_REF and FIRESCREEN class entries -/

/-- The tile class of port n. -/
def Dev.portClass (d : Dev) (n : Nat) : Nat := ((d.img.port n).map (fun c => c.cls)).getD 0

/-- The offset of a class's entry in a section of `stride`-byte class entries whose class number lies at `at_`. -/
def classEntry (b : List Byte) (stride at_ cls : Nat) : Option Nat :=
  ((List.range (leAt b 0 1)).find? (fun c => leAt b (0x10 + stride * c + at_) 2 == cls)).map (fun c => 0x10 + stride * c)

/-- Port n's DRIVE_REF section body and class entry offset. -/
def Dev.drvBody (d : Dev) (n : Nat) : List Byte := d.img.body 0x0B (d.portGroup n)
def Dev.drvEntry (d : Dev) (n : Nat) : Nat := (classEntry (d.drvBody n) 2176 0 (d.portClass n)).getD 0

/-- Port n's FIRESCREEN section body and class entry offset. -/
def Dev.fscBody (d : Dev) (n : Nat) : List Byte := d.img.body 0x11 (d.portGroup n)
def Dev.fscEntry (d : Dev) (n : Nat) : Nat := (classEntry (d.fscBody n) 192 0 (d.portClass n)).getD 0

/-- Little-endian word at an offset of the port's FIRESCREEN class entry. -/
def Dev.fscWord (d : Dev) (n o : Nat) : Nat := leAt (d.fscBody n) (d.fscEntry n + o) 4

/-- Edge b of port n's class, signed Q8.8 °C. -/
def Dev.tempEdge (d : Dev) (n b : Nat) : Int := toS 16 (leAt (d.drvBody n) (d.drvEntry n + 8 + 4 * (b - 1)) 2)

/-- The shutdown temperature of port n's class. -/
def Dev.shutdownTemp (d : Dev) (n : Nat) : Int := toS 16 (leAt (d.drvBody n) (d.drvEntry n + 4) 2)

/-- R313: the band that temperature t gives, from band b. -/
def Dev.bandOf (d : Dev) (n : Nat) (t : Int) (b : Nat) : Nat :=
  let up := forUp 16 (fun _ b => if b < 15 ∧ d.tempEdge n (b + 1) ≤ t then b + 1 else b) b
  forUp 16 (fun _ b => if 0 < b ∧ t < d.tempEdge n b - 512 then b - 1 else b) up

/-- R315: the three reference codes of band b and level v, clamped to ref_max. -/
def Dev.refCodes (d : Dev) (n b v : Nat) : Nat × Nat × Nat :=
  let o := d.drvEntry n + 0x80 + 8 * (16 * b + v)
  let w0 := leAt (d.drvBody n) o 4
  let w1 := leAt (d.drvBody n) (o + 4) 4
  (min (w0 / 65536) (d.fscWord n 0x18 / 65536), min (w0 % 65536) (d.fscWord n 0x18 % 65536),
   min (w1 / 65536) (d.fscWord n 0x1C / 65536))

/-- A DRIVE_REF packet with these codes leaves port n; the registers show the codes last sent. -/
def Dev.sendDriveRef (d : Dev) (n apply band level : Nat) (c : Nat × Nat × Nat) : Dev :=
  let d1 := ((d.wr TCT_PORT_REF_RG.red c.1 n).wr TCT_PORT_REF_RG.green c.2.1 n).wr TCT_PORT_REF_B.blue c.2.2 n
  d1.sendControl n 3 (wordBytes [apply, band % 16 * 2 ^ 28 + level % 16 * 2 ^ 24, c.1 * 65536 + c.2.1, c.2.2 * 65536])

/-- Band and level in force of a port. -/
def Dev.bandInForce (d : Dev) (n : Nat) : Nat := d.rd TCT_PORT_STATE.band n
def Dev.levelInForce (d : Dev) (n : Nat) : Nat := d.rd FSC_PORT_LEVEL.active_level n

/-- A port's frame in progress is lost (R163, R251, R267). -/
def Dev.loseFrame (d : Dev) (n : Nat) : Dev :=
  let g := d.portGroup n
  let x := d.scnG g
  if x.lost.testBit n then d else d.setScn g { x with lost := x.lost + 2 ^ n }

end Sys2Proof.Machine
end

