-- ==== Sys2Proof/Machine/TileControl.lean ====
section
/-!
DEFINITION. Tile control (08_tile_control.md R298 to R317): management buses and requests, discovery, power-up and
power-down of ports, and bus faults.
-/
namespace Sys2Proof.Machine

/-! ### Management frames (R298 to R302)

Exchanges run on a channel: 0 to 11 is a management bus, 100 + n the MGMT packets of port n. -/

/-- R299: a request frame. -/
def mgmtFrame (addr cmd seq : Nat) (payload : List Byte) : List Byte :=
  let b : List Byte := [BitVec.ofNat 8 addr, BitVec.ofNat 8 cmd, BitVec.ofNat 8 seq, BitVec.ofNat 8 payload.length] ++ payload
  [0xA5] ++ b ++ beBytes 2 (crc16 (b.map (fun x => x.toNat)))

/-- Bytes padded with zeros to a whole word (R302). -/
def padWord (b : List Byte) : List Byte := b ++ List.replicate ((4 - b.length % 4) % 4) 0

/-- BIAS_ON, BIAS_OFF, EMIT_ON and DISCHARGE always travel on the bus (R302). -/
def busOnly (cmd : Nat) : Bool := 0x10 ≤ cmd && cmd ≤ 0x13

/-- The bus and address of port n's tile: the image's, and before a smoulder exit has applied its image those at which the tile was found
(R570). -/
def Dev.tileAt (d : Dev) (n : Nat) : Option (Nat × Nat) :=
  match d.img.port n with
  | some c => some (c.bus, c.addr)
  | none => if ! d.loaded && (d.ctl n).found then some (d.rd TCT_PORT_STATE.bus n, d.rd TCT_PORT_STATE.address n) else none

/-- The port whose tile is at a bus and address. -/
def Dev.portAt (d : Dev) (m addr : Nat) : Option Nat :=
  match d.img.geo.ports.find? (fun p => p.2.bus == m && p.2.addr == addr) with
  | some p => some p.1
  | none => (d.tct.find? (fun p => d.tileAt p.1 == some (m, addr))).map (fun p => p.1)

/-- The management bus of a channel. -/
def Dev.channelBus (d : Dev) (ch : Nat) : Nat :=
  if ch < 100 then ch else ((d.img.port (ch - 100)).map (fun c => c.bus)).getD 0

/-- R302: the channel on which a request leaves now: its port's MGMT packets while the port is UP, else its bus m. -/
def Dev.mgmtChannel (d : Dev) (m : Nat) (r : MgmtReq) : Nat :=
  match r.port with
  | some n => if ! busOnly r.cmd && d.linkUp n then 100 + n else m
  | none => m

/-- A request leaves on a channel and, unless it is a broadcast, awaits its reply (R300). -/
def Dev.mgmtTransmit (d : Dev) (ch : Nat) (r : MgmtReq) : Dev :=
  let f := mgmtFrame r.addr r.cmd r.seq r.payload
  let d1 := if ch < 100 then d.emit (.mgmt ch f) else d.sendControl (ch - 100) 6 (padWord f)
  if r.addr = 0 then d1 else d1.setBus ch { d1.busS ch with open_ := some { r with tunnel := decide (100 ≤ ch) } }

/-- A request takes its channel's next sequence number and leaves, or waits for the exchange under way (R300, R302). -/
def Dev.mgmtQueue (d : Dev) (m : Nat) (r : MgmtReq) : Dev :=
  let ch := d.mgmtChannel m r
  let b := d.busS ch
  if b.open_.isNone ∨ r.addr = 0 then (d.setBus ch { b with seq := (b.seq + 1) % 256 }).mgmtTransmit ch { r with seq := b.seq }
  else d.setBus ch { b with waiting := b.waiting ++ [r] }

/-- A management request of the device to the tile at a bus and address. -/
def Dev.mgmtSend (d : Dev) (m addr cmd : Nat) (payload : List Byte) : Dev :=
  d.mgmtQueue m { addr := addr, cmd := cmd, seq := 0, port := d.portAt m addr, payload := payload, tries := 1, tunnel := false }

/-- A request to the tile of port n. -/
def Dev.mgmtPort (d : Dev) (n cmd : Nat) : Dev :=
  match d.tileAt n with
  | some t => d.mgmtSend t.1 t.2 cmd []
  | none => d

/-- The exchange on a channel ends, and the requests that waited are queued again: the first leaves here, or on the channel that its port's
state now gives it (R302). -/
def Dev.mgmtClose (d : Dev) (ch : Nat) : Dev :=
  let b := d.busS ch
  forEach b.waiting (fun r d => d.mgmtQueue (d.channelBus ch) r) (d.setBus ch { b with open_ := none, waiting := [] })

/-- R301: a reply that answers the open request with a good CRC; its payload. -/
def replyPayload (r : MgmtReq) (f : List Byte) : Option (List Byte) :=
  let n := beAt f 4 1
  let b := slice f 1 (4 + n)
  if f.length < 7 + n ∨ beAt f 0 1 ≠ 0xA5 ∨ beAt f 1 1 ≠ 0x80 + r.addr ∨ beAt f 2 1 ≠ r.cmd ∨ beAt f 3 1 ≠ r.seq ∨ n = 0 ∨ 64 < n ∨
      beAt f (5 + n) 2 ≠ crc16 (b.map (fun x => x.toNat)) then none
  else some (slice f 5 n)

/-! ### Steps of a relight (R83 to R93) -/

/-- KIN_RELIGHT.step changes. -/
def Dev.relightStep (d : Dev) (k : Nat) : Dev := (d.wr KIN_RELIGHT.step k).raise 34

/-- R89, R459: every ring is parked and every stoker except the supervisor is held in reset, its hearth locks abandoned. -/
def Dev.parkAll (d : Dev) : Dev :=
  let d1 := d.parkRings (fun _ => true)
  let d2 := forEach d1.stk.cores (fun c d => if c.1 = 0 then d else d.setCore c.1 { c.2 with run := 0, load := none }) d1
  forUp 256 (fun n d => if d.rd STK_LOCK_ACQ.owner n ≠ 0 ∧ d.rd STK_LOCK_ACQ.owner n < 64 then d.abandonLock n else d) d2

/-- R12, R73: the data-path blocks, held in reset while an image is applied: ING, RAY, CMP, TLK, MEM, NET and FSC. -/
def dataPathMask : Nat := 0x2215C

/-- R73: application begins. -/
def Dev.beginApply (d : Dev) : Dev :=
  ({ d with glb := { d.glb with held := dataPathMask } } : Dev).wr KIN_STATUS.state 2

/-- R88, R89: once every tile has run its discharge, the relight goes on to its application. -/
def Dev.relightDischarged (d : Dev) : Dev :=
  if d.rd KIN_RELIGHT.step = 4 ∧ d.tct.all (fun p => p.2.discharge == 0 || p.2.discharge == 4) then (d.parkAll.relightStep 5).beginApply else d

/-- R93: once no port is powering up, the device admits frames again. -/
def Dev.relightLit (d : Dev) : Dev :=
  if d.rd KIN_RELIGHT.step = 7 ∧ d.img.activePorts.all (fun n => d.rd TCT_PORT_STATE.pstate n != 2) then
    ({ d with kin := { d.kin with noAdmit := false } } : Dev).relightStep 8
  else d

/-! ### Power states (R307 to R310) -/

/-- pstate codes. -/
def Dev.pstate (d : Dev) (n : Nat) : Nat := d.rd TCT_PORT_STATE.pstate n

/-- A port enters a power state; one that leaves LIT stops its partial writes, for a fade or else (R329). -/
def Dev.setPstate (d : Dev) (n p : Nat) : Dev :=
  let d1 := if d.lit n ∧ p ≠ 3 then d.pwStop n (if p = 6 then 6 else 2) else d
  d1.wr TCT_PORT_STATE.pstate p n

/-- R307: a power-up ends in FAULT with its cause. -/
def Dev.powerFail (d : Dev) (n cause : Nat) : Dev :=
  let d1 := (((d.setPstate n 7).wr TCT_PORT_STATE.cause cause n).wr TCT_LAST_FAULT.cause cause).wr TCT_LAST_FAULT.port n
  ((d1.setCtl n { d1.ctl n with step := 0 }).raise 262).relightLit

/-- R528: port n is disabled in OTP. -/
def Dev.portDisabled (d : Dev) (n : Nat) : Bool := d.portBit SEC_PORT_DIS.ports n

/-- The port goes to OFF (07_tile_link.md): its lanes are off and nothing of its link is kept. -/
def Dev.linkOff (d : Dev) (n : Nat) : Dev :=
  let d1 := (((d.pwStop n 2).wrPortBit TLK_UP.ports n false).loseFrame n).setLnk n LinkState.init
  (((d1.wr TLK_PORT_STATE.state 0 n).wr TLK_PORT_STATE.phase 0 n).wr TLK_PORT_STATE.idle 0 n).emit (.lanes n 0)

/-- R307 step 1, once its conditions hold; a port in SMOULDER is sent WAKE in place of BIAS_ON (R571). Nothing is powered up while the
device is halted (R68). -/
def Dev.powerUp (d : Dev) (n : Nat) : Dev :=
  match d.img.port n with
  | none => d
  | some c =>
    if d.portDisabled n ∨ d.glb.phase = .halted then d
    else if d.pstate n = 0 ∨ d.pstate n = 1 ∨ d.pstate n = 5 ∨ d.pstate n = 7 then
      let d1 := (d.setPstate n 2).setCtl n { d.ctl n with step := 1, discharge := 0 }
      if (d.ctl n).mismatch then d1.powerFail n 5
      else if (d.ctl n).hot then d1.powerFail n 4
      else if d.rdBit TCT_STATUS.bus_fault c.bus then d1.powerFail n 1
      else d1.mgmtPort n (if d.pstate n = 5 then 0x14 else 0x10)
    else d

/-- R307 steps 3 and 4: the drive reference at once, then EMIT_ON. -/
def Dev.powerEmit (d : Dev) (n : Nat) : Dev :=
  let b := d.bandOf n (toS 16 (d.ctl n).temp) 0
  let v := d.levelInForce n
  let d1 := (d.setPstate n 2).wr TCT_PORT_STATE.band b n
  let d2 := d1.sendDriveRef n 0xFFFFFFFF b v (d1.refCodes n b v)
  (d2.setCtl n { d2.ctl n with step := 4, sentBand := b, sentLevel := v, discharge := 0 }).mgmtPort n 0x12

/-- R307 step 2: train the link; a port that is UP already goes on, one that is OFF cannot train. -/
def Dev.powerTrain (d : Dev) (n : Nat) : Dev :=
  let d1 := d.setCtl n { d.ctl n with step := 2 }
  match d.rd TLK_PORT_STATE.state n with
  | 0 => d1.powerFail n 2
  | 1 => (d1.setLnk n { d1.lnk n with retries := 0, wasUp := false }).startTraining n
  | 3 => d1.powerEmit n
  | _ => d1

/-- R307's end: the port is LIT, shows black, and joins its group's scan at the next admission point, whatever its link did before. -/
def Dev.poweredUp (d : Dev) (n : Nat) : Dev :=
  let d1 := (d.setPstate n 3).wr FSC_PORT_POWER.power (d.fscWord n 8) n
  let d2 := d1.setCtl n { d1.ctl n with step := 0, firstSkip := none }
  let d3 := d2.setLnk n { d2.lnk n with rejoin := true, inFrame := false }
  let x := d3.fire n
  ((d3.setFire n { x with det := x.det.map (fun q => { q with dir := 0, ext := none }) }).raise 261).relightLit

/-- R309: a discharge starts: 1 power-down, 2 relight, 3 fade. A power-up that it ends may be the last of a relight (R93). -/
def Dev.startDischarge (d : Dev) (n why : Nat) : Dev :=
  (((d.setPstate n 4).setCtl n { d.ctl n with step := 0, discharge := why, relightBias := false }).mgmtPort n 0x13).relightLit

/-- R309: a port is powered down. A discharge that already runs becomes the power-down's: BIAS_OFF follows it. -/
def Dev.powerDown (d : Dev) (n : Nat) : Dev :=
  let x := d.ctl n
  if (d.img.port n).isNone ∨ d.pstate n = 0 then d
  else if d.pstate n = 4 then
    d.setCtl n { x with discharge := if x.discharge = 3 ∨ x.discharge = 5 then 5 else 1, relightBias := false }
  else d.startDischarge n 1

/-- R528: a port disabled in OTP is powered down, and held in OFF. -/
def Dev.disablePort (d : Dev) (n : Nat) : Dev :=
  if (d.img.port n).isNone ∨ d.pstate n = 0 then d.linkOff n else d.powerDown n

/-- R309, R350: the discharge of port n ends: a power-down's with BIAS_OFF in OFF, the others and one that a relight met (R88) in
DARK; a fade's raises FADE_DONE. -/
def Dev.endDischarge (d : Dev) (n : Nat) : Dev :=
  let x := d.ctl n
  let why := x.discharge
  let d1 := d.setCtl n { x with discharge := 0, relightBias := false }
  let d2 := if (why = 1 ∨ why = 5) ∧ x.relightBias = false then
      let d2 := (d1.mgmtPort n 0x11).setPstate n 0
      if d2.portDisabled n then d2.linkOff n else d2
    else d1.setPstate n 1
  let d3 := if why = 3 ∨ why = 5 then d2.raise 296 else d2
  d3.relightDischarged

/-! ### Replies -/

/-- The found bit of a tile at a bus and address (R305). -/
def Dev.setFound (d : Dev) (m addr : Nat) (on : Bool) : Dev := d.wrBit TCT_BUS_STATUS.found (addr - 1) on m

/-- R306: a discovered tile is lost. -/
def Dev.tileLost (d : Dev) (n : Nat) : Dev :=
  let d1 := (d.wr TCT_PORT_SERIAL_LO.serial_lo 0 n).wr TCT_PORT_SERIAL_HI.serial_hi 0 n
  (d1.setCtl n { d1.ctl n with polls := 0, found := false }).raise 257

/-- R305: an IDENTIFY reply from bus m, address addr; its payload starts after the status byte. -/
def Dev.identified (d : Dev) (m addr : Nat) (p : List Byte) : Dev :=
  let d1 := d.setFound m addr true
  match d.portAt m addr with
  | none => d1
  | some n =>
    let c := d.img.tileClass (d.portClass n)
    let ok : Bool := beAt p 0 2 == d.portClass n && c.any (fun c => beAt p 10 2 == c.cols && beAt p 12 2 == c.rows && beAt p 14 1 == c.viewRows)
    let d2 := (d1.wr TCT_PORT_SERIAL_HI.serial_hi (beAt p 2 4) n).wr TCT_PORT_SERIAL_LO.serial_lo (beAt p 6 4) n
    let d3 := (d2.setCtl n { d2.ctl n with found := true, polls := 0, mismatch := ! ok }).raise 256
    if ok then d3 else d3.raise 258

/-- A STATUS reply of port n: flags and temperature (R307, R309, R317). -/
def Dev.statusReply (d : Dev) (n : Nat) (p : List Byte) : Dev :=
  let flags := beAt p 0 1
  let t := beAt p 1 2
  let x := d.ctl n
  let hot := x.hot && decide (d.shutdownTemp n - 1280 < toS 16 t)
  let d1 := d.setCtl n { x with polls := 0, temp := t, hot := hot }
  if x.step = 1 ∧ bit flags 0 then d1.powerTrain n
  else if x.discharge ≠ 0 ∧ bit flags 3 then d1.endDischarge n
  else d1

/-- R569, R570: the always-on supervisor polls the tiles with STATUS and nothing else runs: in smoulder, and after it while a clock reset holds the
boot. -/
def Dev.polling (d : Dev) : Bool := d.glb.phase == .smoulder || (d.glb.phase == .held && d.kin.bootKind == 8)

/-- What a good reply to request r does; `p` is its payload. To the always-on supervisor a STATUS reply tells that the tile answers, and its
temperature (R569, log entry 163). -/
def Dev.mgmtHandle (d : Dev) (m : Nat) (r : MgmtReq) (p : List Byte) : Dev :=
  let done := beAt p 0 1 == 0
  let q := p.drop 1
  if d.polling then
    (match r.port with
     | some n => if r.cmd = 2 ∧ done then d.setCtl n { d.ctl n with polls := 0, temp := beAt q 1 2 } else d
     | none => d)
  else
  match r.port with
  | none => if r.cmd = 1 ∧ done then d.identified m r.addr q else d
  | some n =>
    let x := d.ctl n
    if r.cmd = 1 then (if done then d.identified m r.addr q else d)
    else if r.cmd = 2 then (if done then d.statusReply n q else d)
    else if r.cmd = 0x10 ∨ r.cmd = 0x14 then (if x.step = 1 ∧ done = false then d.powerFail n 1 else d)
    else if r.cmd = 0x12 then
      (if x.step = 4 then (if done ∧ bit (beAt q 0 1) 1 then d.poweredUp n else d.powerFail n 3) else d)
    else d

/-- R301: a request is given up; a tile is reported lost (R306) only by a device that runs. -/
def Dev.mgmtGiveUp (d : Dev) (m : Nat) (r : MgmtReq) : Dev :=
  if r.cmd = 1 then d.setFound m r.addr false
  else match r.port with
  | none => d
  | some n =>
    let x := d.ctl n
    if r.cmd = 2 then
      (if 3 ≤ x.polls + 1 ∧ x.found ∧ d.polling = false then (d.setFound m r.addr false).tileLost n
       else d.setCtl n { x with polls := x.polls + 1 })
    else if (r.cmd = 0x10 ∨ r.cmd = 0x14) ∧ x.step = 1 then d.powerFail n 1
    else if r.cmd = 0x12 ∧ x.step = 4 then d.powerFail n 3
    else d

/-- R301: an exchange failed; it is counted and the request retried twice, on the channel that its port's state now gives it (R302), with its
sequence number while that is the same channel (log entry 158). -/
def Dev.mgmtFailed (d : Dev) (ch : Nat) : Dev :=
  match (d.busS ch).open_ with
  | none => d
  | some r =>
    let m := d.channelBus ch
    let d1 := d.count TCT_MGMT_ERR_CNT.sat TCT_MGMT_ERR_CNT.count 1 m
    if 3 ≤ r.tries then (d1.mgmtClose ch).mgmtGiveUp m r
    else if d1.mgmtChannel m r = ch then d1.mgmtTransmit ch { r with tries := r.tries + 1 }
    else (d1.mgmtClose ch).mgmtQueue m { r with tries := r.tries + 1 }

/-- A reply frame arrives on a channel (R300, R301). -/
def Dev.mgmtReplied (d : Dev) (ch : Nat) (f : List Byte) : Dev :=
  match (d.busS ch).open_ with
  | none => d
  | some r => match replyPayload r f with
    | some p => (d.mgmtClose ch).mgmtHandle (d.channelBus ch) r p
    | none => d.mgmtFailed ch

/-- TCT runs: not in smoulder (R569), nor while it is held in reset. -/
def Dev.tctRuns (d : Dev) : Bool := ! d.blockHeld 7 && d.glb.phase != .smoulder

/-! ### Discovery and register writes -/

/-- R305: IDENTIFY to addresses 1 to 8 of every bus. -/
def Dev.discover (d : Dev) : Dev :=
  forUp 12 (fun m d => forUp 8 (fun a d => d.mgmtSend m (a + 1) 0x01 []) d) d

/-- A write of TCT_PORT_CTRL[n] (R307, R309, R322): freeze is stored, power_down wins over power_up. -/
def Dev.tctPortWrite (d : Dev) (n v : Nat) : Dev :=
  let d1 := d.wrb TCT_PORT_CTRL.freeze (bit v 0) n
  if bit v 30 then d1.powerDown n else if bit v 31 then d1.powerUp n else d1

/-- A write of TCT_CTRL; wall_up is secure-only, and reports the supervisor ready, whichever secure writer wrote it (R93, R305, R307, R308; log
entry 151). -/
def Dev.tctCtrlWrite (d : Dev) (secure : Bool) (v : Nat) : Dev :=
  let d1 := if bit v 1 then d.discover else d
  if secure ∧ bit v 0 then
    let d2 := forEach d.img.activePorts (fun n d => d.powerUp n) ({ d1 with kin := { d1.kin with supReady := true } } : Dev)
    if d2.rd KIN_RELIGHT.step = 6 then (d2.relightStep 7).relightLit else d2
  else d1

/-- TCT_STATUS.bus_fault follows the bus's short and open flags (R304). -/
def Dev.busFaultBit (d : Dev) (m : Nat) : Dev :=
  d.wrBit TCT_STATUS.bus_fault m (d.rdb TCT_BUS_STATUS.short m || d.rdb TCT_BUS_STATUS.open m)

/-- A value with bit k set: a write that sets a command bit. -/
def withBit (v k : Nat) : Nat := if bit v k then v else v + 2 ^ k

/-! ### The commands -/

/-- R257, R299: the length of a MGMT_REPLY's body: a reply frame of 8 to 71 bytes, padded to whole words. -/
def mgmtLengthOk (l : Nat) : Bool := l % 4 == 0 && decide (8 ≤ l) && decide (l ≤ 72)

/-- MGMT_REPLY (R300): the bytes of a reply on a bus, or on channel 100 + n the code groups that port n's back-channel has received since
its last command, a MGMT_REPLY packet at their end, dropped and counted when it fails R257. -/
def execMgmtReply (ch : Nat) (rx : List Nat) (slips : Nat) (s : State) : Res :=
  nextDev s (fun d =>
    if ch < 100 ∧ (d.tctRuns ∨ d.polling) then d.mgmtReplied ch (rx.map (fun x => BitVec.ofNat 8 x))
    else if ch < 100 ∨ d.tctRuns = false then d
    else d.bcTake (ch - 100) 13 mgmtLengthOk rx slips (fun w d => d.mgmtReplied ch (wordBytes w)))

/-- MGMT_REPLY_TIMEOUT (R301): no reply within 100 µs on a bus, or 1 ms through a port. -/
def execMgmtReplyTimeout (ch : Nat) (s : State) : Res :=
  nextDev s (fun d => if d.tctRuns ∨ d.polling then d.mgmtFailed ch else d)

/-- BUS_AB_SWAP (R304). -/
def execBusAbSwap (m : Nat) (s : State) : Res :=
  nextDev s (fun d => if d.tctRuns then (d.wr TCT_BUS_STATUS.inverted 1 m).raise 260 else d)

/-- BUS_SHORT (R304). -/
def execBusShort (m : Nat) (s : State) : Res :=
  nextDev s (fun d => if d.tctRuns then ((d.wr TCT_BUS_STATUS.short 1 m).busFaultBit m).raise 259 else d)

/-- BUS_OPEN (R304). -/
def execBusOpen (m : Nat) (s : State) : Res :=
  nextDev s (fun d => if d.tctRuns then ((d.wr TCT_BUS_STATUS.open 1 m).busFaultBit m).raise 259 else d)

/-- BUS_RETRY (R304): a shorted bus is tried again; `short` tells whether it is shorted still. -/
def execBusRetry (m : Nat) (short : Bool) (s : State) : Res :=
  nextDev s (fun d =>
    if d.tctRuns ∧ d.rdb TCT_BUS_STATUS.short m then
      (if short then d.raise 259 else (d.wr TCT_BUS_STATUS.short 0 m).busFaultBit m)
    else d)

/-- BUS_BIAS_RESTORED (R304): the bias of an open bus returns. -/
def execBusBiasRestored (m : Nat) (s : State) : Res :=
  nextDev s (fun d => if d.tctRuns then (d.wr TCT_BUS_STATUS.open 0 m).busFaultBit m else d)

/-- STATUS_POLL (R306, R335): a discovered tile is polled. -/
def execStatusPoll (n : Nat) (s : State) : Res :=
  nextDev s (fun d => if (d.tctRuns ∨ d.polling) ∧ (d.ctl n).found then d.mgmtPort n 0x02 else d)

/-- BIAS_POLL (R307): STATUS every 2 ms until bias_ok. -/
def execBiasPoll (n : Nat) (s : State) : Res :=
  nextDev s (fun d => if d.tctRuns ∧ (d.ctl n).step = 1 then d.mgmtPort n 0x02 else d)

/-- POWER_UP_TIMEOUT (R307): the step in progress exceeds its limit. -/
def execPowerUpTimeout (n : Nat) (s : State) : Res :=
  nextDev s (fun d =>
    if d.tctRuns = false then d
    else match (d.ctl n).step with
      | 0 => d
      | 1 => d.powerFail n 1
      | 2 => d.powerFail n 2
      | _ => d.powerFail n 3)

/-- DISCHARGE_POLL (R309). -/
def execDischargePoll (n : Nat) (s : State) : Res :=
  nextDev s (fun d => if d.tctRuns ∧ (d.ctl n).discharge ≠ 0 then d.mgmtPort n 0x02 else d)

/-- DISCHARGE_TIMEOUT (R309): 100 ms without discharged. -/
def execDischargeTimeout (n : Nat) (s : State) : Res :=
  nextDev s (fun d => if d.tctRuns ∧ (d.ctl n).discharge ≠ 0 then (d.raise 263).endDischarge n else d)

end Sys2Proof.Machine
end

