-- ==== Sys2Proof/Machine/TileLink.lean ====
section
/-!
DEFINITION. The tile link's commands (07_tile_link.md R251 to R282): training, faults in service, back-channel packets,
time exchanges, keep-alives and the link test; and the temperature band of TELEMETRY (08_tile_control.md R313, R317).
-/
namespace Sys2Proof.Machine

/-! ### States -/

def Dev.linkPhase (d : Dev) (n : Nat) : Nat := d.rd TLK_PORT_STATE.phase n
def Dev.setPhase (d : Dev) (n p : Nat) : Dev :=
  (d.wr TLK_PORT_STATE.phase p n).setLnk n { d.lnk n with phaseAt := d.ticks }

/-- The port's frame and time exchange end with its leaving UP (R267). -/
def Dev.leaveUp (d : Dev) (n : Nat) : Dev :=
  let d1 := ((d.pwStop n 2).wrPortBit TLK_UP.ports n false).loseFrame n
  d1.setLnk n { d1.lnk n with exch := none, inFrame := false, rejoin := false, secondSwap := none, waitPk := [] }

/-- A fault of this cause is one of the back-channel: no lock in TS1, lock lost, or silence (R260, R266). -/
def bcCause (cause : Nat) : Bool := cause == 0x01 || cause == 0x10 || cause == 0x12

/-- A fault of the back-channel may be an open or a short: whether one is found is free (log entry 90). -/
def Dev.bcFound (d : Dev) (n cause : Nat) : Dev :=
  if bcCause cause then (d.wr TLK_LANE_STATUS.bc_fault (d.freeVal 1) n).nextFree else d

/-- Last fault registers (R260, R266). -/
def Dev.linkFault (d : Dev) (n cause : Nat) : Dev :=
  (((d.bcFound n cause).wr TLK_LAST_FAULT.cause cause).wr TLK_LAST_FAULT.port n).wr TLK_PORT_STATE.cause cause n

/-- A training counted in TLK_RETRAIN_CNT (R259, R265, R268); one that must wait for its reference is counted when it starts (R576). -/
def Dev.retrain (d : Dev) (n : Nat) : Dev :=
  if d.glb.phase = .halted then d else if d.refLost n then d.startTraining n else (d.count TLK_RETRAIN_CNT.sat TLK_RETRAIN_CNT.count 1 n).startTraining n

/-- R266 to R268: a port leaves UP with LINK_DOWN; `inPacket` tells whether a packet was being sent. -/
def Dev.linkDown (d : Dev) (n cause : Nat) (inPacket : Bool) : Dev :=
  if d.linkUp n then
    let d1 := if inPacket then d.abortPacket n else d
    let d2 := (((d1.leaveUp n).linkFault n cause).wr TLK_PORT_STATE.state 1 n).wr TLK_PORT_STATE.idle 0 n
    let d3 := (d2.setLnk n { d2.lnk n with retries := 0 }).raise 225
    if d3.rdb TLK_PORT_CTRL.auto_retrain n then (d3.setLnk n { d3.lnk n with wasUp := true }).retrain n else d3
  else d

/-- R260, R263, R265: training ends with TRAIN_FAIL; a power-up that waits for it fails (R307). -/
def Dev.trainFail (d : Dev) (n cause : Nat) : Dev :=
  let x := d.lnk n
  let d1 := (((d.linkFault n cause).wr TLK_PORT_STATE.state 1 n).wr TLK_PORT_STATE.phase 0 n).setLnk n
    { x with exch := none, phaseAt := d.ticks, await := decide (x.retries < d.rd TLK_PORT_CTRL.retry_limit n) }
  let d2 := if cause = 7 then (d1.raise 226).raise 229 else d1.raise 226
  if (d2.ctl n).step = 2 then d2.powerFail n 2 else d2

/-- R264, R268, R307: the port enters UP; a power-up goes on, or the port rejoins as R268 lays down: a tile that is not lit
gets the power-up sequence, its link being UP already. -/
def Dev.enterUp (d : Dev) (n : Nat) : Dev :=
  let d1 := (((d.wr TLK_PORT_STATE.state 3 n).wr TLK_PORT_STATE.phase 0 n).wrPortBit TLK_UP.ports n true).kilnSweep
  let x := d1.lnk n
  let d2 := ((d1.setLnk n { x with retries := 0, lastBc := d1.ticks, lastLine := d1.ticks, wasUp := false }).emit
    (.lanes n 2)).raise 224
  if (d2.ctl n).step = 2 then d2.powerEmit n
  else if x.wasUp then
    (if d2.rdb TLK_PORT_STATE.lit n then d2.setLnk n { d2.lnk n with rejoin := true }
     else if d2.pstate n = 5 then d2
     else (if d2.pstate n = 3 then d2.setPstate n 1 else d2).powerUp n)
  else d2

/-! ### Register writes -/

/-- R259: a request to train: it starts the retries again. From UP the port is taken down first, without LINK_DOWN, and
rejoins as R268 lays down; from DOWN its training is no rejoin: the port enters UP and its TRAIN report powers nothing up (log entry
121). -/
def Dev.trainRequest (d : Dev) (n : Nat) : Dev :=
  if d.glb.phase = .halted then d
  else if d.refLost n then (if d.linkState n = 1 then d.setLnk n { d.lnk n with retries := 0, held := false, await := true } else d)
  else match d.linkState n with
  | 1 => (d.setLnk n { d.lnk n with retries := 0, wasUp := false }).startTraining n
  | 2 => (d.setLnk n { d.lnk n with retries := 0 }).retrain n
  | 3 =>
    let d1 := d.leaveUp n
    (d1.setLnk n { d1.lnk n with retries := 0, wasUp := true }).retrain n
  | _ => d

/-- R259: a request to take the port down; a power-up in training fails with it. -/
def Dev.downRequest (d : Dev) (n : Nat) : Dev :=
  if d.linkState n = 0 then d
  else
    let d1 := (((d.leaveUp n).wr TLK_PORT_STATE.state 1 n).wr TLK_PORT_STATE.phase 0 n).wr TLK_TEST.running 0 n
    let d2 := (d1.wr TLK_PORT_STATE.idle 0 n).setLnk n { d1.lnk n with held := true, await := false }
    if (d2.ctl n).step = 2 then d2.powerFail n 2 else d2

/-- A write of TLK_PORT_CTRL[n]: retry_limit and auto_retrain are stored, and down wins over train. -/
def Dev.tlkPortWrite (d : Dev) (n v : Nat) : Dev :=
  let d1 := (d.wr TLK_PORT_CTRL.retry_limit (bits v 7 4) n).wrb TLK_PORT_CTRL.auto_retrain (bit v 0) n
  if bit v 30 then d1.downRequest n else if bit v 31 then d1.trainRequest n else d1

/-- R281: PRBS-31 starts on the four lanes, each from a starting point that is not laid down. -/
def Dev.startPrbs (d : Dev) (n : Nat) : Dev :=
  let d1 := forUp 4 (fun _ (p : Dev × List Nat) => (p.1.nextFree, p.2 ++ [1 + p.1.freeVal 31 % (2 ^ 31 - 1)])) (d, [])
  d1.1.emit (.prbs n d1.2)

/-- R281: a write of TLK_TEST[n]: on idle lanes LINK_TEST leaves after an exit. A write elsewhere than in UP leaves a running test as it
is. -/
def Dev.testWrite (d : Dev) (n v : Nat) : Dev :=
  let mode := bits v 25 24
  let ms := v % 2 ^ 24
  let d1 := (d.wr TLK_TEST.mode mode n).wr TLK_TEST.duration_ms ms n
  if bit v 31 ∧ d.linkUp n ∧ (mode = 1 ∨ mode = 2) ∧ 1 ≤ ms ∧ ms ≤ 200 then
    let d2 := ((d1.leaveIdle n).startPacket n 2 7 4 (wordBytes [mode * 2 ^ 24 + ms])).leaveUp n
    let d3 := ((d2.wr TLK_PORT_STATE.state 4 n).wr TLK_TEST.running 1 n).setLnk n
      { d2.lnk n with phaseAt := d2.ticks, testMode := mode, testMs := ms }
    if mode = 1 then d3.startPrbs n else d3
  else d1

/-! ### TRAIN reports (R260 to R263, R602) -/

/-- Receiver r's four report bits. -/
def recvBits (w0 r : Nat) : Nat := w0 / 2 ^ (4 * r + 16) % 16

/-- R261: the map from the TS1 report. -/
def Dev.mapLanes (d : Dev) (n w0 : Nat) : Dev :=
  let d1 := forUp 4 (fun k d => (d.wr (lanePhysical k) (recvBits w0 k % 4) n).wrb (laneInvert k) (bit (recvBits w0 k) 2) n) d
  if (List.range 4).all (fun k => recvBits w0 k % 8 == k) then d1 else d1.raise 228

/-- R263's checks: the cause of the first that fails, or 0: class and size, then rate, then serial (log entry 156). -/
def Dev.identifyCause (d : Dev) (n : Nat) (w : List Nat) : Nat :=
  let w0 := lget w 0 0
  let c := d.img.tileClass (d.portClass n)
  let size : Bool := c.any (fun c => lget w 1 0 % 65536 == c.cols && lget w 2 0 / 65536 == c.rows && lget w 2 0 % 16 == c.viewRows)
  let lo := d.rd TCT_PORT_SERIAL_LO.serial_lo n
  let hi := d.rd TCT_PORT_SERIAL_HI.serial_hi n
  if lget w 1 0 / 65536 ≠ d.portClass n ∨ size = false then 6
  else if (bits w0 15 12).testBit (d.rateCode n) = false then 5
  else if (lo ≠ 0 ∨ hi ≠ 0) ∧ (lget w 3 0 ≠ hi ∨ lget w 4 0 ≠ lo) then 7
  else 0

/-- A TRAIN report's registers. -/
def Dev.trainRegs (d : Dev) (n : Nat) (w : List Nat) : Dev :=
  let d1 := ((d.wr TLK_TILE_INFO.tile_class (lget w 1 0 / 65536) n).wr TLK_TILE_INFO.rates (bits (lget w 0 0) 15 12) n).wrb
    TLK_PORT_STATE.lit (bit (lget w 0 0) 0) n
  let d2 := (d1.wr TLK_TILE_SERIAL_HI.serial_hi (lget w 3 0) n).wr TLK_TILE_SERIAL_LO.serial_lo (lget w 4 0) n
  ((d2.wr TLK_LANE_STATUS.bc_signal 1 n).wr TLK_LANE_STATUS.bc_locked 1 n).wr TLK_LANE_STATUS.bc_fault 0 n

/-- A good TRAIN report reaches a port in TRAIN. `deskewed`: in TS2 it shows the lanes deskewed, which the report's layout has no bit for
(log entry 101). -/
def Dev.trainReport (d : Dev) (n : Nat) (w : List Nat) (deskewed : Bool) : Dev :=
  let w0 := lget w 0 0
  let d1 := d.trainRegs n w
  match d.linkPhase n with
  | 2 =>
    let d2 := d1.setLnk n { d1.lnk n with sawReport := true }
    if (bits w0 15 12).testBit (d.rateCode n) = false then d2.trainFail n 5
    else if (List.range 4).all (fun r => bit (recvBits w0 r) 3) then ((d2.mapLanes n w0).setPhase n 3).sendTraining n true
    else d2
  | 3 =>
    if deskewed && (List.range 4).all (fun r => recvBits w0 r == 8 + r) then (d1.setPhase n 4).sendKeepalive n else d1
  | 4 =>
    let cause := d1.identifyCause n w
    if cause ≠ 0 then d1.trainFail n cause else (d1.setPhase n 5).startExchange n false
  | _ => d1

/-! ### Time exchanges (R276, R277) -/

/-- R276: dfwd and rtt of an exchange in 2⁻¹⁶ ns: t1 and t4 stamps, τ and asymmetry in ps. -/
def exchangeDelay (t1 t4 : Int) (tau : Nat) (asym : Int) : Int × Int :=
  let tauU := divFloor ((tau * 65536 + 500 : Nat) : Int) 1000
  let asymU := divFloor (asym * 65536 + 500) 1000
  let rtt := (t4 - t1) - tauU
  (sarI (rtt + asymU) 1, rtt)

/-- The next exchange of training follows at once; eight complete ones end TIME (R260, R264). -/
def Dev.trainTime (d : Dev) (n : Nat) : Dev :=
  if d.linkState n = 2 ∧ d.linkPhase n = 5 then (if 8 ≤ (d.lnk n).exchDone then d.enterUp n else d.startExchange n false) else d

/-- R276, R277: an ECHO with count s and τ in ps, its TSY stamped t4 on the line clock; one that comes later than 10 µs after its TSY is
discarded. -/
def Dev.echo (d : Dev) (n s tau : Nat) (t4 : Int) : Dev :=
  match (d.lnk n).exch with
  | none => d
  | some e =>
    if e.num ≠ s then d
    else
      let (dfwd, rtt) := exchangeDelay e.t1 t4 tau e.asym
      if e.tick + usTicks 10 < d.ticks ∨ rtt < 0 ∨ fuNs 100000 < rtt then (d.exchangeMissed n).trainTime n
      else
        let x := d.lnk n
        let d1 := (d.wr TLK_FWD_DELAY.fwd_ps (ofS 32 (sarI (dfwd * 1000 + 32768) 16)) n).setLnk n
          { x with exch := none, misses := 0, exchDone := x.exchDone + 1 }
        (d1.sendPacket n 3 0 (s * 2 ^ 24 + b2n e.step) (timeField (e.t1 + dfwd))).trainTime n

/-! ### STATUS (R258, R266) and TELEMETRY (R313, R317) -/

/-- R258, R266: a STATUS and what it meets. Its count is added in
any state, and the rest concerns a port in UP. -/
def Dev.statusPacket (d : Dev) (n : Nat) (w : List Nat) (at_ : StatusCircs) : Dev :=
  let w2 := lget w 2 0
  let lost := w2 / 65536
  let d1 := d.wrb TLK_PORT_STATE.lit (bit w2 0) n
  let d2 := if lost = 0 then d1 else (d1.count TLK_TILE_ERR_CNT.sat TLK_TILE_ERR_CNT.count lost n).raise 230
  if d.linkUp n = false then d2
  else
    let d3 := if (d2.lnk n).testWait then
        (d2.count TLK_PRBS_ERR_CNT.sat TLK_PRBS_ERR_CNT.count (lget w 3 0) n).setLnk n { d2.lnk n with testWait := false }
      else d2
    let d4 := match (d3.lnk n).lastSwapped with
      | some f => if at_.toKeepalive = false ∧ lget w 1 0 ≠ f then
          (d3.count TLK_SWAP_MISS_CNT.sat TLK_SWAP_MISS_CNT.count 1 n).raise 232 else d3
      | none => d3
    if bits w2 7 4 = 15 then d4 else d4.linkDown n 0x11 at_.inPacket

/-- R313, R317: the hottest of four sensors sets the port's band; at the shutdown temperature the port powers down. -/
def Dev.telemetry (d : Dev) (n : Nat) (w : List Nat) : Dev :=
  let t := max (max (toS 16 (lget w 0 0 / 65536)) (toS 16 (lget w 0 0))) (max (toS 16 (lget w 1 0 / 65536)) (toS 16 (lget w 1 0)))
  let d1 := (d.wr TCT_PORT_TEMP.hottest (ofS 16 t) n).wr TCT_PORT_STATE.band (d.bandOf n t (d.bandInForce n)) n
  let d2 := d1.setCtl n { d1.ctl n with telem := true }
  if d2.shutdownTemp n ≤ t then ((d2.setCtl n { d2.ctl n with hot := true }).raise 267).powerDown n else d2

/-! ### The commands -/

/-- DETECT_DONE (R260): all four terminations are found. -/
def execDetectDone (n : Nat) (s : State) : Res :=
  nextDev s (fun d =>
    if d.tlkRuns n ∧ d.linkState n = 2 ∧ d.linkPhase n = 1 then
      ((forUp 4 (fun p d => (d.wr (laneTerm p) 1 n).wr (laneDriving p) 1 n) d).setPhase n 2).sendTraining n false
    else d)

/-- TRAIN_REPORT (R260 to R263, R602): the code groups that the back-channel has received since the port's last command, a TRAIN report at
their end; `slips` is what the elastic buffer did in each skip set among them, as for every row of the back-channel (R247). -/
def execTrainReport (n : Nat) (rx : List Nat) (slips : Nat) (deskewed : Bool) (s : State) : Res :=
  nextDev s (fun d => d.bcTake n 8 (fun l => l == 20) rx slips (fun w d => if d.linkState n = 2 then d.trainReport n w deskewed else d))

/-- The end of each phase's timeout, in ticks from its start (R260). -/
def phaseTicks (phase : Nat) : Nat :=
  match phase with | 1 => usTicks 10 | 2 => msTicks 200 | 3 => msTicks 10 | 4 => msTicks 1 | _ => msTicks 5

/-- TRAIN_PHASE_TIMEOUT (R260): the phase's timeout ends; in DETECT, `opens` and `shorts` are the lanes found so. -/
def execTrainPhaseTimeout (n opens shorts : Nat) (s : State) : Res :=
  nextDev s (fun d =>
    if d.tlkRuns n ∧ d.linkState n = 2 then
      let d1 := d.waitTick ((d.lnk n).phaseAt + phaseTicks (d.linkPhase n))
      match d.linkPhase n with
      | 1 =>
        let d2 := forUp 4 (fun p d => (((d.wrb (laneOpen p) (opens.testBit p) n).wrb (laneShort p) (shorts.testBit p) n).wrb
          (laneTerm p) (! opens.testBit p && ! shorts.testBit p) n)) d1
        (if opens ≠ 0 ∨ shorts ≠ 0 then d2.raise 227 else d2).trainFail n (if shorts ≠ 0 then 4 else 3)
      | 2 => d1.trainFail n (if d.rdb TLK_LANE_STATUS.bc_locked n && (d.lnk n).sawReport then 2 else 1)
      | 3 => d1.trainFail n 8
      | _ => d1.trainFail n 9
    else d)

/-- TRAIN_RETRY (R265): 1 s after TRAIN_FAIL, during the discharge of a relight too (R88, log entry 125). -/
def execTrainRetry (n : Nat) (s : State) : Res :=
  nextDev s (fun d =>
    if d.tlkRuns n ∧ d.linkState n = 1 ∧ (d.lnk n).await ∧ d.refLost n = false then
      let d1 := d.waitTick ((d.lnk n).phaseAt + msTicks 1000)
      (d1.setLnk n { d1.lnk n with retries := (d1.lnk n).retries + 1 }).retrain n
    else d)

/-- ECHO_RECEIVE (R276): an ECHO packet; `t4` is the stamp of the tile's TSY on the line clock, in 2⁻¹⁶ ns. -/
def execEchoReceive (n : Nat) (rx : List Nat) (slips : Nat) (t4 : Int) (s : State) : Res :=
  nextDev s (fun d => d.bcTake n 12 (fun l => l == 8) rx slips (fun w d => d.echo n (lget w 0 0 / 2 ^ 24) (lget w 1 0) t4))

/-- ECHO_TIMEOUT (R277): 10 µs after t1 without the ECHO. -/
def execEchoTimeout (n : Nat) (s : State) : Res :=
  nextDev s (fun d =>
    match (d.lnk n).exch with
    | some e => if d.tlkRuns n then ((d.waitTick (e.tick + usTicks 10)).exchangeMissed n).trainTime n else d
    | none => d)

/-- STATUS_RECEIVE (R258). -/
def execStatusReceive (n : Nat) (rx : List Nat) (slips : Nat) (at_ : StatusCircs) (s : State) : Res :=
  nextDev s (fun d => d.bcTake n 9 (fun l => l == 16) rx slips (fun w d => d.statusPacket n w at_))

/-- CHECKSUM_RECEIVE (R297): the report is held for the deadline. -/
def execChecksumReceive (n : Nat) (rx : List Nat) (slips : Nat) (s : State) : Res :=
  nextDev s (fun d => d.bcTake n 10 (fun l => l == 12) rx slips (fun w d =>
    d.setLnk n { d.lnk n with csum := some (lget w 0 0, lget w 1 0, lget w 2 0) }))

/-- TELEMETRY_RECEIVE (R313). -/
def execTelemetryReceive (n : Nat) (rx : List Nat) (slips : Nat) (s : State) : Res :=
  nextDev s (fun d => d.bcTake n 11 (fun l => l == 16) rx slips (fun w d => d.telemetry n w))

/-- BC_LOCK_LOST (R266): no symbol lock for more than 10 µs. -/
def execBcLockLost (n : Nat) (inPacket : Bool) (s : State) : Res :=
  nextDev s (fun d => if d.tlkRuns n then (d.wr TLK_LANE_STATUS.bc_locked 0 n).linkDown n 0x10 inPacket else d)

/-- BC_SILENT (R266): 50 ms without a good back-channel packet. -/
def execBcSilent (n : Nat) (inPacket : Bool) (s : State) : Res :=
  nextDev s (fun d => if d.tlkRuns n then (d.waitTick ((d.lnk n).lastBc + msTicks 50)).linkDown n 0x12 inPacket else d)

/-- LANE_MONITOR_FAULT (R266, R269): a forward driver finds an open or a short; a short disables the driver. -/
def execLaneMonitorFault (n lane : Nat) (short inPacket : Bool) (s : State) : Res :=
  nextDev s (fun d =>
    if d.tlkRuns n then
      let d1 := if short then (d.wr (laneShort (lane % 4)) 1 n).wr (laneDriving (lane % 4)) 0 n else d.wr (laneOpen (lane % 4)) 1 n
      (d1.raise 227).linkDown n (if short then 4 else 3) inPacket
    else d)

/-- KEEPALIVE_TIMER (R256, R272): the interval of a port in UP has passed. -/
def execKeepaliveTimer (n : Nat) (s : State) : Res :=
  nextDev s (fun d =>
    if d.tlkRuns n ∧ d.linkUp n then
      (d.waitTick ((d.lnk n).lastLine + msTicks (if d.started (d.portGroup n) then 20 else 10))).sendKeepalive n
    else d)

/-- R255: the second copy of port n's SWAP leaves, at least 2 µs after the first. -/
def Dev.secondCopy (d : Dev) (n : Nat) : Dev :=
  match (d.lnk n).secondSwap with
  | none => d
  | some (t, p) =>
    let d1 := d.waitTick (t + usTicks 2)
    (d1.setLnk n { d1.lnk n with secondSwap := none, lastCtl := d1.ticks }).sendLink n p

/-- SWAP_SECOND_COPY (R255): never on idle lanes (R271), which it precedes. -/
def execSwapSecondCopy (n : Nat) (s : State) : Res := nextDev s (fun d => if d.lanesIdle n then d else d.secondCopy n)

/-- TEST_END (R282): the duration ends; `errors` are the bit errors the device counted in mode 2. Training goes on from TS1, or from DETECT
where a driver found a short in the test (R269, log entry 102); while the device is halted the port stays down (R68), and while its reference
is lost it waits (R576). -/
def execTestEnd (n errors : Nat) (s : State) : Res :=
  nextDev s (fun d =>
    if d.tlkRuns n ∧ d.linkState n = 4 then
      let d0 := d.waitTick ((d.lnk n).phaseAt + msTicks (d.lnk n).testMs)
      let m2 : Bool := (d.lnk n).testMode == 2
      let short : Bool := (List.range 4).any (fun p => d.rdb (laneShort p) n)
      let d1 := if m2 then d0.count TLK_PRBS_ERR_CNT.sat TLK_PRBS_ERR_CNT.count errors n else d0
      let dt := ((d1.wr TLK_PORT_STATE.state 1 n).startTraining n).wr TLK_TEST.running 0 n
      let d2 := if short ∨ d.glb.phase = .halted ∨ d.refLost n then dt
        else ((forUp 4 (fun p d => (d.wr (laneTerm p) 1 n).wr (laneDriving p) 1 n) dt).setPhase n 2).sendTraining n false
      (d2.setLnk n { d2.lnk n with wasUp := true, retries := 0, testWait := ! m2 }).raise 233
    else d)

end Sys2Proof.Machine
end

