-- ==== Sys2Proof/Machine/Firescreen.lean ====
section
/-!
DEFINITION. The firescreen (08_tile_control.md R336 to R350): power sums and factors, the swap tests it runs, the flash
detectors, levels, the heartbeat, the hold timeout and fades.
-/
namespace Sys2Proof.Machine

/-! ### Power (R339 to R343) -/

/-- Rays of one frame of port n's tile: hogels × 12 × view rows. -/
def Dev.frameRays (d : Dev) (n : Nat) : Nat :=
  match d.img.tileClass (d.portClass n) with
  | some c => c.cols * c.rows * 12 * c.viewRows
  | none => 0

/-- R339: the power of three code sums. -/
def Dev.portPower (d : Dev) (n : Nat) (sums : List Nat) : Nat :=
  let div := 4088 * d.frameRays n
  sumUp 3 (fun c => if div = 0 then 0 else d.fscWord n (0x0C + 4 * c) * lget sums c 0 / div) + d.fscWord n 8

/-- The tile power ceiling and p0 of port n. -/
def Dev.tileCeil (d : Dev) (n : Nat) : Nat := d.rd FSC_PORT_CEIL.ceiling n
def Dev.p0 (d : Dev) (n : Nat) : Nat := d.fscWord n 8

/-- R336: the wall ceiling in force. -/
def Dev.wallCeil (d : Dev) : Nat := min (d.rd FSC_WALL_CEIL.ceiling) (d.rd FSC_WALL_TRIM.trim)

/-- R340: k_tile from the ceiling, p0 and p_raw. -/
def tileFactor (ceil p0 pRaw : Nat) : Nat :=
  if pRaw ≤ ceil then 65536 else min 65536 (65536 * ((ceil - p0) * 127 / 128) / (pRaw - p0))

/-- R340: k_wall from the wall ceiling, Σ p0 and Σ d. -/
def wallFactor (ceil sumP0 sumD : Nat) : Nat :=
  let num : Int := sarI (((ceil : Int) - sumP0) * 127) 7
  if sumP0 + sumD ≤ ceil then 65536
  else if num ≤ 0 ∨ sumD = 0 then 0
  else min 65536 (65536 * num.toNat / sumD)

/-- R341: the factor of a quarter. -/
def quarterFactor (kTile kWall kFlash : Nat) : Nat := ((kTile * kWall + 32768) / 65536 * kFlash + 32768) / 65536

/-- The wall factor in force in group g. -/
def Dev.kWallOf (d : Dev) (g : Nat) : Nat := tget d.fsc.kWall g 65536

/-- k_fl of quarter q of port n (R346). -/
def Dev.kFlash (d : Dev) (n q : Nat) : Nat :=
  if (lget (d.fire n).det q FlashDet.init).damped then d.fscWord n 0x24 % 2 ^ 17 else 65536

/-- k_q in force of quarter q of port n. -/
def Dev.kQuarter (d : Dev) (n q : Nat) : Nat := quarterFactor (d.rd FSC_PORT_K.k_tile n) (d.kWallOf (d.portGroup n)) (d.kFlash n q)

/-- The luminance proxy of a ray's drive words (the flash limiter's Λ). -/
def proxyOf (r g b : Nat) (dec : Nat → Nat) : Nat := (54 * dec r + 183 * dec g + 19 * dec b + 128) / 256

/-! ### Flash detectors (R344 to R346) -/

/-- R344: one detector and quarter mean m: the new state and whether a reversal occurred. -/
def flashStep (q : FlashDet) (m floor delta : Nat) : FlashDet × Bool :=
  match q.ext with
  | none => ({ q with dir := 0, ext := some m }, false)
  | some ext =>
    if q.dir = 0 then
      (if delta ≤ (max m ext - min m ext) ∧ floor ≤ max m ext then ({ q with dir := if ext < m then 1 else 2, ext := some m }, false)
       else (q, false))
    else if q.dir = 1 then
      (if ext < m then ({ q with ext := some m }, false)
       else if delta ≤ ext - m ∧ floor ≤ ext then ({ q with dir := 2, ext := some m }, true) else (q, false))
    else
      (if m < ext then ({ q with ext := some m }, false)
       else if delta ≤ m - ext ∧ floor ≤ m then ({ q with dir := 1, ext := some m }, true) else (q, false))

/-- Reversals of a detector whose stamps lie within the 1,000 ms before instant t. -/
def heldReversals (q : FlashDet) (t : Int) : Nat := q.stamps.countP (fun x => decide (t - x ≤ ((fuSec : Nat) : Int)))

/-! ### At line N_active (R339, R340, R344) -/

/-- Port n of group g evaluates its frame, if it composed a line of it. -/
def Dev.evalPort (d : Dev) (n : Nat) : Dev :=
  let x := d.fire n
  if x.composed = false then d
  else
    let pOut := d.portPower n x.sums
    let pRaw := d.portPower n x.raws
    let k := tileFactor (d.tileCeil n) (d.p0 n) pRaw
    let rq := d.frameRays n / 4
    let means := (List.range 4).map (fun q => if rq = 0 then 0 else lget x.proxy q 0 / rq)
    let fl := d.fscWord n 0x20
    let st := (List.range 4).map (fun q => flashStep (lget x.det q FlashDet.init) (lget means q 0) (fl / 65536) (fl % 65536))
    let x' := { x with pOut := pOut, kNext := k, dyn := (pRaw - d.p0 n) * k / 65536, means := means,
                       next := st.map (fun p => p.1), revs := st.map (fun p => p.2) }
    let d1 := (d.wr FSC_PORT_RAW.power (min pRaw 0xFFFFFFFF) n).setFire n x'
    if k < 65536 ∧ x.kNext = 65536 then d1.raise 288 else d1

/-- The wall's LIT ports. -/
def Dev.litPorts (d : Dev) : List Nat := d.img.activePorts.filter d.lit

/-- R340: wall group g computes its wall factor. -/
def Dev.evalWall (d : Dev) (g : Nat) : Dev :=
  let l := d.litPorts
  let k := wallFactor d.wallCeil (l.foldl (fun a n => a + d.p0 n) 0) (l.foldl (fun a n => a + (d.fire n).dyn) 0)
  let old := tget d.fsc.kWallNext g 65536
  let d1 := ({ d with fsc := { d.fsc with kWallNext := tput d.fsc.kWallNext g k } } : Dev).wr FSC_WALL_K.k_wall k
  if k < 65536 ∧ old = 65536 then d1.raise 290 else d1

/-- The firescreen at the start of line N_active of wall group g. -/
def Dev.fscBlanking (d : Dev) (g : Nat) : Dev := (forEach (d.groupPorts g) (fun n d => d.evalPort n) d).evalWall g

/-! ### At the composition of line 0 (R337, R340, R346) -/

/-- R337: L_c of level v of port n comes into force. -/
def Dev.applyLevel (d : Dev) (n v : Nat) : Dev :=
  let w0 := d.fscWord n (0x40 + 8 * v)
  let w1 := d.fscWord n (0x44 + 8 * v)
  (((d.wr FSC_PORT_LEVEL.active_level v n).wr FSC_PORT_LUM_RG.lum_r (w0 / 65536) n).wr FSC_PORT_LUM_RG.lum_g (w0 % 65536) n).wr
    FSC_PORT_LUM_B.lum_b (w1 / 65536) n

/-- R346: quarter q enters damping that a swap has made due, or leaves it at line clock `now` once its newest reversal is 1,000 ms old;
its detector then restarts. -/
def dampStep (q : FlashDet) (now : Int) : FlashDet :=
  if q.damped then
    (if q.stamps.all (fun t => decide (((fuSec : Nat) : Int) ≤ now - t)) then { q with damped := false, due := false, dir := 0, ext := none }
     else { q with due := false })
  else if q.due then { q with damped := true, due := false, dir := 0, ext := none }
  else q

/-- Port n at the start of the composition of line 0. -/
def Dev.fscPortLine0 (d : Dev) (n : Nat) : Dev :=
  let x := d.fire n
  let now := d.lineClock (d.portGroup n)
  let det := x.det.map (fun q => dampStep q now)
  let entered := (List.range 4).countP (fun q => (lget det q FlashDet.init).damped && ! (lget x.det q FlashDet.init).damped)
  let d1 := (d.wr FSC_PORT_K.k_tile x.kNext n).setFire n
    { x with det := det, sums := [0, 0, 0], raws := [0, 0, 0], proxy := [0, 0, 0, 0], composed := false }
  let d2 := d1.applyLevel n (d1.rd FSC_PORT_LEVEL.pending_level n)
  forUp entered (fun _ d => (d.count FSC_FLASH_DAMP_CNT.sat FSC_FLASH_DAMP_CNT.count 1 n).raise 292) d2

/-- The firescreen of wall group g at the start of the composition of line 0. -/
def Dev.fscLine0 (d : Dev) (g : Nat) : Dev :=
  let d1 : Dev := { d with fsc := { d.fsc with kWall := tput d.fsc.kWall g (tget d.fsc.kWallNext g 65536) } }
  forEach (d.groupPorts g) (fun n d => d.fscPortLine0 n) d1

/-- R211, R346: the line clock of group g takes a step: every held stamp moves with it. -/
def Dev.stepStamps (d : Dev) (g : Nat) (delta : Int) : Dev :=
  if delta = 0 then d
  else forEach (d.groupPorts g) (fun n d =>
    let x := d.fire n
    let mv (q : FlashDet) : FlashDet := { q with stamps := q.stamps.map (fun t => t + delta) }
    (d.setFire n { x with det := x.det.map mv, next := x.next.map mv }).setCtl n
      { d.ctl n with firstSkip := (d.ctl n).firstSkip.map (fun t => t + delta) }) d

/-! ### Swap tests (R342, R343, R345) and what a swap keeps -/

/-- R345: the flash test of port n fails for a swap at instant t. -/
def Dev.flashFails (d : Dev) (n : Nat) (t : Int) : Bool :=
  let x := d.fire n
  x.composed && (List.range 4).any (fun q => lget x.revs q false && decide (3 ≤ heldReversals (lget x.det q FlashDet.init) t))

/-- R342: the tile power test of port n fails. -/
def Dev.powerFails (d : Dev) (n : Nat) : Bool := (d.fire n).composed && decide (d.tileCeil n < (d.fire n).pOut)

/-- p_out less displayed power of port n. -/
def Dev.powerGain (d : Dev) (n : Nat) : Int := ((d.fire n).pOut : Int) - d.rd FSC_PORT_POWER.power n

/-- R343: the wall's power with `swaps` the ports that will swap. -/
def Dev.wallSum (d : Dev) (swaps : List Nat) : Nat :=
  d.litPorts.foldl (fun a n => a + (if swaps.contains n then (d.fire n).pOut else d.rd FSC_PORT_POWER.power n)) 0

/-- R343: the port turned to skip next: the largest rise, the highest number on a tie. -/
def Dev.wallVictim (d : Dev) (swaps : List Nat) : Option Nat :=
  swaps.foldl (fun o n => if d.powerGain n ≤ 0 then o else match o with
    | none => some n
    | some m => if d.powerGain m < d.powerGain n ∨ (d.powerGain m = d.powerGain n ∧ m < n) then some n else o) none

/-- R343: ports turned to skip, in the order turned, from the LIT ports that still have swap = 1. -/
def Dev.wallTurned (d : Dev) : Nat → List Nat → List Nat
  | 0, _ => []
  | fuel + 1, swaps =>
    if d.wallSum swaps ≤ d.wallCeil then []
    else match d.wallVictim swaps with
      | none => []
      | some n => n :: d.wallTurned fuel (swaps.filter (fun m => m != n))

/-- R321, R343 to R346: port n swaps at instant t: its frame's power is displayed and its detectors move on; a quarter that now holds 3
reversals is to be damped. -/
def Dev.fscSwapped (d : Dev) (n : Nat) (t : Int) : Dev :=
  let x := d.fire n
  if x.composed = false then d
  else
    let det := (List.range 4).map (fun q =>
      let nx := lget x.next q FlashDet.init
      let cur := lget x.det q FlashDet.init
      let stamps := (if lget x.revs q false then t :: cur.stamps else cur.stamps).filter
        (fun s => decide (t - s ≤ ((fuSec : Nat) : Int)))
      { dir := nx.dir, ext := nx.ext, stamps := stamps, damped := cur.damped, due := decide (3 ≤ stamps.length) : FlashDet })
    (d.wr FSC_PORT_POWER.power (min x.pOut 0xFFFFFFFF) n).setFire n { x with det := det }

/-! ### Fades (R348 to R350) -/

/-- A LIT port starts fading. -/
def Dev.startFade (d : Dev) (n : Nat) : Dev :=
  if d.lit n then (d.setPstate n 6).setCtl n { d.ctl n with fadeStart := d.ticks, fadeSteps := 0 } else d

/-- R350: the scale of the drive references after e µs of fade. -/
def fadeFactor (us : Nat) : Nat := (1000000 - us) * 65536 / 1000000

/-- R350: one fade step of port n, at the next multiple of 10 ms of its fade. -/
def Dev.fadeStep (d : Dev) (n : Nat) : Dev :=
  if d.pstate n ≠ 6 then d
  else
    let x := d.ctl n
    let d1 := d.waitTick (x.fadeStart + msTicks (10 * (x.fadeSteps + 1)))
    let k := fadeFactor ((d1.ticks - x.fadeStart) / 250)
    let c := d1.refCodes n (d1.bandInForce n) (d1.levelInForce n)
    let f (v : Nat) : Nat := (v * k + 32768) / 65536
    let d2 := d1.sendDriveRef n 0xFFFFFFFF (d1.bandInForce n) (d1.levelInForce n) (f c.1, f c.2.1, f c.2.2)
    let d3 := d2.setCtl n { d2.ctl n with fadeSteps := x.fadeSteps + 1 }
    if f c.1 = 0 ∧ f c.2.1 = 0 ∧ f c.2.2 = 0 then d3.startDischarge n 3 else d3

/-! ### Heartbeat (R347, R348) -/

/-- R347: the timer starts at the supervisor's release, with the age at 0. -/
def Dev.hbStart (d : Dev) : Dev := { d with fsc := { d.fsc with hbRun := true, hbTick := d.ticks, hbAge := 0 } }

/-- R347: the timer is suspended and the age holds its value. -/
def Dev.hbSuspend (d : Dev) : Dev := { d with fsc := { d.fsc with hbRun := false, hbAge := d.hbAgeMs } }

/-- R347, R348: a write of FSC_HEARTBEAT; after expiry a refresh changes nothing. -/
def Dev.hbWrite (d : Dev) (v : Nat) : Dev :=
  if bit v 0 ∧ d.rdb FSC_STATUS.hb_expired = false then { d with fsc := { d.fsc with hbTick := d.ticks, hbAge := 0 } } else d

/-- R337: a write of FSC_PORT_LEVEL[n]; a level the class does not have is dropped. -/
def Dev.levelWrite (d : Dev) (n v : Nat) : Dev :=
  if v % 16 ≤ d.rd FSC_PORT_LEVEL.level_count n then d.wr FSC_PORT_LEVEL.pending_level (v % 16) n else d

/-- The firescreen has power and is not held in reset. -/
def Dev.fscRuns (d : Dev) : Bool := d.rdb GLB_PWR_STATUS.core && ! d.blockHeld 17

/-! ### The commands -/

/-- HEARTBEAT_EXPIRY (R348): T_hb without a refresh. -/
def execHeartbeatExpiry (s : State) : Res :=
  nextDev s (fun d =>
    if d.fscRuns ∧ d.fsc.hbRun ∧ d.rdb FSC_STATUS.hb_expired = false then
      let d1 := (d.waitTick (d.fsc.hbTick + msTicks d.img.secure.hbPeriod)).wr FSC_STATUS.hb_expired 1
      forEach d1.img.activePorts (fun n d => d.startFade n) (d1.raise 294)
    else d)

/-- hold_timeout in ms (R337's table). -/
def Dev.holdTimeout (d : Dev) (n : Nat) : Nat := leAt (d.fscBody n) 8 4 % 2 ^ 14

/-- HOLD_TIMEOUT (R349): a LIT port has skipped every swap for hold_timeout. -/
def execHoldTimeout (n : Nat) (s : State) : Res :=
  nextDev s (fun d =>
    match (d.ctl n).firstSkip with
    | none => d
    | some t =>
      if d.fscRuns ∧ d.lit n then
        ((d.waitLine (d.portGroup n) (t + fuNs (d.holdTimeout n * 1000000))).raise 295).startFade n
      else d)

/-- FADE_STEP (R350). -/
def execFadeStep (n : Nat) (s : State) : Res := nextDev s (fun d => d.fadeStep n)

end Sys2Proof.Machine
end

