-- ==== Sys2Proof/Machine/Ray.lean ====
section
/-!
DEFINITION. Ray synthesis (04_ray_synthesis.md R133 to R169): schedule entries, band fetch, line compute with gating and
band misses, bellows, and slices with their spares.
-/
namespace Sys2Proof.Machine

/-! ### Streams (R152) and coefficients (R141, R144) -/

/-- A fetch stream: wall group, plane position, unit and subscribing ports; none where the entry's bytes are absent. -/
structure StreamEnt where
  group : Nat
  plane : Nat
  unit : Nat
  ports : List Nat
  deriving DecidableEq, Repr

/-- Entry i of the stream table of wall group g's SCHEDULES, which holds up to 128 entries or to the section's end (log entry 110). -/
def Dev.streamEnt (d : Dev) (g i : Nat) : Option StreamEnt :=
  let b := d.schedBody g
  let o := d.streamTable g + 32 * i
  if 128 ≤ i ∨ b.length < o + 32 then none
  else
    let w := leAt b o 4
    some { group := bits w 13 12, plane := bits w 11 8, unit := bits w 3 0,
           ports := (List.range 96).filter (fun n => (leAt b (o + 8) 12).testBit n) }

/-- The fetch streams of wall group g, with their numbers. -/
def Dev.groupStreams (d : Dev) (g : Nat) : List (Nat × StreamEnt) :=
  (List.range 128).filterMap (fun i => (d.streamEnt g i).bind (fun e => if e.group = g ∧ ! e.ports.isEmpty then some (i, e) else none))

/-- Tap t of phase ph of coefficient set c (COEFF section). -/
def Dev.tap (d : Dev) (g c ph t : Nat) : Int := coeffValue (leAt (d.img.body 0x08 g) (16 + 1280 * c + 20 * ph + 2 * t) 2 % 4096)

/-- R144: the coefficient set in force for an entry of slot k in wall group g. -/
def Dev.coeffSet (d : Dev) (g k : Nat) (e : SchedEntry) : Nat :=
  if d.rdb RAY_COEFF_SEL.active_en g k then d.rd RAY_COEFF_SEL.active_set g k else e.set

/-! ### Underruns (R218) and lost frames (R163) -/

/-- R218: port n of group g reports an underrun; the first of the frame raises UNDERRUN. -/
def Dev.underrun (d : Dev) (g n : Nat) : Dev :=
  let x := d.scnG g
  let d1 := d.setScn g { x with underrun := if x.underrun.testBit n then x.underrun else x.underrun + 2 ^ n, underrunSeen := true }
  if x.underrunSeen then d1 else d1.raise (160 + 16 * g + 6)

/-- The next frame of port n is lost. -/
def Dev.loseNext (d : Dev) (n : Nat) : Dev :=
  let g := d.portGroup n
  let x := d.scnG g
  if x.lostNext.testBit n then d else d.setScn g { x with lostNext := x.lostNext + 2 ^ n }

/-- R163: every frame of port n whose line 0 compute has begun and whose last active line is not yet computed is lost. -/
def Dev.losePresent (d : Dev) (n : Nat) : Dev :=
  let g := d.portGroup n
  let l := d.curLine g
  let d1 := if l + 2 < d.nActive g ∧ (d.scnG g).begun then d.loseFrame n else d
  if d.inExtension g = false ∧ d.nTotal g ≤ l + 2 then d1.loseNext n else d1

/-- The line in compute of group g in its present line period (R148, R149). -/
def Dev.lineInCompute (d : Dev) (g : Nat) : Option Nat :=
  let l := d.curLine g
  if d.inExtension g then none
  else if l + 2 < d.nActive g then some (l + 2)
  else if l + 2 = d.nTotal g then some 0
  else if l + 1 = d.nTotal g then some 1
  else none

/-! ### Slices (R161 to R168) -/

/-- The fields of quarter q in RAY_SPARE_STATUS. -/
def spareInUse (q : Nat) : Fld := { RAY_SPARE_STATUS.in_use0 with lo := 8 * q + 7 }
def spareFailed (q : Nat) : Fld := { RAY_SPARE_STATUS.failed0 with lo := 8 * q + 6 }
def spareManual (q : Nat) : Fld := { RAY_SPARE_STATUS.manual0 with lo := 8 * q + 5 }
def spareReplaced (q : Nat) : Fld := { RAY_SPARE_STATUS.replaced0 with lo := 8 * q }

/-- The slice that serves port n, if one does. -/
def Dev.servedBy (d : Dev) (n : Nat) : Option Nat :=
  if d.rdb RAY_PORT_SLICE.served n then some (d.rd RAY_PORT_SLICE.slice n) else none

/-- Slice state codes. -/
def Dev.sliceState (d : Dev) (s : Nat) : Nat := d.rd RAY_SLICE_STATUS.state s

/-- The spare of quarter q stands by and is not pledged to a waiting takeover: a spare shows as free until its takeover is pledged
(log entry 109). -/
def Dev.spareStands (d : Dev) (q : Nat) : Bool := d.rdBit RAY_STATUS.spares_free q

/-- A takeover of the failed slice s starts to wait for its admission point. -/
def Dev.pledge (d : Dev) (s : Nat) : Dev :=
  ({ d with ray := { d.ray with waiting := d.ray.waiting ++ [⟨s, d.ticks⟩] } } : Dev).wrBit RAY_STATUS.spares_free (s / 25) false

/-- The load gave the spare of quarter q to a port: the quarter has no standby spare (R56). -/
def Dev.spareServesPort (d : Dev) (q : Nat) : Bool := d.img.geo.ports.any (fun p => p.2.slice == 25 * q + 24)

/-- R162 to R168: slice s fails; `boot` tells a self-test failure, which takes its spare at once (R167). The first failed slice of a
quarter that served a port claims the standing spare, which takes over at once or by a later command; after it, and in a quarter whose
spare serves a port from the load on, every failure of the quarter raises NO_SPARE (R56). -/
def Dev.failSlice (d : Dev) (s cause : Nat) (boot : Bool := false) : Dev :=
  if 99 < s ∨ d.sliceState s = 2 then d
  else
    let q := s / 25
    let port := d.rd RAY_SLICE_STATUS.port s
    let d1 := ((((d.wr RAY_SLICE_STATUS.state 2 s).wr RAY_SLICE_STATUS.port 0x7F s).wrBit RAY_FAILED.failed (s % 32) true (s / 32)).wr
      RAY_STATUS.failed (d.rd RAY_STATUS.failed + 1)).wr RAY_LAST_FAULT.slice s
    let d2 := (d1.wr RAY_LAST_FAULT.cause cause).raise 96 true
    let d3 := if port = 0x7F then d2
      else
        ((d2.wr RAY_PORT_SLICE.served 0 port).wr RAY_STATUS.active_ports (d2.rd RAY_STATUS.active_ports - 1)).losePresent port
    if s % 25 = 24 then
      let pledged := d3.ray.takeover.any (fun t => t.1 / 25 == q)
      let d4 := ((d3.wr (spareFailed q) 1).wr (spareInUse q) 0).wrBit RAY_STATUS.spares_free q false
      let d5 : Dev := { d4 with ray := { d4.ray with waiting := d4.ray.waiting.filter (fun w => w.slice / 25 != q) } }
      if pledged ∨ port ≠ 0x7F then d5.raise 98 else d5
    else if d3.spareStands q = false ∨ d3.ray.takeover.any (fun t => t.1 / 25 == q) then
      (if port = 0x7F ∧ boot ∧ d3.spareServesPort q = false then d3 else d3.raise 98)
    else if port = 0x7F then d3
    else
      let d4 : Dev := { d3 with ray := { d3.ray with takeover := tput d3.ray.takeover s port } }
      if boot ∨ d4.rd (spareManual q) = 0 then d4.pledge s else d4

/-- R164: the spare of quarter q takes the port of failed slice s over. -/
def Dev.takeOver (d : Dev) (s : Nat) : Dev :=
  let q := s / 25
  let n := tget d.ray.takeover s 0x7F
  let sp := 25 * q + 24
  let d1 := ((d.wr RAY_PORT_SLICE.slice sp n).wr RAY_PORT_SLICE.served 1 n).wr RAY_STATUS.active_ports (d.rd RAY_STATUS.active_ports + 1)
  let d2 := (((d1.wr RAY_SLICE_STATUS.state 1 sp).wr RAY_SLICE_STATUS.port n sp).wr (spareInUse q) 1).wr (spareReplaced q) (s % 25)
  let d3 := d2.wrBit RAY_STATUS.spares_free q false
  ({ d3 with ray := { d3.ray with waiting := d3.ray.waiting.filter (fun w => w.slice != s) } } : Dev).raise 97

/-- At least one line period of group g has passed since tick t. -/
def Dev.linePeriodPassed (d : Dev) (g t : Nat) : Bool :=
  let m := d.modeCfg g (d.rd SCN_MODE.active_mode g)
  decide (1000000000 * m.fDen ≤ (d.ticks - t) * 4 * (m.fNum * m.nTotal))

/-- R164, R165: the takeovers that an admission point of group g serves. -/
def Dev.admissionTakeovers (d : Dev) (g : Nat) : Dev :=
  forEach d.ray.waiting (fun w d =>
    if d.portGroup (tget d.ray.takeover w.slice 0x7F) = g ∧ d.linePeriodPassed g w.from_ then d.takeOver w.slice else d) d

/-- R165: a takeover command for slice s. -/
def Dev.manualTakeover (d : Dev) (s : Nat) : Dev :=
  match tfind d.ray.takeover s with
  | none => d
  | some n =>
    if d.sliceState s = 2 ∧ s % 25 ≠ 24 ∧ d.servedBy n = none ∧ d.spareStands (s / 25) then d.pledge s else d

/-- A write of RAY_SPARE_CTRL (R165): force_fail before takeover; a slice above 99 leaves all as it was. -/
def Dev.spareWrite (d : Dev) (v : Nat) : Dev :=
  let s := v % 128
  if 99 < s then d
  else
    let d1 := d.wr RAY_SPARE_CTRL.slice s
    let d2 := if bit v 30 then d1.failSlice s 5 else d1
    if bit v 31 then d2.manualTakeover s else d2

/-- The quarter of slice s has power (R567). -/
def Dev.quarterOn (d : Dev) (s : Nat) : Bool := d.rdBit GLB_PWR_STATUS.quarters (s / 25)

/-- R167: the self-test results of a boot or relight: spares first, then failed slices in rising order. A slice of a quarter without power
takes no test (R567). -/
def Dev.selfTest (d : Dev) (fails : List Nat) : Dev :=
  let order := (List.range 100).filter (fun s => fails.contains s && d.quarterOn s)
  let d1 := forEach (order.filter (fun s => s % 25 == 24)) (fun s d => d.failSlice s 4 true) d
  forEach (order.filter (fun s => s % 25 != 24)) (fun s d =>
    let d2 := d.failSlice s 4 true
    if d2.ray.waiting.any (fun w => w.slice == s) then d2.takeOver s else d2) d1

/-- Corrected line-store errors of slice s (R161). -/
def Dev.eccCorrected (d : Dev) (s n : Nat) : Dev :=
  forUp n (fun _ d => (d.count RAY_ECC_CORR_CNT.sat RAY_ECC_CORR_CNT.count 1 s).raise 101) d

/-- A packet of the port that slice s serves is cut short by the slice's failure (R251). -/
def Dev.sourceAbort (d : Dev) (s : Nat) (inPacket : Bool) : Dev :=
  let n := d.rd RAY_SLICE_STATUS.port s
  if inPacket ∧ s ≤ 99 ∧ d.sliceState s = 1 ∧ d.linkUp n then d.abortPacket n else d

/-- Ray synthesis has power and is not held in reset. -/
def Dev.rayRuns (d : Dev) : Bool := d.rdb GLB_PWR_STATUS.core && ! d.blockHeld 3

/-- The quarter of slice s has power too. -/
def Dev.sliceRuns (d : Dev) (s : Nat) : Bool := d.rayRuns && d.quarterOn s

/-! ### Bands (R139, R140, R151 to R155) -/

/-- The key of a band row: its view row, then its plane row. -/
def bandKey (vr : Nat) (row : Int) : Nat := vr * 2 ^ 21 + (row + 2 ^ 20).toNat

/-- Port n's band of plane position p. -/
def Dev.band (d : Dev) (n p : Nat) : Band := tget d.ray.bands (n * 16 + p) ⟨[]⟩
def Dev.setBand (d : Dev) (n p : Nat) (b : Band) : Dev := { d with ray := { d.ray with bands := tput d.ray.bands (n * 16 + p) b } }

/-- The layer at plane position p of group g's admitted frame, where it is visible. -/
def Dev.layerAt (d : Dev) (g p : Nat) : Option Layer :=
  (d.ingG g).scan.bind (fun a => (a.hdr.layers[p]?).bind (fun l => if l.visible then some l else none))

/-- The first prepared entry of port n in view row vr for slot k (R134, R137). -/
def Dev.rowEntry (d : Dev) (n vr k : Nat) : Option SchedEntry :=
  ((List.range 12).map (fun h => d.sched n (12 * vr + h) k)).find? (fun e => e.valid)

/-- R138: the source row of hogel row j of an entry. -/
def SchedEntry.mv (e : SchedEntry) (j : Nat) : Int := (tapOrigin (stepPos e.v0 e.dv j)).1

/-- Rows of a tile's view and its columns. -/
def Dev.tileCols (d : Dev) (n : Nat) : Nat := ((d.img.tileClass (d.portClass n)).map (fun c => c.cols)).getD 0
def Dev.tileRows (d : Dev) (n : Nat) : Nat := ((d.img.tileClass (d.portClass n)).map (fun c => c.rows)).getD 1

/-- R155: the lead of port n's band of plane p while line l is in compute; none where the plane is not sampled. -/
def Dev.leadOf (d : Dev) (n p l : Nat) : Option Nat :=
  let nr := d.tileRows n
  match d.layerAt (d.portGroup n) p with
  | none => none
  | some ly => (d.rowEntry n (l / nr) ly.slot).map (fun e =>
      min 4 ((d.band n p).rows.countP (fun r => decide (bandKey (l / nr) (e.mv (l % nr) + 2) < r.1))))

/-- R154: rows of the band that a line after line l still needs. -/
def Dev.releaseBand (d : Dev) (n p l : Nat) : Dev :=
  let nr := d.tileRows n
  match d.layerAt (d.portGroup n) p with
  | none => d
  | some ly => match d.rowEntry n (l / nr) ly.slot with
    | none => d
    | some e =>
      let lo := if l % nr + 1 < nr then bandKey (l / nr) (e.mv (l % nr + 1) - 1) else (l / nr + 1) * 2 ^ 21
      d.setBand n p ⟨(d.band n p).rows.filter (fun r => decide (lo ≤ r.1))⟩

/-! ### Bellows (R156) -/

/-- A stream's number in the whole device: its table's wall group and its place there. -/
def streamKey (g i : Nat) : Nat := g * 128 + i

/-- A stream enters or leaves the bellows class by its subscribers' leads. A subscriber that does not sample the plane has no lead, and
a stream without any lead leaves the class (log entry 107). -/
def Dev.bellowsOf (d : Dev) (l i : Nat) (e : StreamEnt) : Dev :=
  let leads := e.ports.filterMap (fun n => d.leadOf n e.plane l)
  let key := streamKey e.group i
  let inB : Bool := tget d.ray.bellows key 0 == 1
  if inB = false ∧ leads.any (fun x => decide (x ≤ d.rd RAY_BELLOWS_WM.low)) then
    ((({ d with ray := { d.ray with bellows := tput d.ray.bellows key 1 } } : Dev).wr RAY_BF_STATUS.bellows 1 e.unit).count
      RAY_BF_BELLOWS_CNT.sat RAY_BF_BELLOWS_CNT.count 1 e.unit).raise 100
  else if inB ∧ leads.all (fun x => decide (d.rd RAY_BELLOWS_WM.high ≤ x)) then
    let d1 : Dev := { d with ray := { d.ray with bellows := tdel d.ray.bellows key } }
    d1.wrb RAY_BF_STATUS.bellows (d1.ray.bellows.any (fun b =>
      (d1.streamEnt (b.1 / 128) (b.1 % 128)).any (fun e' => e'.unit == e.unit))) e.unit
  else d

/-! ### Band fetch (R118, R131, R132, R151, R153) -/

/-- One component's block row as band fetch reads it: the layer whose descriptor it decodes with, blocks by block column and the row's
fault; samples of an uncompressed row; or a missing row. -/
inductive RowSrc where
  | missing
  | blocks (m : Layer) (t : Tab Block) (fault : Nat)
  | raw (f : Nat → Nat → Nat)

/-- Rising numbers as maximal runs [a, b). -/
def runsOf : List Nat → List (Nat × Nat)
  | [] => []
  | a :: t => match runsOf t with
    | [] => [(a, a + 1)]
    | (b, c) :: r => if b = a + 1 then (a, c) :: r else (a, a + 1) :: (b, c) :: r

/-- R118: the frame and layer that a block row is read from; none where it decodes as EMPTY. -/
def IngGroup.rowFrom (x : IngGroup) (a : Admitted) (l : Layer) (i k r : Nat) : Option (Admitted × Layer) :=
  match tfind a.missing (rowKey i k r) with
  | none => some (a, l)
  | some 1 => if x.taken then none else x.source.bind (fun sa =>
      (sa.hdr.layers.find? l.conceals).map (fun m => (sa, m)))
  | some _ => none

/-- The HBM address of component k of a layer of an admitted frame of group g. -/
def Dev.compBase (d : Dev) (g : Nat) (a : Admitted) (l : Layer) (k : Nat) : Nat :=
  tget d.img.mem.slotBase (g * 8 + a.slot) 0 + l.off + lget l.comp k 0

/-- Stored bits of component k (R123). -/
def Layer.stored (l : Layer) (k : Nat) : Nat := if k = 3 then 8 else fmtDepth l.fmt - l.shift

/-- R132: a block that would extend past its row's end. -/
def pastRowEnd (b : Block) : Bool := b.typ == 0 && b.fault == 0x22

/-- Block row r of component k, block columns `cols`, as it decodes: after a block that would extend past the row's end every later
block of the row is EMPTY, in whatever run of columns it lies (R132). -/
def compSrc (s : State) (g : Nat) (src : Option (Admitted × Layer)) (k r : Nat) (cols : List Nat) : RowSrc :=
  match src with
  | none => .missing
  | some (a, l) =>
    let base := s.dev.compBase g a l k
    let rd (o : Nat) : Nat := (hbmGet s.hbm (base + o)).toNat
    if fmtCompressed l.fmt then
      let bc := blockCols (compWidth l.fmt l.width k)
      let decs := (runsOf cols).map (fun c => decodeRow rd (l.compEnd k - lget l.comp k 0) bc k (l.stored k) r c.1 c.2)
      let all := decs.foldl (fun (st : Tab Block × Bool) x =>
        (x.blocks.zipIdx.foldl (fun t b => tput t (x.first + b.2) (if st.2 then emptyBlock 0 0 else b.1)) st.1,
         st.2 || x.blocks.any pastRowEnd)) ([], false)
      .blocks l all.1 ((decs.map (fun x => x.fault)).foldl max 0)
    else
      .raw (fun x y =>
        let o := (4 * r + y) * rowPitch l.fmt l.width k
        if sampleBytes l.fmt k = 1 then rd (o + x) else (rd (o + 2 * x) * 256 + rd (o + 2 * x + 1)) % 1024)

/-- The decoded value at column x, row y of the block row. -/
def RowSrc.value (r : RowSrc) (l : Layer) (k x y : Nat) : Nat :=
  match r with
  | .missing => emptyValue k (compDepth l.fmt k) l.fullRange
  | .blocks m t _ => blockSample (tget t (x / 32) (emptyBlock 0 0)) k (compDepth m.fmt k) (if k = 3 then 0 else m.shift) m.fullRange x y
  | .raw f => f x y

/-- Block column c of an alpha row is an EMPTY alpha block (R153). -/
def RowSrc.emptyAt (r : RowSrc) (c : Nat) : Bool :=
  match r with
  | .missing => true
  | .blocks _ t _ => (tget t c (emptyBlock 0 0)).kind == .empty
  | .raw _ => false

/-- The faults of a decoded block row: the row's, or those of its decoded blocks and of a block past the row's end. -/
def RowSrc.faults (r : RowSrc) (decoded : Nat → Bool) : List Nat :=
  match r with
  | .blocks _ t f => if f ≠ 0 then [f] else t.filterMap (fun p =>
      if p.2.fault ≠ 0 ∧ (decoded p.1 ∨ pastRowEnd p.2) then some p.2.fault else none)
  | _ => []

/-- R132: a Linor fault is recorded, counted and raised. -/
def Dev.linorErr (d : Dev) (g code : Nat) : Dev :=
  (((d.wr ING_LAST_ERR.code code).wr ING_LAST_ERR.group g).count ING_LINOR_ERR_CNT.sat ING_LINOR_ERR_CNT.count 1 g).raise 71

/-- Chroma columns and rows per luma column and row (R139). -/
def subX (f k : Nat) : Nat := if (k = 1 ∨ k = 2) ∧ fmtSub f ≠ 2 then 2 else 1
def subY (f k : Nat) : Nat := if (k = 1 ∨ k = 2) ∧ fmtSub f = 0 then 2 else 1

/-- The plane columns a stream decodes: its subscribers' ranges within the plane (R151, R140). -/
def neededCols (w : Nat) (ranges : List (Int × Nat)) : List Nat :=
  (List.range w).filter (fun x => ranges.any (fun r =>
    decide (r.1 ≤ (x : Int)) && decide ((x : Int) < r.1 + r.2) || (x == 0 && decide (r.1 < 0)) ||
    (x + 1 == w && decide ((w : Int) < r.1 + r.2))))

/-- The block columns of component k that hold luma columns `cols`. -/
def neededBlocks (f k : Nat) (cols : List Nat) : List Nat :=
  (List.range 513).filter (fun c => cols.any (fun x => x / subX f k / 32 == c))

/-- The alpha block columns that tell which blocks over the luma columns `cols` are decoded (R153; log entry 111): all those under the
chroma blocks needed, each of which covers `subX` of them. -/
def alphaBlocks (l : Layer) (cols : List Nat) : List Nat :=
  let chroma := neededBlocks l.fmt 1 cols
  (List.range (blockCols l.width)).filter (fun c => chroma.contains (c / subX l.fmt 1))

/-- R139, R140, R153: the line-store sample at plane column x of plane row y. -/
def lineSample (l : Layer) (src : Nat → RowSrc) (x y : Int) : Nat :=
  let inside : Bool := decide (0 ≤ x) && decide (x < l.width) && decide (0 ≤ y) && decide (y < l.height)
  let xc := (clampI x 0 ((l.width : Int) - 1)).toNat
  let yc := (clampI y 0 ((l.height : Int) - 1)).toNat
  let empty := (src 3).emptyAt (xc / 32)
  let d := fmtDepth l.fmt
  let c (k : Nat) : Nat :=
    (if empty then emptyValue k d l.fullRange else (src k).value l k (xc / subX l.fmt k) (yc / subY l.fmt k % 4)) * 2 ^ (12 - d)
  let a := if empty ∨ inside = false then 0 else (src 3).value l 3 xc (yc % 4)
  c 0 * 2 ^ 36 + c 1 * 2 ^ 24 + c 2 * 2 ^ 12 + (a * 16 + a / 16)

/-- The component block row of component k that holds luma row y. -/
def compRow (l : Layer) (k : Nat) (y : Nat) : Nat := y / subY l.fmt k / 4

/-- R151, R153, R157, R381: whether HBM delivers the bytes that a fetch of luma columns `cols` in component row y reads of block row r:
the row's index entry, the headers on the way and the blocks that `decoded` names; or the samples of an uncompressed row. -/
def fetchReads (s : State) (g unit : Nat) (src : Option (Admitted × Layer)) (k r y : Nat) (blocks cols : List Nat)
    (decoded : Nat → Bool) : State × Bool :=
  match src with
  | none => (s, true)
  | some (a, l) =>
    let base := s.dev.compBase g a l k
    let sec := s.dev.blockSecure 3
    let rd (o : Nat) : Nat := (hbmGet s.hbm (base + o)).toNat
    if fmtCompressed l.fmt then
      readRanges s unit sec base (rowReads rd (l.compEnd k - lget l.comp k 0) (blockCols (compWidth l.fmt l.width k)) (l.stored k) r
        (runsOf blocks) decoded)
    else
      let z := sampleBytes l.fmt k
      let row := y * rowPitch l.fmt l.width k
      readRanges s unit sec base ((runsOf (cols.filter (fun x => decoded (x / subX l.fmt k / 32)))).map (fun c =>
        (row + c.1 / subX l.fmt k * z, row + ((c.2 - 1) / subX l.fmt k + 1) * z)))

/-- The first decode of a block row in a frame's view row by a stream counts its faults (R132). -/
def Dev.firstDecode (d : Dev) (g key : Nat) (faults : List Nat) : Dev :=
  if (tfind d.ray.fetched key).isSome then d
  else faults.foldl (fun d f => d.linorErr g f) { d with ray := { d.ray with fetched := tput d.ray.fetched key 1 } }

/-- R115: a concealed row whose source a claim has taken decodes as EMPTY from now on, in every scan of the frame: it counts once. -/
def Dev.emptyRow (d : Dev) (g key : Nat) : Dev :=
  let x := d.ingG g
  match x.scan with
  | some a =>
    if x.taken ∧ tfind a.missing key = some 1 then
      ((d.setIng g { x with scan := some { a with missing := tput a.missing key 2 } }).wr ING_ADMIT_STATUS.emptied 1 g).count
        ING_CONCEAL_ROW_CNT.sat ING_CONCEAL_ROW_CNT.count 1 g
    else d
  | none => d

/-- R150, R151, R154: a decoded plane row enters the subscribers' bands. -/
def Dev.broadcast (d : Dev) (e : StreamEnt) (l : Layer) (src : Nat → RowSrc) (vr : Nat) (row : Int) : Dev :=
  forEach e.ports (fun n d =>
    match d.rowEntry n vr l.slot with
    | none => d
    | some en =>
      let cells : Tab Nat := (List.range en.colWidth).map (fun (i : Nat) => (i, lineSample l src (en.colBase + (i : Int)) row))
      d.setBand n e.plane ⟨tput (d.band n e.plane).rows (bandKey vr row) cells⟩) d

/-- BAND_ROW_FETCH's effect: stream i of group g fetches plane row `row` for view row vr; it waits while a subscriber's
band has no released row (R154). Where a row holds several faults they are recorded by component Y, Cb, Cr, A and then in block order, so that
the last one shows (R132, log entry 129). -/
def fetchRow (s : State) (g i vr : Nat) (row : Int) : State :=
  match s.dev.streamEnt g i, (s.dev.ingG g).scan with
  | some e, some a =>
    match s.dev.layerAt g e.plane with
    | none => s
    | some l =>
      let subs := e.ports.filterMap (fun n => s.dev.rowEntry n vr l.slot)
      let full := e.ports.any (fun n => decide (8 ≤ (s.dev.band n e.plane).rows.length))
      if e.group ≠ g ∨ subs.isEmpty ∨ full then s
      else
        let x := s.dev.ingG g
        let yc := (clampI row 0 ((l.height : Int) - 1)).toNat
        let cols := neededCols l.width (subs.map (fun en => (en.colBase, en.colWidth)))
        let needed (k : Nat) : List Nat := if k = 3 then alphaBlocks l cols else neededBlocks l.fmt k cols
        let from_ (k : Nat) := x.rowFrom a l e.plane k (compRow l k yc)
        let src (k : Nat) : RowSrc := compSrc s g (from_ k) k (compRow l k yc) (needed k)
        let alpha (r : Nat) : RowSrc := compSrc s g (x.rowFrom a l e.plane 3 r) 3 r (needed 3)
        let under (k : Nat) : List Nat := ((List.range (subY l.fmt k)).map (fun ry => compRow l k yc * subY l.fmt k + ry)).filter
          (fun r => decide (r < blockRows l.height))
        let dec (k c : Nat) : Bool := (needed k).contains c && (
          if k = 3 then true
          else (List.range (subX l.fmt k)).any (fun cx => decide (c * subX l.fmt k + cx < blockCols l.width) &&
            (under k).any (fun r => ! (alpha r).emptyAt (c * subX l.fmt k + cx))))
        let other := (under 1).filter (fun r => r != compRow l 3 yc && fmtCompressed l.fmt)
        let rdA := forEach other (fun r (st : State × Bool) =>
          if st.2 then fetchReads st.1 g e.unit (x.rowFrom a l e.plane 3 r) 3 r (4 * r) (needed 3) cols (dec 3) else st) (s, true)
        let rds := forEach [3, 0, 1, 2] (fun k (st : State × Bool) =>
          if st.2 then fetchReads st.1 g e.unit (from_ k) k (compRow l k yc) (yc / subY l.fmt k) (needed k) cols (dec k) else st) rdA
        let s1 := rds.1
        if rds.2 = false then s1
        else
          let s2 := onDev s1 (fun d => forUp 4 (fun k d =>
            let r := compRow l k yc
            (d.firstDecode g (((g * 128 + i) * 8 + vr) * 4 * 4096 + k * 4096 + r) ((src k).faults (dec k))).emptyRow g
              (rowKey e.plane k r)) d)
          let s3 := onDev s2 (fun d => d.broadcast e l src vr row)
          match s3.dev.lineInCompute g with
          | some ln => onDev s3 (fun d => d.bellowsOf ln i e)
          | none => s3
  | _, _ => s

/-! ### Line compute (R147, R157 to R160) -/

/-- The taps of one footprint: component at shift b of the band sample at column c of row key r. -/
def bandSample (b : Band) (key : Nat) (c : Nat) (comp : Nat) : Int :=
  ((tget (tget b.rows key []) c 0 / 2 ^ (36 - 12 * comp) % 4096 : Nat) : Int)

/-- One plane-sample's outcome: its values, whether it was gated, whether it was missed. -/
abbrev SampleOut := PlaneSample × Bool × Bool

/-- R138, R142, R157 to R159: the plane-sample of hogel i, view h of line l at plane p, with `t` the ray's transmittance
after the nearer planes. A covered ray's sample is gated and no band miss, whatever its band holds (log entry 106). -/
def Dev.planeSample (d : Dev) (g n l p i h : Nat) (t : Int) : SampleOut :=
  let nr := d.tileRows n
  let vr := l / nr
  match d.layerAt g p with
  | none => (gatedSample, true, false)
  | some ly =>
    let e := d.sched n (12 * vr + h) ly.slot
    if e.valid = false ∨ t = 0 then (gatedSample, true, false)
    else
      let b := d.band n p
      let (mv, phv) := tapOrigin (stepPos e.v0 e.dv (l % nr))
      let (mu, phu) := tapOrigin (stepPos e.u0 e.du i)
      let c0 := mu - 2 - e.colBase
      let key (r : Nat) : Nat := bandKey vr (mv - 1 + r)
      if c0 < 0 ∨ ((e.colWidth : Nat) : Int) < c0 + 6 ∨ (List.range 4).any (fun r => (tfind b.rows (key r)).isNone) then
        (gatedSample, true, true)
      else
        let sv (comp r k : Nat) : Int := bandSample b (key r) (c0.toNat + k) comp
        if (List.range 4).all (fun r => (List.range 6).all (fun k => sv 3 r k == 0)) then (gatedSample, true, false)
        else
          let set := d.coeffSet g ly.slot e
          let ch (k : Nat) : Int := d.tap g set phu k
          let cv (r : Nat) : Int := d.tap g set phv (6 + r)
          (⟨sampleFilter ch cv (sv 0) false, sampleFilter ch cv (sv 1) false, sampleFilter ch cv (sv 2) false,
            sampleFilter ch cv (sv 3) true⟩, false, false)

/-- One ray's plane-samples, nearest first, with the numbers gated and missed. -/
def Dev.raySamples (d : Dev) (g n l planes i h : Nat) : List Nat × Nat × Nat :=
  let r := forUp planes (fun p (st : CompAcc × List Nat × Nat × Nat) =>
    let (x, gt, ms) := d.planeSample g n l p i h st.1.t
    (compPlane 0 0 st.1 x, st.2.1 ++ [x.y, x.cb, x.cr, x.a], st.2.2.1 + b2n gt, st.2.2.2 + b2n ms)) (compInit, [], 0, 0)
  r.2

/-- The active planes of group g's mode in force. -/
def Dev.planesOf (d : Dev) (g : Nat) : Nat := (d.modeCfg g (d.rd SCN_MODE.active_mode g)).planes

/-- The slice serving port n computes line l (R146, R147). -/
def Dev.computePort (d : Dev) (g n l : Nat) : Dev :=
  match d.servedBy n with
  | none => if l = 0 then d.loseNext n else d
  | some s =>
    if d.sliceRuns s = false then (if l < 2 then d.loseNext n else d.loseFrame n)
    else
      let rays := (List.range (d.tileCols n)).flatMap (fun i => (List.range 12).map (fun h => d.raySamples g n l (d.planesOf g) i h))
      let gated := rays.foldl (fun a r => a + r.2.1) (if l = 0 then 0 else tget d.ray.gated s 0)
      let missed := rays.foldl (fun a r => a + r.2.2) 0
      let d1 : Dev := { d with ray := { d.ray with
        computed := tput d.ray.computed (n * 8192 + l) (rays.map (fun r => r.1)),
        gated := tput d.ray.gated s gated } }
      let d2 := if missed = 0 then d1
        else ((d1.count RAY_BAND_MISS_CNT.sat RAY_BAND_MISS_CNT.count missed s).raise 99).underrun g n
      if l + 1 = d.nActive g then
        ({ d2 with ray := { d2.ray with gated := tdel d2.ray.gated s } } : Dev).wr RAY_GATED_LAST.gated gated s
      else d2

/-- After line l's compute: leads, released rows (R154, R155). -/
def Dev.afterCompute (d : Dev) (n l : Nat) : Dev :=
  let leads := (List.range 16).filterMap (fun p => d.leadOf n p l)
  let d1 := match d.servedBy n, leads with
    | some s, x :: t =>
      let m := t.foldl min x
      (d.wr RAY_SLICE_LEAD.lead m s).wr RAY_SLICE_LEAD.low_mark (min m (d.rd RAY_SLICE_LEAD.low_mark s)) s
    | _, _ => d
  forUp 16 (fun p d => d.releaseBand n p l) d1

/-- LINE_COMPUTE (R147, R148): every port of group g computes line l; streams' leads are looked at after it (R156). -/
def Dev.computeLine (d : Dev) (g l : Nat) : Dev :=
  let d1 := forEach (d.groupPorts g) (fun n d => d.computePort g n l) d
  let d2 := forEach (d1.groupStreams g) (fun e d => d.bellowsOf l e.1 e.2) d1
  forEach (d2.groupPorts g) (fun n d => d.afterCompute n l) d2

/-- R149: at an admission point of group g, band fetch begins anew for the coming frame. -/
def Dev.restartBands (d : Dev) (g : Nat) : Dev :=
  let ports := d.groupPorts g
  { d with ray := { d.ray with
    bands := d.ray.bands.filter (fun b => ! ports.contains (b.1 / 16)),
    fetched := d.ray.fetched.filter (fun f => f.1 / (128 * 8 * 4 * 4096) != g) } }

/-! ### The commands -/

/-- BAND_ROW_FETCH (R151): stream i of group g brings plane row `row` for view row vr. -/
def execBandRowFetch (g i vr : Nat) (row : Int) (s : State) : Res := .next (if s.dev.rayRuns then fetchRow s g i vr row else s)

/-- SLICE_FAILURE (R161): slice `sl` fails with this cause; cause 0 is a corrected error alone (log entry 12). -/
def execSliceFailure (sl cause : Nat) (inPacket : Bool) (s : State) : Res :=
  nextDev s (fun d =>
    if d.sliceRuns sl = false ∨ 99 < sl then d
    else if cause = 0 then d.eccCorrected sl 1
    else (d.sourceAbort sl inPacket).failSlice sl cause)

/-- R169: a write of RAY_BELLOWS_WM; one that sets high to a value not above low is dropped. Values outside the fields' ranges are
stored (log entry 108). -/
def Dev.bellowsWrite (d : Dev) (v : Nat) : Dev :=
  if bits v 6 4 ≤ bits v 2 0 then d else (d.wr RAY_BELLOWS_WM.high (bits v 6 4)).wr RAY_BELLOWS_WM.low (bits v 2 0)

end Sys2Proof.Machine
end

