-- ==== Sys2Proof/Machine/Compose.lean ====
section
/-!
DEFINITION. Composition (05_composition.md R170 to R206): the reference format, map decode and overlay fetch of a line,
the composition of its rays, and map checks.
-/
namespace Sys2Proof.Machine

/-! ### The COLOUR section -/

/-- COLOUR of wall group g, and a signed little-endian field of it. -/
def Dev.colour (d : Dev) (g : Nat) : List Byte := d.img.body 0x09 g
def sAt (b : List Byte) (o n : Nat) : Int := toS (8 * n) (leAt b o n)

/-- The number of transfer sets of group g's image (R179). -/
def Dev.xferSets (d : Dev) (g : Nat) : Nat := leAt (d.colour g) 0 1

/-- The offset of conversion set c. -/
def convOff (c : Nat) : Nat := 0x40 + 64 * c

/-- The offset of curve k of transfer set t, and of port n's crosstalk matrix. -/
def curveOff (t k : Nat) : Nat := 0x140 + 6336 * t + 2112 * k
def crossOff (sets n : Nat) : Nat := 0x140 + 6336 * sets + 32 * n

/-! ### Reference format (R172 to R174) -/

/-- The conversion set and transfer code in force in group g: as CMP_GROUP_FMT shows them, for a frame repeated after a CMP block reset too
(R11, R172, log entry 132). -/
def Dev.convSet (d : Dev) (g : Nat) : Nat :=
  if d.rdb CMP_GROUP_FMT.none g then 0 else 2 * fmtMatrix (d.rd CMP_GROUP_FMT.format g) + d.rd CMP_GROUP_FMT.full_range g
def Dev.xferCode (d : Dev) (g : Nat) : Nat := if d.rdb CMP_GROUP_FMT.none g then 0 else fmtTransfer (d.rd CMP_GROUP_FMT.format g)

/-- R172, R173: at an admission of group g the reference layer is chosen and differing layers are counted. -/
def Dev.referenceFormat (d : Dev) (g : Nat) : Dev :=
  match (d.ingG g).scan with
  | none => d
  | some a =>
    let vis := a.hdr.layers.filter (fun l => l.visible)
    match vis with
    | [] => ((d.wr CMP_GROUP_FMT.none 1 g).wr CMP_GROUP_FMT.full_range 0 g).wr CMP_GROUP_FMT.format 0 g
    | r :: _ =>
      let d1 := ((d.wr CMP_GROUP_FMT.none 0 g).wrb CMP_GROUP_FMT.full_range r.fullRange g).wr CMP_GROUP_FMT.format r.fmt g
      forEach (vis.filter (fun l => fmtMatrix l.fmt != fmtMatrix r.fmt || fmtTransfer l.fmt != fmtTransfer r.fmt ||
        l.fullRange != r.fullRange)) (fun _ d => (d.count CMP_FMT_MISMATCH_CNT.sat CMP_FMT_MISMATCH_CNT.count 1 g).raise 131) d1

/-! ### Map decode and overlay fetch (R170, R180, R182, R186, R195) -/

/-- The requester of a port's map and overlay reads. -/
def cmpReq (n : Nat) : Nat := if n < 48 then 17 else 18

/-- Rays of a line of port n (R146). -/
def Dev.lineRays (d : Dev) (n : Nat) : Nat := 12 * d.tileCols n

/-- The base and extent of map buffer b of port n (MEMORY). -/
def Dev.mapBuf (d : Dev) (n b : Nat) : Nat × Nat := tget d.img.mem.mapBuf (n * 2 + b) (0, 0)

/-- The end of component k's section of a map, from the map's start. -/
def MapDesc.compEnd (m : MapDesc) (k : Nat) : Nat := if k < 2 then lget m.offs (k + 1) 0 else 0x40 + m.len

/-- The code of a map block: its fault, or 0x25 when it is neither CODED nor RAW (R195). -/
def mapBlockCode (b : Block) : Nat :=
  if b.fault ≠ 0 then b.fault else if b.kind = .coded ∨ b.kind = .raw then 0 else 0x25

/-- Line l's gains of component k: the first fault's code or 0, and the gains in ray order (R186). -/
def mapComponent (rd : Nat → Nat) (m : MapDesc) (k l rays : Nat) : Nat × List Nat :=
  let w := rays / 4
  let bc := blockCols w
  let row := decodeRow (fun o => rd (lget m.offs k 0 + o)) (m.compEnd k - lget m.offs k 0) bc k 10 l 0 bc
  let code := if row.fault ≠ 0 then row.fault else (row.blocks.map mapBlockCode).foldl (fun a c => if a = 0 then c else a) 0
  (code, (List.range rays).map (fun i => blockSample (lget row.blocks (i % w / 32) (emptyBlock 0 0)) k 10 0 true (i % w) (i / w)))

/-- The reads of one component's block row, and whether all arrived. -/
def mapReads (s : State) (n base : Nat) (m : MapDesc) (k l : Nat) : State × Bool :=
  let off := lget m.offs k 0
  let len := m.compEnd k - off
  let eb := indexEntryBytes (blockCols (s.dev.lineRays n / 4))
  let sec := s.dev.blockSecure 4
  let lo := min len (l * eb)
  let x := readHbm s (cmpReq n) sec (base + off + lo) (min len (lo + eb) - lo)
  let ro := min len (beNat (slice x.2.2 0 4))
  let z := readHbm x.1 (cmpReq n) sec (base + off + ro) (min len (ro + beNat (slice x.2.2 4 4)) - ro)
  (z.1, ! x.2.1 && ! z.2.1)

/-- Every gain of a line at unity (R185, R195). -/
def unityGains (rays : Nat) : List Nat := List.replicate (3 * rays) 0x200

/-- Keep line l's gains of port n. -/
def Dev.setGains (d : Dev) (n l : Nat) (g : List Nat) : Dev :=
  { d with cmp := { d.cmp with gains := tput d.cmp.gains (n * 8192 + l) g } }

/-- R185 to R188, R195, R218: the map decode of line l of port n. Of several faults the first by component, then by block, leaves its code
(log entry 115). -/
def mapLine (s : State) (g n l : Nat) : State :=
  let rays := s.dev.lineRays n
  match tfind s.dev.cmp.force n with
  | none => onDev s (fun d => d.setGains n l (unityGains rays))
  | some m =>
    let base := (s.dev.mapBuf n m.buffer).1
    let r := forUp 3 (fun k (st : State × Bool) =>
      let z := mapReads st.1 n base m k l
      (z.1, st.2 && z.2)) (s, true)
    if r.2 = false then onDev r.1 (fun d => (d.setGains n l (unityGains rays)).underrun g n)
    else
      let rd (o : Nat) : Nat := (hbmGet r.1.hbm (base + o)).toNat
      let cs := (List.range 3).map (fun k => mapComponent rd m k l rays)
      let code := cs.foldl (fun a c => if a = 0 then c.1 else a) 0
      if code = 0 then onDev r.1 (fun d => d.setGains n l (cs.flatMap (fun c => c.2)))
      else onDev r.1 (fun d =>
        (((((d.setGains n l (unityGains rays)).count CMP_MAP_ERR_CNT.sat CMP_MAP_ERR_CNT.count 1 n).wr CMP_MAP_LAST_ERR.code code).wr
          CMP_MAP_LAST_ERR.port n).wr CMP_MAP_LAST_ERR.line l).raise 130)

/-- R180, R182, R218: the overlay bytes of line l of port n. -/
def ovlLine (s : State) (g n l : Nat) : State :=
  let cols := s.dev.tileCols n
  let keep (bs : List Nat) (d : Dev) : Dev := { d with cmp := { d.cmp with ovlLine := tput d.cmp.ovlLine (n * 8192 + l) bs } }
  let zeros := List.replicate cols 0
  match s.dev.rdb CMP_OVL_CFG.active_en g, s.dev.img.port n with
  | true, some c =>
    let (base, pitch) := tget s.dev.cmp.ovl g (0, 0)
    let a := base + (c.ovlRow + l % s.dev.tileRows n) * pitch + c.ovlCol
    let denied := ! s.dev.wouldRead (cmpReq n) (s.dev.blockSecure 4) a cols
    let r := readHbm s (cmpReq n) (s.dev.blockSecure 4) a cols
    if denied then onDev r.1 (fun d => ((keep zeros d).count CMP_OVL_FAULT_CNT.sat CMP_OVL_FAULT_CNT.count 1 g).raise 132)
    else if r.2.1 then onDev r.1 (fun d => (keep zeros d).underrun g n)
    else onDev r.1 (keep (r.2.2.map (fun b => b.toNat)))
  | _, _ => s

/-- Composition has power and is not held in reset. -/
def Dev.cmpRuns (d : Dev) : Bool := d.rdb GLB_PWR_STATUS.core && ! d.blockHeld 4

/-- R170: map decode and overlay fetch of line l for every port of group g that a slice serves. -/
def prefetchLine (s : State) (g l : Nat) : State :=
  if s.dev.cmpRuns then
    forEach (s.dev.groupPorts g) (fun n s => if (s.dev.servedBy n).isSome then ovlLine (mapLine s g n l) g n l else s) s
  else s

/-! ### A ray (R172 to R203) -/

/-- Palette entry e of a bank: alpha, red, green, blue. -/
def Dev.paletteEntry (d : Dev) (bank e : Nat) : Nat × Rgb :=
  (d.rd CMP_OVL_PAL_HI.a bank e, ⟨d.rd CMP_OVL_PAL_HI.r bank e, d.rd CMP_OVL_PAL_LO.g bank e, d.rd CMP_OVL_PAL_LO.b bank e⟩)

/-- Plane-samples from the flat list a slice delivers. -/
def unflatten : List Nat → List PlaneSample
  | y :: cb :: cr :: a :: t => ⟨y, cb, cr, a⟩ :: unflatten t
  | _ => []

/-- R175 to R178: a ray's colour before the overlay. -/
def sceneColour (col : List Byte) (conv xset code : Nat) (samples : List Nat) : Rgb :=
  let o := convOff conv
  let acc := composite (leAt col o 2) (leAt col (o + 2) 2) (unflatten samples)
  let m (c k : Nat) : Int := sAt col (o + 4 + 4 * (3 * c + k)) 4
  let rgb : Rgb := ⟨convertRow (m 0 0) (m 0 1) (m 0 2) (sAt col (o + 0x28) 4) acc,
    convertRow (m 1 0) (m 1 1) (m 1 2) (sAt col (o + 0x2C) 4) acc, convertRow (m 2 0) (m 2 1) (m 2 2) (sAt col (o + 0x30) 4) acc⟩
  rgb.mapI (fun _ x => transferCurve (fun k => leAt col (curveOff xset code + 2 * k) 2) x)

/-- R180 and R184, R185, R198: overlay, crosstalk, gain and drive coding; the three drive words. -/
def codedWords (col : List Byte) (sets n : Nat) (ovl : Option (Nat × Rgb)) (gains : Nat × Nat × Nat) (b : Nat) (x : Rgb) : Rgb :=
  let y : Rgb := match ovl with
    | none => x
    | some (a, e) => ⟨overlayColour a e.r x.r, overlayColour a e.g x.g, overlayColour a e.b x.b⟩
  let q (c k : Nat) : Int := sAt col (crossOff sets n + 2 * (3 * c + k)) 2
  let z : Rgb := ⟨crosstalkRow (q 0 0) (q 0 1) (q 0 2) y, crosstalkRow (q 1 0) (q 1 1) (q 1 2) y, crosstalkRow (q 2 0) (q 2 1) (q 2 2) y⟩
  ⟨driveWord b (applyGain gains.1 z.r), driveWord b (applyGain gains.2.1 z.g), driveWord b (applyGain gains.2.2 z.b)⟩

/-- The ceilings L_c in force on port n. -/
def Dev.ceilings (d : Dev) (n : Nat) : Rgb :=
  ⟨d.rd FSC_PORT_LUM_RG.lum_r n, d.rd FSC_PORT_LUM_RG.lum_g n, d.rd FSC_PORT_LUM_B.lum_b n⟩

/-- R200 on three words. -/
def limitWords (k : Nat) (l w : Rgb) : Rgb := ⟨firescreenWord k l.r w.r, firescreenWord k l.g w.g, firescreenWord k l.b w.b⟩

/-- The sums of the firescreen for one ray: the words that leave and those k = 65,536 would give (R339, R344). -/
def FscPort.addRay (x : FscPort) (q : Nat) (w raw : Rgb) : FscPort :=
  let add (l : List Nat) (v : Rgb) : List Nat := [lget l 0 0 + driveDec v.r, lget l 1 0 + driveDec v.g, lget l 2 0 + driveDec v.b]
  { x with sums := add x.sums w, raws := add x.raws raw,
           proxy := lset x.proxy q (lget x.proxy q 0 + proxyOf w.r w.g w.b driveDec) }

/-- The quarter of hogel (i, j) of port n. -/
def Dev.quarterOf (d : Dev) (n i j : Nat) : Nat := i / (d.tileCols n / 2) + 2 * (j / (d.tileRows n / 2))

/-- LINE_COMPOSITION (R170 to R203): every ray of line l of port n, with f the scan frame number of its frame. A transfer set
selected stays selected when a COLOUR patch leaves fewer sets (R179, log entry 133). -/
def Dev.composePort (d : Dev) (g n l f : Nat) : Dev :=
  match tfind d.ray.computed (n * 8192 + l) with
  | none => d
  | some rays =>
    let col := d.colour g
    let sets := d.xferSets g
    let nr := d.tileRows n
    let vr := l / nr
    let j := l % nr
    let conv := d.convSet g
    let xset := d.rd CMP_PORT_SEL.active_xfer n
    let code := d.xferCode g
    let bank := d.rd CMP_OVL_CFG.active_bank g
    let ovl := if d.rdb CMP_OVL_CFG.active_en g then tfind d.cmp.ovlLine (n * 8192 + l) else none
    let gains := tget d.cmp.gains (n * 8192 + l) (unityGains rays.length)
    let lum := d.ceilings n
    let off := d.rdb CMP_PORT_SEL.dither_off n
    let ks := (List.range 4).map (fun q => d.kQuarter n q)
    let out := rays.zipIdx.foldl (fun (st : List Nat × FscPort) p =>
      let i := p.2 / 12
      let h := p.2 % 12
      let q := d.quarterOf n i j
      let x := sceneColour col conv xset code p.1
      let w := codedWords col sets n (ovl.map (fun bs => d.paletteEntry bank (lget bs i 0)))
        (lget gains p.2 0x200, lget gains (rays.length + p.2) 0x200, lget gains (2 * rays.length + p.2) 0x200)
        (ditherBase i h j vr f off) x
      let v := limitWords (lget ks q 0) lum w
      (rayValue v.r v.g v.b :: st.1, st.2.addRay q v (limitWords 65536 lum w))) ([], d.fire n)
    let d1 := d.setFire n { out.2 with composed := true }
    { d1 with
      ray := { d1.ray with computed := tdel d1.ray.computed (n * 8192 + l) }
      cmp := { d1.cmp with
        lines := tput d1.cmp.lines (n * 8192 + l) out.1.reverse
        gains := tdel d1.cmp.gains (n * 8192 + l)
        ovlLine := tdel d1.cmp.ovlLine (n * 8192 + l) } }

/-- The composition of line l of every port of group g; line 0's begins with the firescreen's new settings (R337, R340). -/
def Dev.composeLine (d : Dev) (g l f : Nat) : Dev :=
  let d1 := if l = 0 then d.fscLine0 g else d
  if d1.cmpRuns then forEach (d1.groupPorts g) (fun n d => d.composePort g n l f) d1 else d1

/-! ### Latch and application (R179, R183, R191, R206) -/

/-- R191, R226: the pending maps of group g's ports are latched. -/
def Dev.latchMaps (d : Dev) (g : Nat) : Dev × List Nat :=
  let ports := (d.groupPorts g).filter (fun n => (tfind d.cmp.pend n).isSome)
  (forEach ports (fun n d =>
    match tfind d.cmp.pend n with
    | some m => ({ d with cmp := { d.cmp with pend := tdel d.cmp.pend n, latched := tput d.cmp.latched n m } } : Dev).wr
        CMP_MAP_STATUS.pending 0 n
    | none => d) d, ports)

/-- R191: port n's map comes into force. -/
def Dev.mapInForce (d : Dev) (n : Nat) (m : MapDesc) : Dev :=
  let d1 : Dev := { d with cmp := { d.cmp with force := tput d.cmp.force n m } }
  (((d1.wr CMP_MAP_ID.map_id m.mapId n).wr CMP_MAP_STATUS.absent 0 n).wr CMP_MAP_STATUS.active_buf m.buffer n).wrPortBit
    TLK_MAP_ABSENT.ports n false

/-- R191: the latched maps among these ports come into force. -/
def Dev.applyMaps (d : Dev) (ports : List Nat) : Dev :=
  forEach ports (fun n d =>
    match tfind d.cmp.latched n with
    | some m => (({ d with cmp := { d.cmp with latched := tdel d.cmp.latched n } } : Dev).mapInForce n m).raise 128
    | none => d) d

/-- R183, R206: the latched overlay settings of group g come into force, or are refused whole. -/
def Dev.applyOverlay (d : Dev) (g : Nat) (x : LatchSet) : Dev :=
  if x.ovlEn = 1 ∧ (x.ovlBase % 64 ≠ 0 ∨ x.ovlPitch = 0 ∨ x.ovlPitch % 64 ≠ 0) then
    (d.count CMP_OVL_FAULT_CNT.sat CMP_OVL_FAULT_CNT.count 1 g).raise 132
  else
    (({ d with cmp := { d.cmp with ovl := tput d.cmp.ovl g (x.ovlBase, x.ovlPitch) } } : Dev).wr CMP_OVL_CFG.active_en x.ovlEn g).wr
      CMP_OVL_CFG.active_bank x.ovlBank g

/-! ### Register writes and map checks (R179, R189 to R194, R199) -/

/-- A write of CMP_PORT_SEL[n]: dither_off is stored; a transfer set the image does not have is dropped (R179). -/
def Dev.portSelWrite (d : Dev) (n v : Nat) : Dev :=
  let d1 := d.wrb CMP_PORT_SEL.dither_off (bit v 8) n
  if v % 8 < d.xferSets (d.portGroup n) then d1.wr CMP_PORT_SEL.pending_xfer (v % 8) n else d1

/-- A map check ends in a rejection (R189). -/
def Dev.mapReject (d : Dev) (n code : Nat) : Dev := (d.wr CMP_MAP_STATUS.reject code n).raise 129

/-- A write of CMP_MAP_CTRL[n] (R189, R192). -/
def Dev.mapCtrlWrite (d : Dev) (n v : Nat) : Dev :=
  let b := v % 2
  let d1 := d.wr CMP_MAP_CTRL.buffer b n
  if bit v 31 = false ∨ (d.img.port n).isNone then d1
  else if d1.rdb CMP_MAP_STATUS.absent n = false ∧ d1.rd CMP_MAP_STATUS.active_buf n = b then d1.mapReject n 0x06
  else if (tfind d1.cmp.checks n).isSome then d1.mapReject n 0x07
  else
    let d2 := if (tfind d1.cmp.pend n).any (fun m => m.buffer == b) then
        ({ d1 with cmp := { d1.cmp with pend := tdel d1.cmp.pend n } } : Dev).wr CMP_MAP_STATUS.pending 0 n else d1
    ({ d2 with cmp := { d2.cmp with checks := tput d2.cmp.checks n b } } : Dev).wr CMP_MAP_STATUS.checking 1 n

/-- The header checks of R189 on port n's map in a buffer of this extent: a code, or 0, in the order of the rule's table (log entry
114). -/
def Dev.mapHeaderCode (d : Dev) (n extent : Nat) (h : List Byte) : Nat :=
  let g := d.portGroup n
  let o (k : Nat) : Nat := beAt h (0x10 + 4 * k) 4
  let stop := 0x40 + beAt h 0x1C 4
  if beAt h 0 4 ≠ 0x554D4150 ∨ beAt h 4 2 ≠ 1 ∨ beAt h 7 1 ≠ 0 ∨ beAt h 0x28 24 ≠ 0 then 0x01
  else if beAt h 6 1 ≠ n then 0x02
  else if beAt h 8 2 ≠ d.lineRays n / 4 ∨ beAt h 10 2 ≠ 4 * d.nActive g ∨ beAt h 15 1 ≠ 0 ∨
      (List.range 3).any (fun k => bits (beAt h (12 + k) 1) 6 4 != 0) then 0x03
  else if o 0 < 0x40 ∨ o 1 ≤ o 0 ∨ o 2 ≤ o 1 ∨ stop ≤ o 2 ∨ extent < stop ∨ tget d.img.mem.mapLimit n 0 < beAt h 0x1C 4 then 0x04
  else 0

/-- The descriptor of a map from its header. -/
def mapDesc (b : Nat) (h : List Byte) : MapDesc :=
  { buffer := b, coding := (List.range 3).map (fun k => beAt h (12 + k) 1), offs := (List.range 3).map (fun k => beAt h (0x10 + 4 * k) 4),
    len := beAt h 0x1C 4, mapId := beAt h 0x24 4 }

/-- R189 to R192: port n's running check of a buffer reads the map, stopping at a read that is denied or fails, and ends. -/
def mapCheck (s : State) (n b : Nat) : State :=
  let (base, extent) := s.dev.mapBuf n b
  let sec := s.dev.blockSecure 4
  let stop (d : Dev) : Dev := ({ d with cmp := { d.cmp with checks := tdel d.cmp.checks n } } : Dev).wr CMP_MAP_STATUS.checking 0 n
  let hd := readHbmStop s 19 sec base 64
  let code := if hd.2.1 then 0x08 else s.dev.mapHeaderCode n extent hd.2.2
  if code ≠ 0 then onDev hd.1 (fun d => (stop d).mapReject n code)
  else
    let bd := readHbmStop hd.1 19 sec (base + 0x40) (beAt hd.2.2 0x1C 4)
    if bd.2.1 then onDev bd.1 (fun d => (stop d).mapReject n 0x08)
    else if crc32 (bd.2.2.map (fun x => x.toNat)) ≠ beAt hd.2.2 0x20 4 then onDev bd.1 (fun d => (stop d).mapReject n 0x05)
    else onDev bd.1 (fun d =>
      let d1 := stop d
      ({ d1 with cmp := { d1.cmp with pend := tput d1.cmp.pend n (mapDesc b hd.2.2) } } : Dev).wr CMP_MAP_STATUS.pending 1 n)

/-! ### The commands -/

/-- A write of one half of palette entry e of a bank (R183). -/
def Dev.paletteWrite (d : Dev) (bank e : Nat) (high : Bool) (v : Nat) : Dev :=
  if high then (d.wr CMP_OVL_PAL_HI.a (v / 65536) bank e).wr CMP_OVL_PAL_HI.r (v % 65536) bank e
  else (d.wr CMP_OVL_PAL_LO.g (v / 65536) bank e).wr CMP_OVL_PAL_LO.b (v % 65536) bank e

/-- MAP_CHECK_DONE (R189 to R192): port n's map check ends. -/
def execMapCheckDone (n : Nat) (s : State) : Res :=
  .next (match tfind s.dev.cmp.checks n with
    | some b => if s.dev.cmpRuns then mapCheck s n b else s
    | none => s)

end Sys2Proof.Machine
end

