-- ==== Sys2Proof/Machine/Live.lean ====
section
/-!
DEFINITION. What the kindling loader does at the marks of a scan frame (02_kindling_image.md): the slot journal (R64 to R66), a
live patch coming into force in a wall group (R77 to R82, 09_memory_arbitration.md R392), and the drain, blanking and end of a
relight (R87, R88, R93).
-/
namespace Sys2Proof.Machine

/-! ### The journal (R64 to R66) -/

/-- The states of KIN_SLOT.state: EMPTY, TRIAL, GOOD, BAD. -/
def slotTrial : Nat := 1
def slotGood : Nat := 2
def slotBad : Nat := 3

/-- The latest STATE entry of a slot among the entries that are intact (R65, R66). -/
def latestState (j : List JEntry) (slot : Nat) : Option JEntry :=
  j.foldl (fun o e => if e.intact && e.kind == 0 && e.slot == slot then some e else o) none

/-- R66: a slot's state; EMPTY without a STATE entry. -/
def Dev.slotState (d : Dev) (slot : Nat) : Nat := ((latestState d.peat.journal slot).map (fun e => e.state)).getD 0

/-- A slot's trial count. -/
def Dev.slotTrials (d : Dev) (slot : Nat) : Nat := ((latestState d.peat.journal slot).map (fun e => e.trials)).getD 0

/-- KIN_SLOT follows the journal: the generation, too, is that of the slot's latest STATE entry (log entry 150). -/
def Dev.slotReg (d : Dev) (slot : Nat) : Dev :=
  match latestState d.peat.journal slot with
  | none => d
  | some e => ((d.wr KIN_SLOT.generation e.gen slot).wr KIN_SLOT.trials (min e.trials 15) slot).wr KIN_SLOT.state e.state slot

/-- The generation of the next entry (R64): an entry that is not intact counts as never written (R65); the first is 1 (log entry 123). -/
def nextGen (j : List JEntry) : Nat := (((j.filter (fun e => e.intact)).getLast?.map (fun e => e.gen + 1)).getD 1) % 2 ^ 32

/-- R65: an entry is written to the peat store before the action it records. -/
def Dev.journal (d : Dev) (kind slot state trials imageId rollback : Nat) : Dev :=
  let e : JEntry := { gen := nextGen d.peat.journal, kind := kind, slot := slot, imageId := imageId, rollback := rollback,
                      state := state, trials := trials, intact := true }
  ({ d with peat := { d.peat with journal := d.peat.journal ++ [e] } } : Dev).slotReg slot

/-- A STATE entry for a slot, with the identity its latest STATE entry holds. -/
def Dev.journalState (d : Dev) (slot state trials : Nat) : Dev :=
  match latestState d.peat.journal slot with
  | some e => d.journal 0 slot state trials e.imageId e.rollback
  | none => d.journal 0 slot state trials 0 0

/-! ### ARBITER and FIRESCREEN in force -/

/-- The instances of an ARBITER section in ARB_INST_CFG and ARB_REQ_CFG (09_memory_arbitration.md). -/
def Dev.arbiterRegs (d : Dev) (l : List ArbCfg) : Dev :=
  l.zipIdx.foldl (fun d p =>
    let i := p.2
    let d1 := (d.wr ARB_INST_CFG.mode p.1.mode i).wr ARB_INST_CFG.window p.1.window i
    p.1.reqs.zipIdx.foldl (fun d q =>
      let (cls, present, quota, weight) := q.1
      (((d.wr ARB_REQ_CFG.class cls i q.2).wr ARB_REQ_CFG.present present i q.2).wr ARB_REQ_CFG.quota quota i q.2).wr
        ARB_REQ_CFG.weight weight i q.2) d1) d

/-- FIRESCREEN's requested wall ceiling (R337's table) and tile ceiling of port n. -/
def firescreenWall (b : List Byte) : Nat := leAt b 4 4
def Dev.requestedCeil (d : Dev) (n : Nat) : Nat := d.fscWord n 4

/-- R78: the FIRESCREEN section in force of group g lowers the effective ceilings and the limits of the levels in force. -/
def Dev.firescreenLower (d : Dev) (g : Nat) : Dev :=
  let d1 := d.wr FSC_WALL_CEIL.ceiling (min (d.rd FSC_WALL_CEIL.ceiling) (firescreenWall (d.img.body 0x11 g)))
  forEach (d1.groupPorts g) (fun n d =>
    let d2 := (d.wr FSC_PORT_CEIL.ceiling (min (d.rd FSC_PORT_CEIL.ceiling n) (d.requestedCeil n)) n).wr FSC_PORT_LEVEL.level_count
      (d.fscWord n 0 / 65536 % 256 - 1) n
    d2.applyLevel n (d2.levelInForce n)) d1

/-! ### Live patches (R77 to R82) -/

/-- Sections that no wall group reads of its own: ARBITER and RECORDER. -/
def deviceWide (id : Nat) : Bool := id == 0x0C || id == 0x0F

/-- The lowest-numbered wall group that has started (R392). -/
def Dev.lowestStarted (d : Dev) : Option Nat := (List.range 4).find? d.started

/-- The wall groups of the image, as a mask. -/
def Dev.allGroups (d : Dev) : Nat := maskUp 4 (fun g => (d.img.group g).isSome)

/-- R77, R392: the wall groups at whose frames a patch's sections take effect; `wide` is the one for the whole device's sections. -/
def Dev.patchGroups (d : Dev) (wide : Option Nat) (secs : List ImgSection) : Nat :=
  maskUp 4 (fun g => secs.any (fun s =>
    if deviceWide s.id then wide == some g
    else match s.scope with
      | some g' => g' == g
      | none => d.allGroups.testBit g))

/-- A section for the whole device comes into force, whatever its scope (R392, log entry 93). -/
def Dev.takeWide (d : Dev) (s : ImgSection) : Dev :=
  let d1 : Dev := { d with img := d.img.putWhole { s with scope := none } }
  if s.id = 0x0C then d1.arbiterRegs (Config.arbiterSection s.body) else d1

/-- The maps of a UNIFORMITY body that comes into force in wall group g: each goes into the buffer of its port that is not in force,
whose bytes are written with the frame's other HBM accesses (`placeMaps`), and a map that waits there is cancelled (log entry 40). -/
def Dev.takeMaps (d : Dev) (g : Nat) (maps : Tab (List Byte)) : Dev :=
  forEach (maps.filter (fun x => (d.groupPorts g).contains x.1)) (fun x d =>
    let n := x.1
    let b := if d.rdb CMP_MAP_STATUS.absent n then 0 else 1 - d.rd CMP_MAP_STATUS.active_buf n
    let (base, extent) := d.mapBuf n b
    if d.mapHeaderCode n extent x.2 ≠ 0 then d
    else
      let d1 := if (tfind d.cmp.pend n).any (fun m => m.buffer == b) then
        ({ d with cmp := { d.cmp with pend := tdel d.cmp.pend n } } : Dev).wr CMP_MAP_STATUS.pending 0 n else d
      let d2 : Dev := { d1 with cmp := { d1.cmp with placing := d1.cmp.placing ++ [(base, x.2)] } }
      (d2.mapInForce n (mapDesc b x.2)).raise 128) d

/-- The bytes of maps that a live patch has brought into force are written. -/
def placeMaps (s : State) : State :=
  s.dev.cmp.placing.foldl (fun s x => placeBytes s x.1 x.2) (onDev s (fun d => { d with cmp := { d.cmp with placing := [] } }))

/-- A section of a patch comes into force in wall group g; one for the whole device where g is the group staging fixed (R392). -/
def Dev.takeSection (d : Dev) (g : Nat) (wide : Option Nat) (s : ImgSection) : Dev :=
  if deviceWide s.id then (if wide = some g then d.takeWide s else d)
  else if s.scope.any (fun g' => g' != g) then d
  else
    let d1 : Dev := { d with img := d.img.putFor g { s with scope := some (if s.scope.isNone then 4 + g else g) } }
    if s.id = 0x0A then d1.takeMaps g (Config.uniformityMaps s.body) else d1

/-- Wall groups that some staged patch has yet to reach. -/
def stagedGroups (l : List Staged) : Nat := maskUp 4 (fun g => l.any (fun p => p.groups.testBit g))

/-- KIN_STATUS.live_busy and KIN_LIVE_STATUS.groups_pending follow the staged patches. -/
def Dev.liveRegs (d : Dev) : Dev :=
  (d.wr KIN_LIVE_STATUS.groups_pending (stagedGroups d.kin.staged)).wrb KIN_STATUS.live_busy (! d.kin.staged.isEmpty)

/-- R79: the patch has taken effect in every wall group it affects. -/
def Dev.patchDone (d : Dev) (p : Staged) : Dev :=
  ((d.wr KIN_LIVE_STATUS.patch_seq p.patchSeq).count KIN_LIVE_APPLIED_CNT.sat KIN_LIVE_APPLIED_CNT.count).raise 37

/-- The patch holds a FIRESCREEN section (R78). -/
def Staged.lowers (p : Staged) : Bool := p.sections.any (fun s => s.id == 0x11)

/-- All sections of a patch take effect in wall group g (R77, R79), unless it was superseded since it was latched (R80). -/
def Dev.takePatch (d : Dev) (g num : Nat) : Dev :=
  match d.kin.staged.find? (fun q => q.num == num && q.groups.testBit g) with
  | none => d
  | some p =>
    let d1 := forEach (scopedLast p.sections) (fun s d => d.takeSection g p.wide s) d
    let d2 := if p.lowers then d1.firescreenLower g else d1
    let left := clearBits p.groups (2 ^ g)
    let d3 : Dev := { d2 with kin := { d2.kin with staged := d2.kin.staged.filterMap (fun q =>
      if q.num = num then (if left = 0 then none else some { q with groups := left }) else some q) } }
    (if left = 0 then d3.patchDone p else d3).liveRegs

/-- R230: the staged patches that join the set latched in wall group g. -/
def Dev.patchesToLatch (d : Dev) (g : Nat) : List Staged := d.kin.staged.filter (fun p => p.groups.testBit g)

/-- R78: FIRESCREEN patches take effect with line 0 of wall group g, from its composition on, so that its words obey the new limits
(R202, R205; log entry 113). -/
def Dev.lowerAtLine0 (d : Dev) (g : Nat) : Dev :=
  forEach (d.kin.staged.filter (fun p => p.groups.testBit g && p.lowers)) (fun p d => d.takePatch g p.num) d

/-! ### Relight marks (R87, R88, R93) -/

/-- R87: the black frame of wall group g is still to be scanned. -/
def Dev.blackDue (d : Dev) (g : Nat) : Bool :=
  d.started g && (match d.kin.relight with
    | some r => ! r.blackDone.testBit g && (d.rd KIN_RELIGHT.step == 2 || d.rd KIN_RELIGHT.step == 3)
    | none => false)

/-- R87: once every started group's frame in progress has swapped, KIN_RELIGHT.step is BLANK. -/
def Dev.relightBlank (d : Dev) : Dev :=
  if d.rd KIN_RELIGHT.step = 2 ∧ (List.range 4).all (fun g => ! d.started g || (d.scnG g).blackNext || (d.scnG g).black) then d.relightStep 3 else d

/-- R88: every port's lanes stop. -/
def Dev.stopLanes (d : Dev) : Dev :=
  forEach d.img.activePorts (fun n d =>
    if d.linkState n = 0 then d
    else
      let d1 := d.leaveUp n
      (((d1.wr TLK_PORT_STATE.state 1 n).wr TLK_PORT_STATE.phase 0 n).wr TLK_PORT_STATE.idle 0 n).emit (.lanes n 0)) d

/-- R88: lanes stop and every tile is discharged with its bias held; a discharge already running is the tile's, and a port that OTP
holds in OFF has none to run. -/
def Dev.relightDischarge (d : Dev) : Dev :=
  let d1 := (d.relightStep 4).stopLanes
  let d2 := forEach d1.img.activePorts (fun n d =>
    if d.portDisabled n then d
    else
      let d' := if d.pstate n = 4 then d else d.startDischarge n 2
      d'.setCtl n { d'.ctl n with relightBias := true }) d1
  d2.relightDischarged

/-- R87: the black frame of wall group g has swapped; once those of every started group have, the discharge follows. -/
def Dev.blackSwapped (d : Dev) (g : Nat) : Dev :=
  match d.kin.relight with
  | none => d
  | some r =>
    let m := if r.blackDone.testBit g then r.blackDone else r.blackDone + 2 ^ g
    let d1 : Dev := { d with kin := { d.kin with relight := some { r with blackDone := m } } }
    if (List.range 4).all (fun h => ! d1.started h || m.testBit h) then d1.relightDischarge else d1

/-- R97: KIN_RELIGHT.elapsed_ms holds the value that it has as the relight ends. -/
def Dev.holdElapsed (d : Dev) : Dev :=
  match d.kin.relight with
  | none => d
  | some r => d.wr KIN_RELIGHT.elapsed_ms (d.msSince r.started)

/-- R93, R66: the first swap after a relight ends it. -/
def Dev.relightDone (d : Dev) : Dev :=
  match d.kin.relight with
  | none => d
  | some r =>
    let d2 := (d.holdElapsed.raise 35).journal 2 r.target 0 0 0 0
    (({ d2 with kin := { d2.kin with relight := none, noAdmit := false } } : Dev).wr KIN_STATUS.state 3).relightStep 0

end Sys2Proof.Machine
end

