-- ==== Sys2Proof/Machine/Recorder.lean ====
section
/-!
DEFINITION. The event recorder's log (14_recorder_kiln.md R530 to R548): writing and rewriting records in the peat
store, loss, the full log, clearing, the power-fail flush and the end search.
-/
namespace Sys2Proof.Machine

/-! ### Laying a record out -/

/-- The 64 words of a record as its table lays them out. -/
def recWords (r : Rec) : List Nat :=
  let w1 := 0x4552 * 65536 + r.gen
  let flags := b2n r.repSat + 2 * b2n r.mended + 4 * b2n r.secure + 8 * b2n r.device + 16 * r.snaps.length
  let body : List Nat :=
    if r.device then (List.range 32).map (fun i => lget r.data i 0)
    else (List.range 16).flatMap (fun k => [(lget r.snaps k (0, 0)).1, (lget r.snaps k (0, 0)).2])
  [r.seq, w1] ++ timeWords r.first ++ timeWords r.last ++
  [r.event * 2 ^ 20 + r.cls * 2 ^ 16 + r.block * 256 + r.inst, r.detail, r.rept, flags, 0, 0, 0, 0] ++ body ++
  [0, 0, 0, 0, 0, 0, 0, 0, 0, 0, 0, 0, 0, 0] ++ [r.seq, w1]

/-- R532: a record's words agree at both ends and carry the magic. -/
def recConsistent (w : List Nat) : Bool :=
  lget w 0 0 == lget w 62 0 && lget w 1 0 == lget w 63 0 && lget w 1 0 / 65536 == 0x4552

/-- R539: the place of word w in the order of writing. -/
def writePlace (w : Nat) : Nat := if 62 ≤ w then w - 62 else if 2 ≤ w then w else 62 + w

/-- The slot's words when power failed after k words of a record were written (R539): they are written two at a time, as the store's
64-bit words (R530). -/
def tornWords (old new : List Nat) (k : Nat) : List Nat :=
  (List.range 64).map (fun w => if writePlace w / 2 < k / 2 then lget new w 0 else lget old w 0)

/-! ### Writing -/

/-- Store a record's words in its slot; the store has none above 65,535 (R530). -/
def Dev.putSlot (d : Dev) (slot : Nat) (ws : List Nat) : Dev :=
  if 65535 < slot then d else
  { d with peat := { d.peat with slots := tput d.peat.slots slot ws } }

/-- The newest written record's shadow differs from what its slot stores (R540). -/
def Rec.stale (r : Rec) : Bool := r.shRepeat != r.rept || r.shLast != r.last

/-- A record as its next rewrite stores it (R539). -/
def Rec.refreshed (r : Rec) : Rec := { r with gen := (r.gen + 1) % 65536, rept := r.shRepeat, last := r.shLast }

/-- R539, R540: rewrite the newest record with its shadow. -/
def Dev.rewriteNewest (d : Dev) : Dev :=
  match d.evr.newest with
  | none => d
  | some r =>
    let r' := r.refreshed
    ({ d with evr := { d.evr with newest := some r', lastWrite := d.ticks, due := false } } : Dev).putSlot d.evr.newestSlot
      (recWords r')

/-- R540: the rewrite that precedes the next record, a clear, or a loss of power. -/
def Dev.settleNewest (d : Dev) : Dev :=
  match d.evr.newest with
  | some r => if r.stale then d.rewriteNewest else d
  | none => d

/-- Write one record in the next slot with the next sequence number (R539); R544's full log at 65,520 records. -/
def Dev.writeRec (d : Dev) (r : Rec) : Dev :=
  let slot := d.rd EVR_STATUS.count
  let seq := d.rd EVR_SEQ_NEXT.seq
  let r' := { r with seq := seq, gen := 0 }
  let d1 := ({ d with evr := { d.evr with newest := some r', newestSlot := slot, lastWrite := d.ticks,
                                          due := r'.stale } } : Dev).putSlot slot (recWords r')
  let d2 := (d1.wr EVR_STATUS.count (slot + 1)).wr EVR_SEQ_NEXT.seq (seq + 1)
  let d3 := if slot = 0 then d2.wr EVR_FIRST_SEQ.seq seq else d2
  if slot + 1 = 65520 then (d3.wr EVR_STATUS.full 1).raise 544 else d3

/-- R543: once the queue has room, one LOST record gives the triggers lost, and REC_LOST is raised; a full log takes no LOST record, and the
report waits. -/
def Dev.reportLost (d : Dev) : Dev :=
  if d.evr.lost = 0 ∨ d.evr.roomForTrigger = false ∨ d.logTakes 545 = false then d
  else (({ d with evr := { d.evr with lost := 0 } } : Dev).deviceRec 545 d.evr.lost []).raise 545

/-- R539, R543, R544: the recorder writes its next queued record; one for which the log has no slot is dropped, and the triggers it stands
for are counted. -/
def Dev.recordWrite (d : Dev) : Dev :=
  match d.evr.queue with
  | [] => d.reportLost
  | r :: rest =>
    let d1 : Dev := { d with evr := { d.evr with queue := rest } }
    if d.logTakes r.event = false then
      ((d1.count EVR_FULL_DROP_CNT.sat EVR_FULL_DROP_CNT.count r.shRepeat).showShadow).reportLost
    else
      (d1.settleNewest.writeRec r).reportLost

/-- R540: a due rewrite, once 60 s have passed since the record's previous write. -/
def Dev.recordRewrite (d : Dev) : Dev :=
  if d.evr.due ∧ 60000 ≤ d.msSince d.evr.lastWrite then d.rewriteNewest else d

/-- Every queued record, oldest first, and those that writing them queues: LOST (R543), and records of REC_LOST and of a full log. -/
def Dev.flushQueue (d : Dev) : Dev := forUp (d.evr.queue.length + 4) (fun _ d => d.recordWrite) d

/-- R542: the flush on POWER_FAIL_N: the pending rewrite, every queued record with its repeats, and a POWER_FAIL record. -/
def Dev.powerFailFlush (d : Dev) : Dev :=
  let d1 := d.settleNewest.flushQueue.settleNewest
  (d1.deviceRec 555 0 [(d1.evr.newest.map (fun r => r.rept)).getD 0]).flushQueue

/-- The write in progress when power is lost, cut after k words: the newest record's rewrite where its shadow differs,
else the next queued record (R539). -/
def Dev.tearWrite (d : Dev) (k : Nat) : Dev :=
  let next : Dev := match d.evr.queue with
    | [] => d
    | r :: _ =>
      let slot := d.rd EVR_STATUS.count
      d.putSlot slot (tornWords (tget d.peat.slots slot []) (recWords { r with seq := d.rd EVR_SEQ_NEXT.seq }) k)
  match d.evr.newest with
  | none => next
  | some r =>
    if r.stale then
      d.putSlot d.evr.newestSlot (tornWords (tget d.peat.slots d.evr.newestSlot []) (recWords r.refreshed) k)
    else next

/-! ### The end search (R541) -/

/-- How many slots from `i` on hold records of the run that starts with sequence number s0. -/
def runLength (s0 : Nat) : Nat → Tab (List Nat) → Nat
  | _, [] => 0
  | i, (k, w) :: t =>
    if k = i ∧ recConsistent w ∧ lget w 0 0 = (s0 + i) % 2 ^ 32 then 1 + runLength s0 (i + 1) t else 0

/-- R541: a slot torn by power loss, mended: gen one above the larger copy, mended set. -/
def mendWords (w : List Nat) : List Nat :=
  let g := 0x4552 * 65536 + (max (lget w 1 0 % 65536) (lget w 63 0 % 65536) + 1) % 65536
  let fl := lget w 11 0
  lset (lset (lset w 1 g) 63 g) 11 (if bit fl 1 then fl else fl + 2)

/-- The instant that a record's time field gives (07_tile_link.md's layout). -/
def timeOfWords (w0 w1 w2 : Nat) : Nat := (w0 / 65536 * 2 ^ 32 + w1) * fuSec + w2 * 65536 + w0 % 65536

/-- The record that a slot's words hold, its shadow as stored. -/
def recOfWords (w : List Nat) : Rec :=
  let x := lget w 8 0
  let fl := lget w 11 0
  { event := x / 2 ^ 20, cls := x / 65536 % 16, block := x / 256 % 256, inst := x % 256, detail := lget w 9 0,
    first := timeOfWords (lget w 2 0) (lget w 3 0) (lget w 4 0), last := timeOfWords (lget w 5 0) (lget w 6 0) (lget w 7 0),
    rept := lget w 10 0, repSat := bit fl 0, secure := bit fl 2, device := bit fl 3, mended := bit fl 1,
    snaps := (List.range (fl / 16 % 32)).map (fun k => (lget w (16 + 2 * k) 0, lget w (17 + 2 * k) 0)),
    data := (List.range 32).map (fun k => lget w (16 + k) 0), seq := lget w 0 0, gen := lget w 1 0 % 65536,
    shRepeat := lget w 10 0, shLast := timeOfWords (lget w 5 0) (lget w 6 0) (lget w 7 0) }

/-- The record in the last slot of the log is the newest (R538), with the repeat count it stores. -/
def Dev.newestFromLog (d : Dev) : Dev :=
  let n := d.rd EVR_STATUS.count
  if n = 0 then d
  else
    let r := recOfWords (tget d.peat.slots (n - 1) [])
    ({ d with evr := { d.evr with newest := some r, newestSlot := n - 1 } } : Dev).wr EVR_SHADOW.repeat r.shRepeat

/-- R541: find the end of the log, deal with the slot after the run, and queue POWER_ON with the reset kind. -/
def Dev.endSearch (d : Dev) (kind : Nat) : Dev :=
  let w0 := tget d.peat.slots 0 []
  let s0 := if recConsistent w0 then lget w0 0 0 else 0
  let n := if recConsistent w0 then runLength s0 0 d.peat.slots else 0
  let after := tget d.peat.slots n []
  let want := (s0 + n) % 2 ^ 32
  let torn : Bool := (tfind d.peat.slots n).isSome && lget after 0 0 == want && lget after 62 0 == want &&
    lget after 1 0 % 65536 != lget after 63 0 % 65536
  let n' := if torn then n + 1 else n
  let d1 : Dev := { d with evr := { queue := [], newest := none, newestSlot := 0, lastWrite := d.ticks, due := false, lost := 0 } }
  let d2 := ((d1.wr EVR_STATUS.ready 1).wr EVR_STATUS.count n').wr EVR_SEQ_NEXT.seq (s0 + n')
  let d3 := if n' = 0 then d2 else d2.wr EVR_FIRST_SEQ.seq s0
  let d4 := if torn then ((d3.putSlot n (mendWords after)).count EVR_MEND_CNT.sat EVR_MEND_CNT.count).raise 547 else d3
  let d5 := if 65520 ≤ n' then (d4.wr EVR_STATUS.full 1).raise 544 else d4
  d5.newestFromLog.deviceRec 554 kind [d5.word true EVR_STATUS.ent 0 0]

/-! ### Clearing (R547, R548) -/

/-- The purpose number of a RECORDER_CLEAR token (R516). -/
def purposeClear : Nat := 3

/-- R547: why a clear is refused, or 0. -/
def Dev.clearRefusal (d : Dev) : Nat :=
  match d.sec.checked with
  | none => 0x01
  | some t =>
    if t.purpose ≠ purposeClear then 0x01
    else if lget t.args 0 0 % 2 ^ 17 ≠ d.rd EVR_STATUS.count ∨ lget t.args 1 0 ≠ (d.rd EVR_SEQ_NEXT.seq + 2 ^ 32 - 1) % 2 ^ 32 then 0x02
    else if d.lifecycle = 3 then 0x03
    else if d.glb.failPin then 0x04
    else 0

/-- R548: clear the log and write the CLEAR record in slot 0. -/
def Dev.clearLog (d : Dev) (keySlot : Nat) : Dev :=
  let d1 := d.settleNewest
  let n := d1.rd EVR_STATUS.count
  let seq := d1.rd EVR_SEQ_NEXT.seq
  let d2 := (d1.wr EVR_STATUS.count 0).wr EVR_STATUS.full 0
  let d3 := d2.writeRec (freshRec 546 (d2.recClass 546) 15 0xFF n d2.evNow (d2.eventSecure 546) true []
    [(seq + 2 ^ 32 - 1) % 2 ^ 32, keySlot])
  d3.showShadow.raise 546

/-- R547: a write of EVR_CLEAR_CTRL with this value; a RECORDER_CLEAR token is used up in either case, and one of another purpose stays
held (R516). -/
def Dev.clearWrite (d : Dev) (v : Nat) : Dev :=
  if bit v 31 then
    let why := d.clearRefusal
    let ks := (d.sec.checked.map (fun t => t.keySlot)).getD 0
    let d1 : Dev := { d with sec := { d.sec with checked := d.sec.checked.filter (fun t => t.purpose != purposeClear) } }
    if why = 0 then (d1.clearLog ks).wr EVR_CLEAR_STATUS.status 0 else d1.wr EVR_CLEAR_STATUS.status why
  else d

/-! ### The commands -/

/-- The recorder has power and is not held in reset. -/
def Dev.evrRuns (d : Dev) : Bool := d.rdb GLB_PWR_STATUS.core && ! d.blockHeld 15

/-- RECORD_WRITE (R539). -/
def execRecordWrite (s : State) : Res := nextDev s (fun d => if d.evrRuns then d.recordWrite else d)

/-- RECORD_REWRITE (R540). -/
def execRecordRewrite (s : State) : Res := nextDev s (fun d => if d.evrRuns then d.recordRewrite else d)

end Sys2Proof.Machine
end

