-- ==== Sys2Proof/Machine/Smoulder.lean ====
section
/-!
DEFINITION. Smoulder (08_tile_control.md R331 to R335, 15_reset_power_faults.md R568 to R571): the power estimate, the SMOULDER
packets, and the entry.
-/
namespace Sys2Proof.Machine

/-! ### Rectangles and the power estimate (R331 to R333) -/

/-- Rectangle r of port n is enabled and covers hogel (x, y). -/
def Dev.smkCovers (d : Dev) (n r x y : Nat) : Bool :=
  d.rdBit TCT_SMK_SEL.enable r n && decide (d.rd TCT_SMK_RECT_A.x0 n r ≤ x) && decide (x ≤ d.rd TCT_SMK_RECT_B.x1 n r) &&
  decide (d.rd TCT_SMK_RECT_A.y0 n r ≤ y) && decide (y ≤ d.rd TCT_SMK_RECT_B.y1 n r)

/-- R332: the rectangle that wins hogel (x, y). -/
def Dev.smkWins (d : Dev) (n x y : Nat) : Option Nat := (List.range 4).find? (fun r => d.smkCovers n r x y)

/-- R333: A_r, the rays of the hogels that rectangle r wins. -/
def Dev.smkRays (d : Dev) (n r : Nat) : Nat :=
  let views := 12 * ((d.img.tileClass (d.portClass n)).map (fun c => c.viewRows)).getD 0
  views * sumUp (d.tileRows n) (fun y => countUp (d.tileCols n) (fun x => d.smkWins n x y == some r))

/-- The three drive words of a ray value (R203). -/
def rayWords (v : Nat) : Rgb := ⟨bits v 29 20, bits v 19 10, bits v 9 0⟩

/-- R331: palette entry e of port n, limited by R200 with k = 65,536 and the level in force. -/
def Dev.smkColour (d : Dev) (n e : Nat) : Rgb := limitWords 65536 (d.ceilings n) (rayWords (d.rd TCT_SMK_PAL.ray n e))

/-- The palette index of rectangle r. -/
def Dev.smkIndex (d : Dev) (n r : Nat) : Nat := d.rd TCT_SMK_SEL.colour n / 2 ^ (3 * r) % 8

/-- R333: the smoulder power estimate of port n. -/
def Dev.smkPower (d : Dev) (n : Nat) : Nat :=
  let sum (f : Rgb → Nat) : Nat := sumUp 4 (fun r => d.smkRays n r * driveDec (f (d.smkColour n (d.smkIndex n r))))
  d.portPower n [sum Rgb.r, sum Rgb.g, sum Rgb.b]

/-- R333: entry is refused: any active port's estimate exceeds its ceiling, or their sum the wall's. -/
def Dev.smoulderRefused (d : Dev) : Bool :=
  d.img.activePorts.any (fun n => decide (d.tileCeil n < d.smkPower n)) ||
  decide (d.wallCeil < (d.img.activePorts.map d.smkPower).foldl (· + ·) 0)

/-! ### Entry (R568) -/

/-- The body of port n's SMOULDER packet. -/
def Dev.smkBody (d : Dev) (n : Nat) : List Byte :=
  let pal := (List.range 8).map (fun e => let c := d.smkColour n e; rayValue c.r c.g c.b)
  let rect := (List.range 4).flatMap (fun r =>
    [d.rd TCT_SMK_RECT_A.x0 n r * 65536 + d.rd TCT_SMK_RECT_A.y0 n r, d.rd TCT_SMK_RECT_B.x1 n r * 65536 + d.rd TCT_SMK_RECT_B.y1 n r])
  wordBytes ([1] ++ pal ++ rect ++ [d.rd TCT_SMK_SEL.colour n * 65536 + d.rd TCT_SMK_SEL.enable n])

/-- R568 step 2: SMOULDER leaves to every LIT port of group g, from idle lanes after an exit; a skip set
follows (R272). -/
def Dev.smoulderLine (d : Dev) (g : Nat) : Dev :=
  if d.glb.smoulderEntry && d.glb.smoulderGroups.testBit g then
    let d1 := forEach (d.groupPorts g) (fun n d => if d.lit n then (((d.leaveIdle n).sendControl n 4 (d.smkBody n)).sendSkip n).setPstate n 5 else d) d
    { d1 with glb := { d1.glb with smoulderGroups := d1.glb.smoulderGroups - 2 ^ g } }
  else d

/-- The PCIe link goes down (R453, R459, R518): host rings are parked, host locks freed, and a session closes. -/
def Dev.pcieLoss (d : Dev) : Dev :=
  let host (e : Nat) : Bool := e == 0x40 || e == 0x41
  let d1 : Dev := { d with stk := { d.stk with pcieUp := false } }
  let d2 := d1.parkRings (fun r => host (d1.producer r) || host (d1.consumer r))
  ((d2.abandonLocks 0x40).abandonLocks 0x41).wr SEC_STATUS.mbx_open 0

/-- TCT stops with its exchanges (R569, log entry 163); the channels' sequence numbers stand. -/
def Dev.dropExchanges (d : Dev) : Dev := { d with bus := d.bus.map (fun x => (x.1, { x.2 with open_ := none, waiting := [] })) }

/-- R568 steps 3 and 4: the recorder is flushed, rings are parked, stokers held, and every domain but the always-on and the
management buses powers down; HBM contents are lost (R383) and the heartbeat is suspended (R347). -/
def smoulderFinish (s : State) : State :=
  if s.dev.glb.smoulderEntry && s.dev.glb.smoulderGroups == 0 then
    onDev { s with hbm := [] } (fun d =>
      let d1 := ((d.dropExchanges.flushQueue.settleNewest).parkRings (fun _ => true)).hbSuspend
      let d2 := forEach d1.stk.cores (fun c d => d.setCore c.1 { c.2 with run := 0 }) d1
      let d3 := forEach d2.img.activePorts (fun n d => d.linkOff n) d2
      let d4 := ((((d3.wr GLB_PG_PWR.groups 0).wr GLB_PWR_STATUS.quarters 0).wr GLB_PWR_STATUS.hbm 0).wr GLB_PWR_STATUS.ethernet 0).pcieLoss
      let d5 := (d4.wr GLB_PWR_STATUS.pcie 0).wr GLB_PWR_STATUS.core 0
      { d5 with glb := { d5.glb with phase := .smoulder, smoulderEntry := false } })
  else s

/-- A write of GLB_SMOULDER_CTRL (R568, R570): wake_s is stored; enter is refused by R333, or entry begins. -/
def smoulderWrite (v : Nat) (s : State) : State :=
  let s1 := onDev s (fun d => d.wr GLB_SMOULDER_CTRL.wake_s (v % 65536))
  if bit v 31 = false ∨ s1.dev.glb.phase = .smoulder ∨ s1.dev.glb.smoulderEntry then s1
  else if s1.dev.smoulderRefused then onDev s1 (fun d => d.raise 268)
  else
    smoulderFinish (onDev s1 (fun d =>
      { d with glb := { d.glb with smoulderEntry := true, smoulderTick := d.ticks
                                   smoulderGroups := maskUp 4 (fun g => (d.scnG g).running) } }))

end Sys2Proof.Machine
end

