-- ==== Sys2Proof/Machine/Scan.lean ====
section
/-!
DEFINITION. Scan timing (06_scan_timing.md R207 to R239): the generator of a wall group and every mark of a scan frame, with the
swap decision (08_tile_control.md R312 to R322), line packets (07_tile_link.md R251 to R256) and time exchanges (R274).
-/
namespace Sys2Proof.Machine

/-! ### The generator starts (R215, R216, R224) -/

/-- The first grid frame of a mode and phase whose line 0 is not before instant t of the time base. -/
def firstGrid (m : TimingMode) (phase : Int) (t : Int) : Nat :=
  let k0 := (divFloor ((t - phase * 65536) * (m.fNum : Int)) (m.fDen * fuSec)).toNat - 1
  (((List.range 4).map (fun i => k0 + i)).find? (fun (k : Nat) => decide (t ≤ gridAt phase m.fNum m.fDen m.nTotal (k * m.nTotal)))).getD (k0 + 3)

/-- Mode m of wall group g comes into force in the registers (R235). -/
def Dev.modeRegs (d : Dev) (g m : Nat) : Dev :=
  let c := d.modeCfg g m
  (((((((d.wr SCN_MODE.active_mode m g).wr SCN_MODE_RATE.f_num c.fNum g).wr SCN_MODE_RATE.f_den c.fDen g).wr SCN_MODE_LINES.n_total
    c.nTotal g).wr SCN_MODE_LINES.n_active c.nActive g).wr SCN_MODE_MARKS.deadline c.deadline g).wr SCN_MODE_MARKS.guard c.guard
    g).wr SCN_MODE_SWAP.swap c.swap g

/-- R215, R216, R224: the generator of group g starts on the first grid frame not before now; frame number 0. -/
def Dev.startGenerator (d : Dev) (g : Nat) : Dev :=
  if (d.img.group g).isNone then d
  else
    let m := d.rd SCN_MODE.active_mode g
    let ph := d.rd SCN_PHASE_ACTIVE.phase g
    let k := firstGrid (d.modeCfg g m) (toS 32 ph) (d.tbNow (d.groupTb g) : Int)
    let d1 := (((((d.wr SCN_LINE.line 0 g).wr SCN_LINE.blanking 1 g).wr SCN_LINE.extension 0 g).wr SCN_FRAME_NUM.frame 0 g).wr
      SCN_CFG.started 0 g).wrBit SCN_STATUS.extension g false
    d1.setScn g { ScnGroup.init with running := true, tail := true, nextK := k, nextMode := m, nextPhase := ph }

/-! ### Line 0 (R211, R214, R215) -/

/-- The ports of group g that send in the frame in scan: UP, LIT and admitted into the scan (R268, R312). -/
def Dev.takesPart (d : Dev) (n : Nat) : Bool := d.linkUp n && d.lit n && (d.lnk n).inFrame

/-- A new scan frame begins: the line clock takes the time base's value, and frame number and grid index advance. Live patches of the
firescreen have come into force with the composition of its line 0, but for the first frame's (log entry 113). -/
def Dev.enterFrame (d : Dev) (g : Nat) : Dev :=
  let x := d.scnG g
  let d1 := d.stepStamps g x.lcDiff
  let d2 := if x.begun then d1.wr SCN_FRAME_NUM.frame (d1.rd SCN_FRAME_NUM.frame g + 1) g else d1
  let d3 := d2.setScn g { x with begun := true, k := x.nextK, tail := false, shift := 0, lcDiff := 0, lost := x.lostNext,
                                 lostNext := 0, scanning := x.scanNext, black := x.blackNext, scanNext := false, blackNext := false,
                                 decided := false, skip := 0 }
  let d4 := (d3.wr SCN_GRID_LO.grid_lo x.nextK g).wr SCN_GRID_HI.grid_hi (x.nextK / 2 ^ 32) g
  let d5 := (d4.wrTime SCN_LINE0_TIME0.fraction SCN_LINE0_TIME1.nanoseconds SCN_LINE0_TIME2.seconds_lo SCN_LINE0_TIME3.seconds_hi
    (d4.tkl g x.nextK 0).toNat g).wrTime SCN_SWAP_TIME0.fraction SCN_SWAP_TIME1.nanoseconds SCN_SWAP_TIME2.seconds_lo
    SCN_SWAP_TIME3.seconds_hi (d4.tkl g x.nextK (d4.lSwap g)).toNat g
  let d6 := forEach (d5.groupPorts g) (fun n d =>
    d.setLnk n { d.lnk n with aborted := false, lineCrc := 0xFFFFFFFF, csum := none, stepFlag := decide (x.lcDiff ≠ 0) }) d5
  let d7 := if x.lcDiff = 0 then d6 else d6.pulsesStep true g
  if x.begun then d7 else d7.lowerAtLine0 g

/-! ### Commits (R224 to R231) -/

/-- R226, R230: the set latched at line L_guard, when a commit is armed or a live patch is staged. -/
def Dev.latchCommit (d : Dev) (g : Nat) : Dev :=
  let patches := d.patchesToLatch g
  if d.rdb SCN_COMMIT.armed g = false ∧ patches.isEmpty then d
  else
    let (d1, maps) := d.latchMaps g
    let set : LatchSet :=
      { mode := d.rd SCN_MODE.pending_mode g, phase := d.rd SCN_PHASE.phase g, hold := d.rd SCN_COMMIT.pending_hold g,
        coeff := (List.range 64).map (fun k => (k, (d.rd RAY_COEFF_SEL.pending_en g k, d.rd RAY_COEFF_SEL.pending_set g k))),
        xfer := (d.groupPorts g).map (fun n => (n, d.rd CMP_PORT_SEL.pending_xfer n)),
        ovlEn := d.rd CMP_OVL_CFG.pending_en g, ovlBank := d.rd CMP_OVL_CFG.pending_bank g,
        ovlBase := d.rd CMP_OVL_BASE_HI.base_hi g * 2 ^ 32 + d.rd CMP_OVL_BASE_LO.base_lo g, ovlPitch := d.rd CMP_OVL_PITCH.pitch g,
        maps := maps, patches := patches }
    let d2 := d1.setScn g { d1.scnG g with latched := some set }
    (((d2.wr SCN_COMMIT.armed 0 g).wr SCN_COMMIT.late 0 g).wr SCN_COMMIT.latched 1 g).wr SCN_LATCHED_TARGET.frame
      (d.rd SCN_FRAME_NUM.frame g + 1) g

/-- R227, R235: the latched set comes into force in every block together; a firescreen patch waits for line 0 (R78). -/
def Dev.applyCommit (d : Dev) (g : Nat) : Dev :=
  match (d.scnG g).latched with
  | none => d
  | some x =>
    let old := d.rd SCN_MODE.active_mode g
    let d1 := ((d.setScn g { d.scnG g with latched := none }).wr SCN_COMMIT.latched 0 g).wr SCN_COMMIT.active_hold x.hold g
    let d2 := if x.mode = old then d1 else (d1.modeRegs g x.mode).raise (160 + 16 * g + 10)
    let d3 := d2.wr SCN_PHASE_ACTIVE.phase x.phase g
    let d4 := forEach x.coeff (fun c d => (d.wr RAY_COEFF_SEL.active_en c.2.1 g c.1).wr RAY_COEFF_SEL.active_set c.2.2 g c.1) d3
    let d5 := forEach x.xfer (fun c d => d.wr CMP_PORT_SEL.active_xfer c.2 c.1) d4
    let d6 := (d5.applyOverlay g x).applyMaps x.maps
    let d7 := forEach (x.patches.filter (fun p => ! p.lowers)) (fun p d => d.takePatch g p.num) d6
    d7.raise (160 + 16 * g + 7)

/-- The commit window of the next frame has closed (R224, R225). -/
def Dev.windowClosed (d : Dev) (g : Nat) : Bool :=
  (d.scnG g).begun && ((d.scnG g).tail || d.inExtension g || decide (d.lGuard g ≤ d.curLine g))

/-- A write of SCN_COMMIT[g] (R224, R225, R228, R229): cancel wins over commit. -/
def Dev.commitWrite (d : Dev) (g v : Nat) : Dev :=
  let d1 := d.wrb SCN_COMMIT.pending_hold (bit v 18) g
  if bit v 30 then (if d1.rdb SCN_COMMIT.armed g then (d1.wr SCN_COMMIT.armed 0 g).wr SCN_COMMIT.late 0 g else d1)
  else if bit v 31 then
    let late := d1.windowClosed g
    let d2 := if d1.rdb SCN_COMMIT.armed g then d1
      else (d1.wr SCN_COMMIT.armed 1 g).wr SCN_ARMED_TARGET.frame (d1.rd SCN_FRAME_NUM.frame g + (if late then 2 else 1)) g
    if late then
      ((d2.wr SCN_COMMIT.late 1 g).count SCN_LATE_COMMIT_CNT.sat SCN_LATE_COMMIT_CNT.count 1 g).raise (160 + 16 * g + 8)
    else d2
  else d1

/-! ### Line N_active (R219) -/

/-- A port mask in three registers of wall group g. -/
def Dev.wrMask (d : Dev) (f : Fld) (g mask : Nat) : Dev := forUp 3 (fun m d => d.wr f (mask / 2 ^ (32 * m)) g m) d

/-- START_OF_BLANKING (R115, R219, R340, R344). -/
def Dev.startBlanking (d : Dev) (g : Nat) : Dev :=
  let x := d.scnG g
  let fixed := maskUp 96 (fun n => x.underrun.testBit n && (d.groupPorts g).contains n)
  let d1 := (d.setScn g { x with underrun := 0, underrunSeen := false, underrunFixed := fixed }).wrMask SCN_UNDERRUN_MASK.ports g fixed
  let d2 := (d1.count SCN_UNDERRUN_CNT.sat SCN_UNDERRUN_CNT.count (countUp 96 (fun n => fixed.testBit n)) g).raise (160 + 16 * g)
  if x.scanning then
    let d3 := d2.fscBlanking g
    if x.black then d3 else d3.sourceSpent g
  else if d2.fscRuns then d2.evalWall g
  else d2

/-! ### Line L_deadline (R222, R312 to R322, R255) -/

/-- Segments of a line of port n (R252). -/
def Dev.segHogels (d : Dev) (n : Nat) : Nat := ((d.img.group (d.portGroup n)).map (fun c => c.hSeg)).getD 0
def Dev.segments (d : Dev) (n : Nat) : Nat := if d.segHogels n = 0 then 0 else d.tileCols n / d.segHogels n

/-- R320: port n's checksum test: whether it holds, with its counts and registers. -/
def Dev.checksumTest (d : Dev) (g n : Nat) : Dev × Bool :=
  let dev := (d.lnk n).lineCrc ^^^ 0xFFFFFFFF
  let d1 := d.wr TCT_PORT_CRC_DEV.crc dev n
  match (d.lnk n).csum with
  | none => ((((d1.wr TCT_PORT_CRC_TILE.crc 0 n).count TCT_CSUM_MISS_CNT.sat TCT_CSUM_MISS_CNT.count 1 n).raise 265), false)
  | some (f, c, lines) =>
    let d2 := d1.wr TCT_PORT_CRC_TILE.crc c n
    if f = d.rd SCN_FRAME_NUM.frame g ∧ lines = d.nActive g * d.segments n ∧ c = dev then (d2, true)
    else ((d2.count TCT_CSUM_FAIL_CNT.sat TCT_CSUM_FAIL_CNT.count 1 n).raise 264, false)

/-- R313, R314: a port in the scan: a deadline without TELEMETRY is counted, and a changed band or level is sent. -/
def Dev.deadlineReference (d : Dev) (g n : Nat) : Dev :=
  let x := d.ctl n
  let d1 := if x.telem then d else d.count TCT_TELEM_MISS_CNT.sat TCT_TELEM_MISS_CNT.count 1 n
  let b := d1.bandInForce n
  let v := d1.levelInForce n
  let d2 := d1.setCtl n { x with telem := false, sentBand := b, sentLevel := v }
  if b = x.sentBand ∧ v = x.sentLevel then d2
  else
    let d3 := d2.sendDriveRef n (d2.rd SCN_FRAME_NUM.frame g) b v (d2.refCodes n b v)
    (if b = x.sentBand then d3 else d3.count TCT_BAND_CNT.sat TCT_BAND_CNT.count 1 n).raise 266

/-- R322: freeze takes effect on port n, the bound of R327 beginning afresh, or its clearing does, which stops the port's partial writes
(R329, log entry 118). -/
def Dev.freezeStep (d : Dev) (n : Nat) : Dev :=
  let d1 := d.wrb TCT_PORT_CTRL.frozen (d.rdb TCT_PORT_CTRL.freeze n) n
  match d.rdb TCT_PORT_CTRL.frozen n, d1.rdb TCT_PORT_CTRL.frozen n with
  | false, true => d1.setCtl n { d1.ctl n with pwSums := [0, 0, 0] }
  | true, false => d1.pwStop n 1
  | _, _ => d1

/-- R313, R314, R322: what port n does at line L_deadline whether or not the frame carries rays: a write of freeze takes effect, and a
changed drive reference is sent. -/
def Dev.deadlinePort (d : Dev) (g n : Nat) : Dev :=
  let d0 := d.freezeStep n
  if d0.lit n && d0.linkUp n then d0.deadlineReference g n else d0

/-- R319: the reasons for which port n skips, the wall power test apart; a black frame keeps the link and checksum tests (R87). In a
frame that carries no rays no port takes part, and each is lost (log entry 116). -/
def Dev.swapTests (d : Dev) (g n : Nat) : Dev × Nat :=
  let x := d.scnG g
  let d1 := d.deadlinePort g n
  let took := x.scanning && d1.takesPart n
  let (d2, ok) := if took then d1.checksumTest g n else (d1, true)
  let lost : Bool := ! took || (d2.lnk n).aborted || (! x.black && x.lost.testBit n)
  let base := b2n lost + 2 * b2n (! ok)
  if x.black then (d2, base)
  else
    let under : Bool := d2.rdb SCN_UNDERRUN_CFG.hold g && x.underrunFixed.testBit n
    let power : Bool := took && d2.powerFails n
    let flash : Bool := took && d2.flashFails n (d2.tkl g x.k (d2.lSwap g))
    let fade : Bool := d2.rdb FSC_STATUS.hb_expired || d2.pstate n == 6
    let d3 := if power then (d2.count FSC_POWER_HOLD_CNT.sat FSC_POWER_HOLD_CNT.count 1 n).raise 289 else d2
    let d4 := if flash then (d3.count FSC_FLASH_HOLD_CNT.sat FSC_FLASH_HOLD_CNT.count 1 n).raise 293 else d3
    (d4, base + 4 * b2n under + 8 * b2n (d4.rdb TCT_PORT_CTRL.frozen n) + 16 * b2n power + 32 * b2n flash + 128 * b2n fade)

/-- R255: port n's SWAP command leaves, its second copy to follow. -/
def Dev.sendSwap (d : Dev) (g n : Nat) (swap : Bool) : Dev :=
  let body := wordBytes [d.rd SCN_FRAME_NUM.frame g, 2 * b2n (d.portBit TLK_MAP_ABSENT.ports n) + b2n swap] ++
    timeField (d.tkl g (d.scnG g).k (d.lSwap g))
  let w0 := headWord 2 n 1 (d.linkSeq n 2)
  let d1 := d.sendControl n 1 body
  d1.setLnk n { d1.lnk n with secondSwap := some (d1.ticks, packet w0 body.length 0 0 body),
                              lastSwapped := if swap then some (d1.rd SCN_FRAME_NUM.frame g) else (d1.lnk n).lastSwapped }

/-- SWAP_DECISION at line L_deadline: every port of group g swaps or skips (R319, R343, R572). -/
def Dev.swapDecision (d : Dev) (g : Nat) : Dev :=
  let ports := d.groupPorts g
  let r := ports.foldl (fun (st : Dev × Tab Nat) n =>
    let (d1, why) := st.1.swapTests g n
    (d1, tput st.2 n why)) (d, [])
  let pass := ports.filter (fun n => tget r.2 n 0 == 0)
  let turned := if (d.scnG g).black then [] else r.1.wallTurned (pass.length + 1) pass
  let d1 := forEach turned (fun n d => (d.count FSC_WALL_HOLD_CNT.sat FSC_WALL_HOLD_CNT.count 1 n).raise 291) r.1
  let why (n : Nat) : Nat := tget r.2 n 0 + (if turned.contains n then 64 else 0)
  let swaps (n : Nat) : Bool := why n == 0 && ! d.glb.warned
  let d2 := forEach ports (fun n d =>
    let d' := d.wr TCT_PORT_HOLD.reasons (why n) n
    if d'.linkUp n && (d'.lit n || d'.glb.warned) then d'.sendSwap g n (swaps n) else d') d1
  d2.setScn g { d2.scnG g with decided := true, skip := maskUp 96 (fun n => ports.contains n && ! swaps n) }

/-! ### Line L_swap (R221, R223) -/

/-- FRAME_DONE at the swap instant of a frame whose swap was decided: every frame from the group's first admission on. A skip that freeze
causes ends the count of R349 (log entry 117). -/
def Dev.swapInstant (d : Dev) (g : Nat) : Dev :=
  let x := d.scnG g
  if x.decided = false then d
  else
    let t := d.tkl g x.k (d.lSwap g)
    let f := d.rd SCN_FRAME_NUM.frame g
    let d1 := ((d.wrMask SCN_HOLD_MASK.ports g x.skip).wr SCN_DONE_FRAME.frame f g).count SCN_HOLD_CNT.sat SCN_HOLD_CNT.count
      (countUp 96 (fun n => x.skip.testBit n)) g
    let d2 := forEach (d1.groupPorts g) (fun n d =>
      if x.skip.testBit n then
        (if bit (d.rd TCT_PORT_HOLD.reasons n) 3 then d.setCtl n { d.ctl n with firstSkip := none }
         else if d.lit n ∧ (d.ctl n).firstSkip.isNone then d.setCtl n { d.ctl n with firstSkip := some t } else d)
      else (d.fscSwapped n t).setCtl n { d.ctl n with firstSkip := none, pwSums := [0, 0, 0] }) d1
    let d3 := (d2.emit (.swap g f t.toNat)).raise (160 + 16 * g + 5)
    if x.black then d3.blackSwapped g else if x.scanning ∧ d3.rd KIN_RELIGHT.step = 8 then d3.relightDone else d3

/-! ### Electrical idle (R237 to R239, R270) -/

/-- R237, R239: the lanes of group g's ports enter electrical idle, except at 6.25 Gbaud (R270) and those that have sent SMOULDER
(R272). Where idle is not entered, packets that waited for it leave. -/
def Dev.idleEnter (d : Dev) (g : Nat) : Dev :=
  if d.rdb SCN_IDLE_CFG.enable g && ! d.rdb SCN_IDLE_CFG.idle g && idleRoom (d.lineMode g) then
    forEach (d.groupPorts g) (fun n d =>
      if d.linkUp n && d.rateCode n != 0 && ! (d.glb.smoulderEntry && d.pstate n == 5) then (d.wr TLK_PORT_STATE.idle 1 n).emit (.lanes n 1) else d) (d.wr SCN_IDLE_CFG.idle 1 g)
  else if d.rdb SCN_IDLE_CFG.idle g then d
  else forEach (d.groupPorts g) (fun n d => d.leaveIdle n) d

/-- R238, R273: idle lanes leave idle with the training burst, and the packets that waited leave. -/
def Dev.idleExit (d : Dev) (g : Nat) : Dev :=
  forEach (d.groupPorts g) (fun n d =>
    d.leaveIdle n) (d.wr SCN_IDLE_CFG.idle 0 g)

/-! ### Alignment (R232 to R236, R601) -/

/-- ALIGNMENT_CHECK at line N_total − 9: true when a realign starts. -/
def Dev.alignmentCheck (d : Dev) (g : Nat) : Dev × Bool :=
  let x := d.scnG g
  let m := (x.latched.map (fun s => s.mode)).getD (d.rd SCN_MODE.active_mode g)
  let ph := (x.latched.map (fun s => s.phase)).getD (d.rd SCN_PHASE_ACTIVE.phase g)
  let c := d.modeCfg g m
  let target := gridAt (toS 32 ph) c.fNum c.fDen c.nTotal ((x.k + 1) * c.nTotal)
  let dev := target - (d.tkl g (x.k + 1) 0 + x.lcDiff)
  if m = d.rd SCN_MODE.active_mode g ∧ dev.natAbs ≤ 1000 * 65536 then
    (d.setScn g { x with tail := true, nextK := x.k + 1, nextMode := m, nextPhase := ph, shift := -x.lcDiff }, false)
  else
    let ten := (10 * c.fDen * fuSec + c.fNum * c.nTotal - 1) / (c.fNum * c.nTotal)
    let k := firstGrid c (toS 32 ph) ((d.tbNow (d.groupTb g) : Int) + ten)
    let d1 := d.setScn g { x with tail := true, ext := true, nextK := k, nextMode := m, nextPhase := ph, shift := -x.lcDiff }
    (((((d1.wr SCN_LINE.extension 1 g).wrBit SCN_STATUS.extension g true).count SCN_REALIGN_CNT.sat SCN_REALIGN_CNT.count 1 g)).raise
      (160 + 16 * g + 9), true)

/-! ### The admission point (R19 to R21, R87, R113, R216, R231) -/

/-- R231: the pending slots of group g whose frames are due by `limit` are released as if passed over. -/
def Dev.releaseDue (d : Dev) (g : Nat) (limit : Int) : Dev :=
  let x := d.ingG g
  d.setIng g { x with pending := x.pending.filter (fun p => match p.2.hdr with
    | none => true
    | some h => decide (limit < ((h.pt * 65536 : Nat) : Int))) }

/-- The coming scan frame carries rays. -/
def Dev.setScanNext (d : Dev) (g : Nat) (black : Bool) : Dev := d.setScn g { d.scnG g with scanNext := true, blackNext := black }

/-- No frame qualifies: the frame in force is sent again (R21), and before the first admission nothing is. -/
def Dev.noneAdmitted (d : Dev) (g : Nat) : Dev :=
  if d.started g && (d.ingG g).scan.isSome then (d.repeatFrame g true).setScanNext g false else d

/-- Which frame the coming scan frame sends: once smoulder entry has stopped admission, the frame in force, as at every admission point with no
qualifying slot (R21, R568). -/
def admitFrame (s : State) (g : Nat) : State :=
  let d := s.dev
  let limit := d.nextLine0 g + (d.scnG g).lcDiff
  if d.kin.noAdmit then onDev s (fun d => if d.blackDue g then (d.setScanNext g true).relightBlank else d)
  else if d.ingRuns = false ∨ d.glb.smoulderEntry = true then onDev s (fun d => d.noneAdmitted g)
  else if d.rdb SCN_COMMIT.active_hold g then onDev s (fun d => (d.releaseDue g limit).noneAdmitted g)
  else match (d.ingG g).candidate limit with
    | some (slot, sl, h) => onDev (admitSlot s g (d.planesOf g) slot sl h) (fun d =>
        ((d.referenceFormat g).wr SCN_CFG.started 1 g).setScanNext g false)
    | none => onDev s (fun d => d.noneAdmitted g)

/-- R268, R307: ports that wait for the admission point join the scan. -/
def Dev.joinScan (d : Dev) (g : Nat) : Dev :=
  forEach (d.groupPorts g) (fun n d =>
    if (d.lnk n).rejoin && d.linkUp n && d.lit n then d.setLnk n { d.lnk n with rejoin := false, inFrame := true } else d) d

/-- ADMISSION_POINT at line N_total − 8, with the application point (R227). -/
def admissionPoint (s : State) (g : Nat) : State :=
  let s1 := placeMaps (onDev s (fun d => (d.applyCommit g).groupTables g))
  let s2 := admitFrame s1 g
  onDev s2 (fun d => ((d.restartBands g).admissionTakeovers g).joinScan g)

/-! ### Line packets (R251 to R254) -/

/-- R253: ray values of 30 bits, packed most significant bit first; four rays take 15 bytes. -/
def packRays : List Nat → List Byte
  | a :: b :: c :: e :: t => beBytes 15 (((a * 2 ^ 30 + b) * 2 ^ 30 + c) * 2 ^ 30 + e) ++ packRays t
  | _ => []

/-- The FCS register after these bytes. -/
def crcBytes (c : Nat) (b : List Byte) : Nat := b.foldl (fun c x => crc32Byte c x.toNat) c

/-- Segment i of line l leaves port n. -/
def Dev.sendSegment (d : Dev) (g n l i : Nat) (rays : List Nat) : Dev :=
  let h := d.segHogels n
  let body := packRays ((rays.drop (12 * h * i)).take (12 * h))
  let nr := d.tileRows n
  let p := packet (headWord 1 n i (d.segments n)) (d.rd SCN_FRAME_NUM.frame g)
    (l / nr * 2 ^ 28 + l % nr * 2 ^ 16 + l) (i * h * 65536 + h) body
  (d.setLnk n { d.lnk n with lineCrc := crcBytes (d.lnk n).lineCrc body, lastLine := d.ticks }).sendLink n p

/-- LINE_PACKET_SEND: line l of every port of group g that takes part; a black frame's rays are all 0 (R87). -/
def Dev.sendLine (d : Dev) (g l : Nat) : Dev :=
  let black := (d.scnG g).black
  forEach (d.groupPorts g) (fun n d =>
    let key := n * 8192 + l
    let rays := if black then some (List.replicate (d.lineRays n) 0) else tfind d.cmp.lines key
    let d1 : Dev := { d with cmp := { d.cmp with lines := tdel d.cmp.lines key } }
    match rays with
    | some rs => if d1.takesPart n && d1.tlkRuns n && ! (d1.lnk n).aborted && ! d1.glb.warned then
        forUp (d1.segments n) (fun i d => d.sendSegment g n l i rs) d1 else d1
    | none => d1) d

/-! ### The pipeline of a line period (R148, R149, R170, R254) -/

/-- The black frame's settings and sums: every ray is 0 (R87, R340). -/
def Dev.blackLine0 (d : Dev) (g : Nat) : Dev :=
  forEach (d.groupPorts g) (fun n d => d.setFire n { d.fire n with composed := true }) (d.fscLine0 g)

/-- Compute and the fetches for composition of line l of group g. -/
def computeStage (s : State) (g l : Nat) : State :=
  prefetchLine (if s.dev.rayRuns then onDev s (fun d => d.computeLine g l) else s) g l

/-- Line period l: line l leaves, line l + 1 is composed and line l + 2 computed; lines 0 and 1 of the next frame in the last two. -/
def pipeline (s : State) (g l : Nat) : State :=
  let x := s.dev.scnG g
  let n := s.dev.lineTotal g
  let a := s.dev.nActive g
  let f := s.dev.rd SCN_FRAME_NUM.frame g
  let s1 := if l < a ∧ x.scanning then onDev s (fun d => d.sendLine g l) else s
  let s2 :=
    if l + 1 < a then (if x.scanning && ! x.black then onDev s1 (fun d => d.composeLine g (l + 1) f) else s1)
    else if l + 1 = n then
      placeMaps <| onDev s1 (fun d0 =>
        let d := d0.lowerAtLine0 g
        if x.scanNext = false then d else if x.blackNext then d.blackLine0 g else d.composeLine g 0 ((f + 1) % 2 ^ 32))
    else s1
  if l + 2 < a then (if x.scanning && ! x.black then computeStage s2 g (l + 2) else s2)
  else if n ≤ l + 2 ∧ l + 2 - n < a ∧ x.scanNext ∧ x.blackNext = false then computeStage s2 g (l + 2 - n)
  else s2

/-- R274: time exchanges that start at line l; the step flag is that of an exchange that line 0 began (R278). -/
def Dev.lineExchanges (d : Dev) (g l : Nat) : Dev :=
  if (d.scnG g).tail || decide (d.lSwap g ≤ l + 8) then d
  else forEach (d.groupPorts g) (fun n d =>
    if d.linkUp n && (l == 0 || (d.rd TLK_TIME_CFG.interval n != 0 && l % d.rd TLK_TIME_CFG.interval n == 0)) then d.startExchange n (l == 0 && (d.lnk n).stepFlag)
    else d) d

/-- R217: enabled line-match comparators on line l. -/
def Dev.lineMatches (d : Dev) (g l : Nat) : Dev :=
  forUp 4 (fun m d =>
    if d.rdb SCN_LINE_MATCH.enable g m && d.rd SCN_LINE_MATCH.line g m == l then d.raise (160 + 16 * g + 1 + m) else d) d

/-! ### A line starts (R212) -/

/-- The line counter and its blanking flag; the line may end a kiln boundary (R552, R553). -/
def Dev.lineRegs (d : Dev) (g l : Nat) : Dev :=
  ((d.wr SCN_LINE.line l g).wrb SCN_LINE.blanking (decide (d.nActive g ≤ l)) g).kilnSweep

/-- The marks of a scan frame before its alignment check. -/
def Dev.frameMarks (d : Dev) (g l : Nat) : Dev :=
  let d1 := if l = d.lGuard g then d.latchCommit g else d
  let d2 := if l = d1.nActive g then d1.startBlanking g else d1
  let d3 := if l = d2.lDeadline g then
      (if d2.started g then d2.swapDecision g else forEach (d2.groupPorts g) (fun n d => d.deadlinePort g n) d2)
    else d2
  if l = d3.lSwap g then d3.swapInstant g else d3

/-- Line L_swap + 1 of group g: SMOULDER leaves (R568), and then the lanes enter idle (R237). -/
def Dev.afterSwap (d : Dev) (g l : Nat) : Dev := if l = (d.lineMode g).swap + 1 then (d.smoulderLine g).idleEnter g else d

/-- Every mark of line l, its pipeline, exchanges and line matches. A realign puts off the start of line N_total − 9, and what that line
starts with, to the end of its extension (R217, R233). -/
def lineMarks (s : State) (g l : Nat) : State :=
  let dm := if (s.dev.scnG g).tail then s.dev else s.dev.frameMarks g l
  let (d1, realign) := if l + 9 = dm.lineTotal g ∧ (dm.scnG g).tail = false then dm.alignmentCheck g else (dm, false)
  if realign then { s with dev := d1 }
  else
    let d2 := d1.afterSwap g l
    let s2 : State := { s with dev := d2 }
    let s3 := if l + 8 = d2.lineTotal g then admissionPoint s2 g else s2
    let s4 := if l + 1 = s3.dev.lineTotal g then onDev s3 (fun d => d.idleExit g) else s3
    onDev (pipeline (onDev s4 (fun d => d.lineExchanges g l)) g l) (fun d => d.lineMatches g l)

/-- The generator of group g runs: its time base has power and SCN is not held in reset. -/
def Dev.scanRuns (d : Dev) (g : Nat) : Bool := (d.scnG g).running && d.rdb GLB_PWR_STATUS.core && ! d.blockHeld 5

/-- R255: the second copies of group g's SWAP commands that have not left do so before line L_deadline + 2 begins. -/
def secondCopies (s : State) (g l : Nat) : State :=
  if l = s.dev.lDeadline g + 2 ∧ (s.dev.scnG g).tail = false then onDev s (fun d => forEach (d.groupPorts g) (fun n d => d.secondCopy n) d)
  else s

/-- The next line of group g starts when its line clock reaches it. -/
def lineBegins (s : State) (g : Nat) : State :=
  let x := s.dev.scnG g
  if s.dev.scanRuns g = false ∨ x.ext then s
  else if x.begun = false ∨ s.dev.curLine g + 1 = s.dev.lineTotal g then
    smoulderFinish (lineMarks (placeMaps (onDev s (fun d => ((d.waitLine g (d.nextLine0 g)).enterFrame g).lineRegs g 0))) g 0)
  else
    let l := s.dev.curLine g + 1
    smoulderFinish (lineMarks (onDev (secondCopies s g l) (fun d => (d.waitLine g (d.lineStart g l)).lineRegs g l)) g l)

/-- LINE_START: a line starts, and a training window may with it (R377). -/
def lineStart (s : State) (g : Nat) : State := onDev (lineBegins s g) Dev.noteWindow

/-- EXTENSION_END: line N_total − 9 of the coming mode begins (R233, R234, R217), which idle may start with (R237). -/
def Dev.endExtension (d : Dev) (g : Nat) : Dev :=
  let x := d.scnG g
  if d.scanRuns g = false ∨ x.ext = false then d
  else
    let l := d.lineTotal g - 9
    let d1 := (d.waitLine g (d.lineStart g l)).setScn g { x with ext := false }
    ((((d1.wr SCN_LINE.extension 0 g).wrBit SCN_STATUS.extension g false).wr SCN_LINE.line l g).kilnSweep.afterSwap g l).lineMatches g l

/-! ### The commands -/

/-- LINE_START (R212). -/
def execLineStart (g : Nat) (s : State) : Res := .next (lineStart s g)

/-- EXTENSION_END (R233). -/
def execExtensionEnd (g : Nat) (s : State) : Res := .next (smoulderFinish (onDev s (fun d => d.endExtension g)))

end Sys2Proof.Machine
end

