-- ==== Sys2Proof/Machine/Security.lean ====
section
/-!
DEFINITION. The security block (13_security.md R504 to R528): the OTP array and what its words mean, nonces, authorisation tokens, the
secure mailbox, and the OTP commands.
-/
namespace Sys2Proof.Machine

/-! ### The OTP array (R520 to R523) -/

/-- Word w of the array, and a fuse bit of it. -/
def otpWord (o : Tab Nat) (w : Nat) : Nat := tget o w 0
def otpBit (o : Tab Nat) (w b : Nat) : Bool := (otpWord o w).testBit b

/-- A fuse bit is programmed: it goes to 1 and never back. -/
def otpProgram (o : Tab Nat) (w b : Nat) : Tab Nat := tput o w (otpWord o w ||| 2 ^ b)

/-- Fuse bits are programmed one at a time. -/
def otpProgramAll (o : Tab Nat) (l : List (Nat × Nat)) : Tab Nat := l.foldl (fun o x => otpProgram o x.1 x.2) o

/-- R521: a one-bit setting reads 1 when either of its bits does. -/
def setting (o : Tab Nat) (w lo : Nat) : Bool := otpBit o w lo || otpBit o w (lo + 1)

/-- R504: the lifecycle state. -/
def otpLifecycle (o : Tab Nat) : Nat := if setting o 0 4 then 3 else if setting o 0 2 then 2 else if setting o 0 0 then 1 else 0

/-- The key slot's first word and its control word. -/
def keyWord (k : Nat) : Nat := 32 + 13 * k
def keyCtl (k : Nat) : Nat := 44 + 13 * k

/-- R522: a record begun at (cw, begin) is committed at (cw, commit) and has not failed its read-back. -/
def committed (o : Tab Nat) (bad : List Nat) (first cw commit : Nat) : Bool := otpBit o cw commit && ! bad.contains first

/-- R522: a record is begun: its begin bit at (cw, begin) reads 1, or it has failed its read-back, its begin bit included, and is used up. -/
def begun (o : Tab Nat) (bad : List Nat) (first cw begin_ : Nat) : Bool := otpBit o cw begin_ || bad.contains first

/-- R509, R520: a key slot's state: 0 empty, 1 valid, 2 revoked, 3 consumed. -/
def keyState (o : Tab Nat) (bad : List Nat) (k : Nat) : Nat :=
  if committed o bad (keyWord k) (keyCtl k) 30 then (if setting o (keyCtl k) 0 then 2 else 1)
  else if begun o bad (keyWord k) (keyCtl k) 31 then 3 else 0

/-- Key slot k's public key: the x-coordinate and the parity of y. -/
def keyX (o : Tab Nat) (k : Nat) : Nat := forUp 12 (fun i a => a + otpWord o (keyWord k + i) * 2 ^ (32 * i)) 0
def keyParity (o : Tab Nat) (k : Nat) : Bool := otpBit o (keyCtl k) 8

/-- R512: the image key is committed; it; and the kill setting. -/
def imageKeyPresent (o : Tab Nat) (bad : List Nat) : Bool := committed o bad 1 1 30
def imageKey (o : Tab Nat) : Nat := forUp 8 (fun i a => a + otpWord o (4 + i) * 2 ^ (32 * i)) 0
def imageKeyKilled (o : Tab Nat) : Bool := setting o 1 2

/-- R513: the anti-rollback counter. -/
def rollbackCount (o : Tab Nat) : Nat := countUp 64 (fun i => setting o (12 + i / 16) (2 * (i % 16)))

/-- R520: port n is disabled. -/
def otpPortOff (o : Tab Nat) (n : Nat) : Bool := setting o (16 + n / 16) (2 * (n % 16))

/-- The device identity. -/
def deviceId (o : Tab Nat) : Nat := otpWord o 2 + otpWord o 3 * 2 ^ 32

/-- Class record c's first word, and whether it is committed. -/
def classWord (c : Nat) : Nat := 136 + 20 * c
def classCommitted (o : Tab Nat) (bad : List Nat) (c : Nat) : Bool := committed o bad (classWord c) (classWord c + 4) 1

/-- The wall record is committed. -/
def wallCommitted (o : Tab Nat) (bad : List Nat) : Bool := committed o bad 216 216 30

/-- The first raise slot's word of target t: a class, or 4 for the wall. -/
def raiseWord (t : Nat) : Nat := if t = 4 then 217 else 141 + 20 * t

/-- Raise slots of a target that nothing has begun. -/
def raiseFree (o : Tab Nat) (bad : List Nat) (t : Nat) : List Nat :=
  (List.range 15).filter (fun i => ! begun o bad (raiseWord t + i) (raiseWord t + i) 31)

/-- The value that the class or wall record gives a kind (R520's layouts). -/
def recordValue (o : Tab Nat) (kind t : Nat) : Nat :=
  let w (i : Nat) : Nat := otpWord o (classWord t + i)
  match kind with
  | 1 => bits (w 0) 15 0
  | 2 => bits (w 1) 31 20
  | 3 => bits (w 1) 19 8
  | 4 => bits (w 2) 31 20
  | 5 => bits (w 3) 31 16
  | 6 => bits (w 3) 15 0
  | 7 => bits (w 4) 31 16
  | 8 => bits (w 2) 19 8
  | 9 => bits (w 4) 15 4
  | 10 => bits (w 2) 7 0
  | _ => bits (otpWord o 216) 15 0

/-- R523: the effective OTP value of a kind: the highest-numbered committed raise slot's, or the record's; 0 without one (log entry 26). -/
def otpEffective (o : Tab Nat) (bad : List Nat) (kind t : Nat) : Nat :=
  (List.range 15).foldl (fun v i =>
    let w := raiseWord t + i
    if committed o bad w w 30 && bits (otpWord o w) 27 24 == kind then otpWord o w % 2 ^ 16 else v)
    (if (if kind = 11 then wallCommitted o bad else classCommitted o bad t) then recordValue o kind t else 0)

/-- The class record with this tile_class, if one is committed (R523). -/
def classRecordOf (o : Tab Nat) (bad : List Nat) (cls : Nat) : Option Nat :=
  (List.range 4).find? (fun c => classCommitted o bad c && bits (otpWord o (classWord c)) 31 16 == cls)

/-- R526: a kind's hardware limit. -/
def hardLimit (kind : Nat) : Nat :=
  if kind = 10 then 255 else if 2 ≤ kind ∧ kind ≤ 4 ∨ kind = 8 ∨ kind = 9 then 4088 else 65535

/-- R512: what a read of an OTP word shows. -/
def otpReadout (o : Tab Nat) (w : Nat) : Nat := if 4 ≤ w ∧ w ≤ 11 then 0 else otpWord o w

/-- The registers that the OTP array gives their values. -/
def Dev.otpRegs (d : Dev) (o : Tab Nat) : Dev :=
  let bad := d.peat.consumed
  let d1 := ((d.wr SEC_STATUS.lifecycle (otpLifecycle o)).wrb SEC_STATUS.key_killed (imageKeyKilled o)).wrb SEC_STATUS.key_present
    (imageKeyPresent o bad)
  let d2 := ((d1.wr SEC_DEVICE_ID_LO.id (otpWord o 2)).wr SEC_DEVICE_ID_HI.id (otpWord o 3)).wr SEC_ROLLBACK.count (rollbackCount o)
  let d3 := d2.wr SEC_KEY_STATUS.slots (forUp 8 (fun k a => a + keyState o bad k * 4 ^ k) 0)
  let d4 := forUp 3 (fun m d => d.wr SEC_PORT_DIS.ports (maskUp 32 (fun b => otpPortOff o (32 * m + b))) m) d3
  let d5 := (((d4.wr SEC_RAISE_LEFT.class0 (raiseFree o bad 0).length).wr SEC_RAISE_LEFT.class1 (raiseFree o bad 1).length).wr
    SEC_RAISE_LEFT.class2 (raiseFree o bad 2).length).wr SEC_RAISE_LEFT.class3 (raiseFree o bad 3).length
  (d5.wr SEC_RAISE_LEFT.wall (raiseFree o bad 4).length).wr SEC_OTP_RD_DATA.data (otpReadout o (d.rd SEC_OTP_RD_ADDR.word))

/-- The registers follow the array. -/
def refreshOtp (s : State) : State := onDev s (fun d => d.otpRegs s.otp)

/-- A write of SEC_OTP_RD_ADDR shows its word in SEC_OTP_RD_DATA. -/
def otpReadWrite (v : Nat) (s : State) : State := refreshOtp (onDev s (fun d => d.wr SEC_OTP_RD_ADDR.word (v % 256)))

/-! ### Nonces (R515) -/

/-- A nonce is drawn: it replaces the one before, and the checked token is held no longer (R516). -/
def Dev.drawNonce (d : Dev) : Dev :=
  let v := Config.randomNonce d.free % 2 ^ 128
  let d1 := forUp 4 (fun i d => (d.wr SEC_NONCE.nonce (v / 2 ^ (32 * i)) i).wr SEC_MBX_NONCE.nonce (v / 2 ^ (32 * i)) i) d
  { d1.nextFree with sec := { d1.sec with nonceValid := true, nonceDrawn := d.ticks, checked := none } }

/-- The current nonce. -/
def Dev.nonce (d : Dev) : Nat := forUp 4 (fun i a => a + d.rd SEC_NONCE.nonce i * 2 ^ (32 * i)) 0

/-- A write of SEC_NONCE_CTRL. -/
def Dev.nonceWrite (d : Dev) (v : Nat) : Dev := if bit v 31 then d.drawNonce else d

/-! ### Tokens (R514, R516) -/

/-- Purposes. -/
def purposeMailbox : Nat := 1
def purposeRaise : Nat := 2
def purposeDebug : Nat := 4

/-- The token's words as bytes. -/
def tokenBytes (w : List Nat) : List Byte := (List.range 40).flatMap (fun i => leBytes 4 (lget w i 0))

/-- R514: magic and reserved fields; what the args of each purpose may hold. -/
def tokenFormat (w : List Nat) : Bool :=
  let h := lget w 1 0
  let p := h / 2 ^ 16
  let arg (i : Nat) : Nat := lget w (8 + i) 0
  let rest (k : Nat) : Bool := (List.range 8).all (fun i => decide (i < k) || arg i == 0)
  lget w 0 0 == 0x41544B4E && bits h 15 3 == 0 && decide (1 ≤ p) && decide (p ≤ 4) &&
  (if p = purposeRaise then bits (arg 0) 15 12 == 0 && bits (arg 0) 7 3 == 0 && rest 1
   else if p = purposeClear then bits (arg 0) 31 17 == 0 && rest 2
   else rest 0)

/-- R515, R516: a token names the current, unexpired nonce. -/
def Dev.nonceNamed (d : Dev) (w : List Nat) : Bool :=
  d.nonceLive && forUp 4 (fun i a => a + lget w (4 + i) 0 * 2 ^ (32 * i)) 0 == d.nonce

/-- R516: the code a token's check ends with; its nonce has been judged when the check started. -/
def tokenCode (s : State) (w : List Nat) : Nat :=
  let k := lget w 1 0 % 8
  if tokenFormat w = false then 0x01
  else if keyState s.otp s.dev.peat.consumed k ≠ 1 then 0x02
  else if lget w 2 0 + lget w 3 0 * 2 ^ 32 ≠ deviceId s.otp then 0x03
  else if s.dev.sec.nonceOk = false then 0x04
  else if Config.ecdsaOk (keyX s.otp k) (b2n (keyParity s.otp k)) (slice (tokenBytes w) 0 64) (slice (tokenBytes w) 64 96) then 0
  else 0x05

/-- A check starts on the token in the registers whose words `f` holds, and consumes the nonce, whether it passes or fails (R515). -/
def Dev.startCheck (d : Dev) (mbx : Bool) (f : Fld) : Dev :=
  if d.sec.checking then d
  else
    let w := (List.range 40).map (fun i => d.rd f i)
    { d with sec := { d.sec with checking := true, mbxCheck := mbx, token := w, nonceOk := d.nonceNamed w, nonceValid := false } }

/-- A write of SEC_TOKEN_CTRL. -/
def Dev.tokenWrite (d : Dev) (v : Nat) : Dev := if bit v 31 then d.startCheck false SEC_TOKEN.token else d

/-- A token that has passed: it is held; a MAILBOX_SESSION token checked by the mailbox opens the session (R518), and DEBUG_UNLOCK
opens JTAG in SHOW (R505), which uses it up; in another state it is held as every token is. -/
def Dev.tokenPassed (d : Dev) (mbx : Bool) (w : List Nat) : Dev :=
  let p := lget w 1 0 / 2 ^ 16
  if mbx = true ∧ p = purposeMailbox then (d.wr SEC_STATUS.mbx_open 1).raise 516
  else if p = purposeDebug ∧ d.lifecycle = 2 then { d with sec := { d.sec with debugOpen := true } }
  else { d with sec := { d.sec with checked := some ⟨p, (List.range 8).map (fun i => lget w (8 + i) 0), lget w 1 0 % 8⟩ } }

/-- R516: the check ends. The mailbox's shows its code in SEC_MBX_STATUS, and every failure in SEC_TOKEN_STATUS. -/
def endCheck (s : State) : State :=
  if s.dev.sec.checking then
    let w := s.dev.sec.token
    let mbx := s.dev.sec.mbxCheck
    let code := tokenCode s w
    onDev s (fun d =>
      let d1 : Dev := { d with sec := { d.sec with checking := false, mbxCheck := false, token := [], nonceOk := false } }
      let d2 := if mbx then d1.wr SEC_MBX_STATUS.code code else d1
      let d3 := if mbx = false ∨ code ≠ 0 then d2.wr SEC_TOKEN_STATUS.code code else d2
      if code = 0 then d3.tokenPassed mbx w else d3.raise 515)
  else s

/-! ### The mailbox (R517 to R519) -/

/-- The session closes; in BLANK it stays open. -/
def Dev.mbxClose (d : Dev) : Dev := d.wr SEC_STATUS.mbx_open 0

/-- A write of SEC_MBX_CTRL: a new nonce; close wins over check. -/
def Dev.mbxWrite (d : Dev) (v : Nat) : Dev :=
  let d1 := if bit v 29 then d.drawNonce else d
  if bit v 30 then d1.mbxClose else if bit v 31 then d1.startCheck true SEC_MBX_TOKEN.token else d1

/-- A write of SEC_MBX_HBM_BASE is dropped above 3,071 or without a session. -/
def Dev.mbxBaseWrite (d : Dev) (v : Nat) : Dev :=
  if d.mbxOpen ∧ v % 4096 ≤ 3071 then d.wr SEC_MBX_HBM_BASE.base (v % 4096) else d

/-! ### OTP commands (R524 to R528) -/

/-- The value bits of `v` (width bits from bit `lo` of word w) as fuse bits. -/
def fuses (w v : Nat) : List (Nat × Nat) := ((List.range 32).filter (fun b => v.testBit b)).map (fun b => (w, b))

/-- A record in two phases (R522): its begin bit, its value bits word by word, its commit bit; `words` pairs a word with its value
bits and the mask of its record fields. -/
def recordRun (cmd first cw beginBit commit : Nat) (words : List (Nat × Nat × Nat)) (start : Nat) : OtpRun :=
  { cmd := cmd, firstWord := first, start := start, settings := [],
    todo := [(cw, beginBit)] ++ words.flatMap (fun x => fuses x.1 x.2.2) ++ [(cw, commit)],
    expect := words.map (fun x => (x.1, x.2.1, x.2.2)) ++ [(cw, 2 ^ beginBit + 2 ^ commit, 2 ^ beginBit + 2 ^ commit)] }

/-- One-bit settings to program, as (word, low bit): both bits of each (R521). -/
def settingRun (cmd first : Nat) (l : List (Nat × Nat)) (start : Nat) : OtpRun :=
  { cmd := cmd, firstWord := first, start := start, settings := l, expect := [], todo := l.flatMap (fun x => [x, (x.1, x.2 + 1)]) }

/-- SEC_OTP_CMD's fields. -/
def otpOp (v : Nat) : Nat := bits v 31 28
def otpKind (v : Nat) : Nat := bits v 27 24
def otpTarget (v : Nat) : Nat := bits v 23 16
def otpValue (v : Nat) : Nat := v % 2 ^ 16

/-- R505's table: the OTP commands that a lifecycle state accepts. -/
def otpAllowed (life op : Nat) : Bool :=
  match life with
  | 0 => op == 1 || op == 3 || op == 4 || op == 5 || op == 7 || op == 9
  | 1 => true
  | 2 => op == 2 || op == 6 || op == 7 || op == 8 || op == 9
  | _ => false

/-- The staged data words. -/
def Dev.otpData (d : Dev) (i : Nat) : Nat := d.rd SEC_OTP_DATA.data i

/-- The record fields of a class record's word i. -/
def classMask (i : Nat) : Nat := match i with | 1 => 0xFFFFFF00 | 4 => 0xFFFFFFF0 | _ => 0xFFFFFFFF

/-- The class record in the staged data keeps every limit within its hardware limit. -/
def Dev.classInRange (d : Dev) : Bool :=
  decide (bits (d.otpData 1) 31 20 ≤ 4088) && decide (bits (d.otpData 1) 19 8 ≤ 4088) && decide (bits (d.otpData 2) 31 20 ≤ 4088) &&
  decide (bits (d.otpData 2) 19 8 ≤ 4088) && decide (bits (d.otpData 4) 15 4 ≤ 4088)

/-- R507: the lifecycle may advance to this state. -/
def advanceOk (o : Tab Nat) (bad : List Nat) (target : Nat) : Bool :=
  let now := otpLifecycle o
  decide (target ≤ 3) && decide (now < target) && (target == now + 1 || target == 3) &&
  (now != 0 || ((List.range 8).any (fun k => keyState o bad k == 1) && wallCommitted o bad &&
    (List.range 4).any (classCommitted o bad)))

/-- Status 0x03: a value breaks its range, a record is already begun, or R507. -/
def otpRangeOk (s : State) (v : Nat) : Bool :=
  let o := s.otp
  let bad := s.dev.peat.consumed
  let t := otpTarget v
  match otpOp v with
  | 1 => decide (t < 8) && ! begun o bad (keyWord t) (keyCtl t) 31
  | 2 => decide (t < 8)
  | 3 => ! begun o bad 1 1 31
  | 4 => decide (t < 4) && ! begun o bad (classWord t) (classWord t + 4) 0 && s.dev.classInRange
  | 5 => ! begun o bad 216 216 31
  | 6 =>
    let k := otpKind v
    (if t = 4 then k == 11 else decide (t < 4) && decide (1 ≤ k) && decide (k ≤ 10)) &&
    decide (otpEffective o bad k t < otpValue v) && decide (otpValue v ≤ hardLimit k)
  | 7 => decide (t < 96)
  | 8 => decide (t ≤ 64)
  | 9 => advanceOk o bad t
  | _ => false

/-- R526: the checked token is an OTP_RAISE for this target, kind and value. -/
def Dev.raiseToken (d : Dev) (v : Nat) : Bool :=
  match d.sec.checked with
  | none => false
  | some t =>
    let a := lget t.args 0 0
    t.purpose == purposeRaise && a / 2 ^ 16 == otpValue v && bits a 11 8 == otpKind v && a % 8 == otpTarget v

/-- R511: key slot k may not be revoked: it is the last valid one, or names the running image or one in a GOOD slot. -/
def keyGuarded (s : State) (k : Nat) : Bool :=
  let st (i : Nat) : Nat := keyState s.otp s.dev.peat.consumed i
  (st k == 1 && ! (List.range 8).any (fun i => i != k && st i == 1)) || (s.dev.loaded && s.dev.img.keySlot == k) ||
  (List.range 2).any (fun sl => s.dev.slotState sl == slotGood && leAt (tget s.flash sl []) 0x18 1 % 8 == k)

/-- R513: the counter may advance to v. -/
def Dev.rollbackOk (d : Dev) (v : Nat) : Bool :=
  d.loaded && decide (v ≤ d.img.rollback) && d.slotState (d.rd KIN_STATUS.slot) == slotGood

/-- R524: why a command is refused, or 0. -/
def otpRefusal (s : State) (v : Nat) : Nat :=
  if s.dev.sec.otp.isSome then 0x01
  else if otpAllowed (otpLifecycle s.otp) (otpOp v) = false then 0x02
  else if otpRangeOk s v = false then 0x03
  else if otpOp v = 6 ∧ s.dev.raiseToken v = false then 0x04
  else if otpOp v = 6 ∧ raiseFree s.otp s.dev.peat.consumed (otpTarget v) = [] then 0x05
  else if (otpOp v = 2 ∧ keyGuarded s (otpTarget v)) ∨ (otpOp v = 8 ∧ s.dev.rollbackOk (otpTarget v) = false) then 0x06
  else if s.dev.rdb EVR_STATUS.full then 0x07
  else if s.dev.glb.failPin then 0x08
  else 0

/-- What an accepted command programs. -/
def otpRun (s : State) (v : Nat) : OtpRun :=
  let t := otpTarget v
  let now := s.dev.ticks
  let dat := s.dev.otpData
  match otpOp v with
  | 1 => recordRun v (keyWord t) (keyCtl t) 31 30
      ((List.range 12).map (fun i => (keyWord t + i, 0xFFFFFFFF, dat i)) ++ [(keyCtl t, 2 ^ 8, dat 12 &&& 2 ^ 8)]) now
  | 2 => settingRun v (keyCtl t) [(keyCtl t, 0)] now
  | 3 => recordRun v 1 1 31 30 ((List.range 8).map (fun i => (4 + i, 0xFFFFFFFF, dat i))) now
  | 4 => recordRun v (classWord t) (classWord t + 4) 0 1
      ((List.range 5).map (fun i => (classWord t + i, classMask i, dat i &&& classMask i))) now
  | 5 => recordRun v 216 216 31 30 [(216, 0xFFFF, dat 0 % 2 ^ 16)] now
  | 6 =>
    let w := raiseWord t + (raiseFree s.otp s.dev.peat.consumed t).headD 0
    recordRun v w w 31 30 [(w, 0x0F00FFFF, otpKind v * 2 ^ 24 + otpValue v)] now
  | 7 => settingRun v (16 + t / 16) [(16 + t / 16, 2 * (t % 16))] now
  | 8 =>
    let left := ((List.range 64).filter (fun i => ! setting s.otp (12 + i / 16) (2 * (i % 16)))).take (t - rollbackCount s.otp)
    settingRun v (12 + left.headD 0 / 16) (left.map (fun i => (12 + i / 16, 2 * (i % 16)))) now
  | _ => settingRun v 0 ([(0, 2 * (t - 1))] ++ (if t = 3 then [(1, 2)] else [])) now

/-- The distinct OTP words of a run. -/
def OtpRun.words (r : OtpRun) : List Nat := (r.todo.map (fun x => x.1)).eraseDups

/-- R525: the OTP_BEGIN record, which is in the peat store before the first fuse bit. -/
def Dev.otpBegin (d : Dev) (r : OtpRun) (token : Option Token) : Dev :=
  let w1 := r.firstWord % 256 + r.words.length * 256 + ((token.map (fun t => t.keySlot)).getD 0) * 2 ^ 16 + b2n token.isSome * 2 ^ 19
  (d.flushQueue.deviceRec 552 0 ([r.cmd, w1] ++ (List.range 16).map d.otpData)).flushQueue

/-- R524 to R526: a write of SEC_OTP_CMD. RAISE uses the checked token up, whatever the outcome. -/
def otpCommand (v : Nat) (s : State) : State :=
  let v := v % 2 ^ 32
  let why := otpRefusal s v
  let token := if otpOp v = 6 then s.dev.sec.checked else none
  let s1 := if otpOp v = 6 then onDev s (fun d => { d with sec := { d.sec with checked := none } }) else s
  if why ≠ 0 then onDev s1 (fun d => d.wr SEC_OTP_STATUS.status why)
  else
    let r := otpRun s v
    onDev s1 (fun d => let d1 := d.otpBegin r token; { d1 with sec := { d1.sec with otp := some r } })

/-- R522: a run's read-back matches. -/
def OtpRun.matches (r : OtpRun) (o : Tab Nat) : Bool :=
  r.expect.all (fun x => otpWord o x.1 &&& x.2.1 == x.2.2) && r.settings.all (fun x => setting o x.1 x.2)

/-- R528: what a command's commit brings into force besides the registers. The session that BLANK keeps open without a token ends with
BLANK; one that a token opened goes on (R518). -/
def Dev.otpEffect (d : Dev) (cmd : Nat) : Dev := if otpOp cmd = 7 then d.disablePort (otpTarget cmd) else d

/-- R525: OTP_DONE or OTP_FAIL, record and event. -/
def Dev.otpEnd (d : Dev) (r : OtpRun) (outcome readBack : Nat) : Dev :=
  let code := if outcome = 0 then 513 else 514
  ((d.wr SEC_OTP_STATUS.status outcome).deviceRec code outcome [r.cmd, r.firstWord, readBack]).flushQueue.raise code

/-- The command under way ends: its fuse bits are programmed one by one, but for those at the positions in `failed`, and the
whole is read back (R522, R525). -/
def otpComplete (failed : List Nat) (s : State) : State :=
  match s.dev.sec.otp with
  | none => s
  | some r =>
    let s0 := onDev s (fun d => d.waitTick (r.start + usTicks (20 * r.todo.length)))
    let o := otpProgramAll s.otp ((r.todo.zipIdx.filter (fun x => ! failed.contains x.2)).map (fun x => x.1))
    let ok := r.matches o
    let s1 := onDev { s0 with otp := o } (fun d =>
      { d with sec := { d.sec with otp := none },
               peat := if ok || r.expect.isEmpty then d.peat else { d.peat with consumed := d.peat.consumed ++ [r.firstWord] } })
    let s2 := refreshOtp s1
    let s3 := if ok then onDev s2 (fun d => d.otpEffect r.cmd) else s2
    onDev s3 (fun d => d.otpEnd r (if ok then 0 else 9) (otpWord o r.firstWord))

/-- R522, R562: a reset or the loss of power ends a command after k of its fuse bits: a record keeps its begin bit and lacks its
commit bit, a setting reads either done or not. -/
def otpInterrupt (k : Nat) (s : State) : State :=
  match s.dev.sec.otp with
  | none => s
  | some r =>
    let n := r.todo.length
    let k' := if r.expect.isEmpty then min k n else clampN k 1 (n - 1)
    onDev { s with otp := otpProgramAll s.otp (r.todo.take k') } (fun d => { d with sec := { d.sec with otp := none } })

/-- The first words and begin/commit places of every multi-bit record of the array, as (first, control word, begin, commit). -/
def otpRecords : List (Nat × Nat × Nat × Nat) :=
  (List.range 8).map (fun k => (keyWord k, keyCtl k, 31, 30)) ++ [(1, 1, 31, 30), (216, 216, 31, 30)] ++
  (List.range 4).map (fun c => (classWord c, classWord c + 4, 0, 1)) ++
  (List.range 5).flatMap (fun t => (List.range 15).map (fun i => (raiseWord t + i, raiseWord t + i, 31, 30)))

/-- The recorder holds an OTP_DONE or OTP_FAIL record for the OTP record at this first word. -/
def Dev.otpDoneRecorded (d : Dev) (first : Nat) : Bool :=
  d.peat.slots.any (fun p => decide (p.1 < d.rd EVR_STATUS.count) && bit (lget p.2 11 0) 3 &&
    (lget p.2 8 0 / 2 ^ 20 == 513 || lget p.2 8 0 / 2 ^ 20 == 514) && lget p.2 17 0 == first)

/-- K_exp: two blocks of the device identity and a constant, encrypted under the image key. -/
def exportKey (o : Tab Nat) : Nat :=
  leNat (Config.aesBlock (imageKey o) (leBytes 8 (deviceId o) ++ leBytes 8 0x4556525800000001) ++
    Config.aesBlock (imageKey o) (leBytes 8 (deviceId o) ++ leBytes 8 0x4556525800000002))

/-- R546: the loader derives K_exp from the image key that stands committed, and gives it to the export engine. -/
def deriveExport (s : State) : State :=
  onDev s (fun d => { d with sec := { d.sec with
    expKey := if imageKeyPresent s.otp d.peat.consumed then some (exportKey s.otp) else none } })

/-- R525: consumed records with no OTP_DONE are recorded at power-on. -/
def consumedRecords (s : State) : State :=
  forEach otpRecords (fun x s =>
    if begun s.otp s.dev.peat.consumed x.1 x.2.1 x.2.2.1 && ! committed s.otp s.dev.peat.consumed x.1 x.2.1 x.2.2.2 && ! s.dev.otpDoneRecorded x.1 then
      onDev s (fun d => d.deviceRec 553 x.1 [])
    else s) s

/-- The op field of a command written in place of the one in v. -/
def withOp (op v : Nat) : Nat := op * 2 ^ 28 + v % 2 ^ 28

/-! ### The commands -/

/-- The security block has power and is not held in reset. -/
def Dev.secRuns (d : Dev) : Bool := d.rdb GLB_PWR_STATUS.core && ! d.blockHeld 14

/-- NONCE_EXPIRY (R515): 60 s after the draw. -/
def execNonceExpiry (s : State) : Res :=
  nextDev s (fun d =>
    if d.sec.nonceValid then
      let d1 := d.waitTick (d.sec.nonceDrawn + msTicks 60000)
      { d1 with sec := { d1.sec with nonceValid := false } }
    else d)

/-- TOKEN_CHECK_DONE (R516). -/
def execTokenCheckDone (s : State) : Res := .next (if s.dev.secRuns then endCheck s else s)

/-- MBX_CHECK (R518): a write of SEC_MBX_CTRL with check. -/
def execMbxCheck (v : Nat) (s : State) : Res :=
  nextDev s (fun d => d.gate .mailbox SEC_MBX_CTRL.ent 0 0 (fun d => d.mbxWrite (withBit v 31)))

/-- MBX_CLOSE (R518): a write of SEC_MBX_CTRL with close. -/
def execMbxClose (v : Nat) (s : State) : Res :=
  nextDev s (fun d => d.gate .mailbox SEC_MBX_CTRL.ent 0 0 (fun d => d.mbxWrite (withBit v 30)))

/-- MBX_NEW_NONCE (R515, R518): a write of SEC_MBX_CTRL with new_nonce. -/
def execMbxNewNonce (v : Nat) (s : State) : Res :=
  nextDev s (fun d => d.gate .mailbox SEC_MBX_CTRL.ent 0 0 (fun d => d.mbxWrite (withBit v 29)))

/-- OTP_COMMAND_COMPLETE (R525). -/
def execOtpCommandComplete (failed : List Nat) (s : State) : Res :=
  .next (if s.dev.secRuns then otpComplete failed s else s)

end Sys2Proof.Machine
end

