-- ==== Sys2Proof/Machine/Verify.lean ====
section
/-!
DEFINITION. Verification of a kindling image and of a live patch (02_kindling_image.md R49 to R58, R62, R71, R76, R603), with the range
rules of the chapters that lay a section out.
-/
namespace Sys2Proof.Machine

/-! ### Header and directory -/

/-- Header fields. -/
def imgLength (b : List Byte) : Nat := leAt b 0x0C 4
def imgCount (b : List Byte) : Nat := leAt b 0x10 2
def imgPatch (b : List Byte) : Bool := bit (leAt b 0x10 4) 17
def imgRollback (b : List Byte) : Nat := leAt b 0x14 4 % 128
def imgKeySlot (b : List Byte) : Nat := leAt b 0x18 4 % 8
def imgId (b : List Byte) : Nat := leAt b 0x20 16
def imgPatchId (b : List Byte) : Nat := leAt b 0x30 16
def imgPatchSeq (b : List Byte) : Nat := leAt b 0x40 2

/-- A section directory entry; `raw` is its 64 bytes. -/
structure DirEnt where
  id : Nat
  flags : Nat
  offset : Nat
  length : Nat
  digest : Nat
  iv : Nat
  tag : Nat
  raw : List Byte
  deriving DecidableEq, Repr

/-- Flags of a directory entry. -/
def DirEnt.live (e : DirEnt) : Bool := bit e.flags 0
def DirEnt.secure (e : DirEnt) : Bool := bit e.flags 1
def DirEnt.encrypted (e : DirEnt) : Bool := bit e.flags 2
def DirEnt.scoped (e : DirEnt) : Bool := bit e.flags 3

/-- Entry i of the directory. The digest is compared byte for byte in digest order. -/
def dirEnt (b : List Byte) (i : Nat) : DirEnt :=
  let o := 0x100 + 64 * i
  { id := leAt b o 2, flags := leAt b (o + 4) 4, offset := leAt b (o + 8) 4, length := leAt b (o + 12) 4,
    digest := beAt b (o + 0x10) 16, iv := leAt b (o + 0x20) 12, tag := leAt b (o + 0x30) 16, raw := slice b o 64 }

/-- The section directory. -/
def imgDir (b : List Byte) : List DirEnt := (List.range (imgCount b)).map (dirEnt b)

/-- R49: length, count, and where the sections lie. -/
def layoutOk (b : List Byte) : Bool :=
  let n := imgLength b
  let c := imgCount b
  let first := 0x100 + 64 * c
  n % 64 == 0 && decide (n ≤ 125829120) && decide (1 ≤ c) && decide (c ≤ 64) && decide (first + 96 ≤ n) && decide (n ≤ b.length) &&
  (imgDir b).all (fun e => e.offset % 64 == 0 && decide (first ≤ e.offset) && decide (e.offset + e.length ≤ n - 96)) &&
  (imgDir b).zipIdx.all (fun x => (imgDir b).zipIdx.all (fun y => decide (x.2 = y.2) || decide (x.1.offset + x.1.length ≤ y.1.offset) ||
    decide (y.1.offset + y.1.length ≤ x.1.offset)))

/-- The first 128 bits of SHA-384 of a byte string. -/
def digest128 (b : List Byte) : Nat := Config.sha384 b / 2 ^ 256

/-- R50: the identity over the image from 0x100 up to the signature, read as the header stores it. -/
def identityOf (b : List Byte) : Nat := leNat (beBytes 16 (digest128 (slice b 0x100 (imgLength b - 96 - 0x100))))

/-- R51: the signature holds under key slot k. -/
def signatureOk (o : Tab Nat) (b : List Byte) : Bool :=
  let k := imgKeySlot b
  let n := imgLength b - 96
  Config.ecdsaOk (keyX o k) (b2n (keyParity o k)) (slice b 0 n) (slice b n 96)

/-- R52: an entry's plaintext; none where its tag does not hold or there is no image key. -/
def plainBody (s : State) (b : List Byte) (e : DirEnt) : Option (List Byte) :=
  if e.encrypted then
    (if imageKeyPresent s.otp s.dev.peat.consumed && ! imageKeyKilled s.otp then
      Config.gcmOpen (imageKey s.otp) e.iv e.raw (slice b e.offset e.length) e.tag
     else none)
  else some (slice b e.offset e.length)

/-- The section table: required, secure and live of a section_id; none for an unknown one. -/
def sectionKind (id : Nat) : Option (Bool × Bool × Bool) :=
  if id = 1 ∨ id = 0x0E then some (true, true, false)
  else if id = 0x11 then some (true, true, true)
  else if id = 0x0A ∨ id = 0x0F then some (false, false, true)
  else if id = 8 ∨ id = 9 ∨ id = 0x0B ∨ id = 0x0C then some (true, false, true)
  else if 2 ≤ id ∧ id ≤ 7 ∨ id = 0x0D ∨ id = 0x10 ∨ id = 0x12 then some (true, false, false)
  else none

/-- A section of an image: a scoped one names its wall group in its first byte, and its layout follows. -/
def sectionOf (e : DirEnt) (body : List Byte) : ImgSection :=
  if e.scoped then { id := e.id, scope := some (beAt body 0 1), live := e.live, body := body.drop 1 }
  else { id := e.id, scope := none, live := e.live, body := body }

/-- R53, R54: the flags agree with the section table, no section is unknown, none stands twice for one wall group, and (in an
image) none is missing; the section_id at fault, or none. -/
def directoryFault (patch : Bool) (dir : List DirEnt) (secs : List ImgSection) : Option Nat :=
  match dir.find? (fun e => match sectionKind e.id with
    | none => true
    | some (_, sec, live) => e.secure != sec || e.live != live) with
  | some e => some e.id
  | none =>
    match secs.zipIdx.find? (fun x => secs.zipIdx.any (fun y => decide (y.2 < x.2) && y.1.id == x.1.id && y.1.scope == x.1.scope)) with
    | some x => some x.1.id
    | none =>
      if patch then none
      else (List.range 0x13).find? (fun id => (sectionKind id).any (fun k => k.1) && ! secs.any (fun x => x.id == id))

/-! ### Typed configuration -/

/-- The maps that UNIFORMITY holds, each wall group's from the section that governs it; none where it is absent (R59). -/
def mapsOf (secs : List ImgSection) (geo : Geometry) : Tab (List Byte) :=
  (List.range 4).flatMap (fun g => match sectionFor secs 0x0A g with
    | none => []
    | some x => (Config.uniformityMaps x.body).filter (fun m => (tfind geo.ports m.1).any (fun p => p.group == g)))

/-- The image that a header and its sections give. Of several sections of a kind that the model holds for the whole device (1 to 5, 0x0C to 0x0E and
0x10), scoped to different wall groups, the first in the directory is taken and the rest are only checked (log entry 148). -/
def imageOf (b : List Byte) (secs : List ImgSection) : Image :=
  let body (id : Nat) : List Byte := match secs.find? (fun x => x.id == id) with
    | some x => x.body
    | none => []
  { imageId := imgId b, rollback := imgRollback b, keySlot := imgKeySlot b, minor := leAt b 4 2, sections := secs,
    secure := Config.secureSection (body 1), clock := Config.clockSection (body 2), geo := Config.geometrySections (body 3) (body 4),
    mem := { Config.memorySection (body 5) with raw := body 5 }, net := Config.networkSection (body 0x10),
    arb := Config.arbiterSection (body 0x0C), rings := Config.ringsSection (body 0x0D), fw := Config.firmwareSection (body 0x0E),
    routes := Config.eventRoutes (secs.map (fun x => x.body)),
    mapsInside := mapsOf secs (Config.geometrySections (body 3) (body 4)),
    schedOff := (List.range 4).map (fun g => Config.schedulesHeader (sectionBody secs 7 g)), damper := Config.commandDamper (secs.map (fun x => x.body)) }

/-! ### Ranges and references (step 12) -/

/-- All bytes of a range are 0. -/
def zeros (b : List Byte) (o n : Nat) : Bool := (slice b o n).all (fun x => x == 0)

/-- Two elements at different places of a list never stand in relation p. -/
def pairwiseNot {α : Type} (l : List α) (p : α → α → Bool) : Bool :=
  l.zipIdx.all (fun x => l.zipIdx.all (fun y => decide (y.2 ≤ x.2) || ! p x.1 y.1))

/-- R359: the region descriptors. -/
def regionsOk (r : List (List Nat)) : Bool :=
  let w (x : List Nat) (i : Nat) : Nat := lget x i 0
  let valid (x : List Nat) : Bool := bit (w x 2) 31
  decide (r.length ≤ 256) && r.all (fun x => decide (w x 0 ≤ w x 1) && decide (w x 1 ≤ 786431) &&
    bits (w x 2) 29 12 == 0 && bits (w x 2) 3 2 == 0 && w x 3 == 0) &&
  pairwiseNot r (fun x y => valid x && valid y && rangesMeet (w x 0, w x 1) (w y 0, w y 1))

/-- R356: no aligned 512 KiB block lies in regions of two hash classes. -/
def classBlocksOk (r : List (List Nat)) : Bool :=
  let w (x : List Nat) (i : Nat) : Nat := lget x i 0
  pairwiseNot r (fun x y => bit (w x 2) 31 && bit (w y 2) 31 && bits (w x 2) 11 8 != bits (w y 2) 11 8 &&
    rangesMeet (w x 0 / 8, w x 1 / 8) (w y 0 / 8, w y 1 / 8))

/-- R498: only assignable blocks are assigned. -/
def worldsOk (m : Nat) : Bool :=
  (List.range 18).all (fun b => ! m.testBit b || [2, 3, 4, 5, 6, 7, 10, 11, 13, 16].contains b) && decide (m < 2 ^ 18)

/-- R347: the heartbeat period of SECURE is 20 to 100 ms. -/
def heartbeatOk (c : SecureCfg) : Bool := decide (20 ≤ c.hbPeriod) && decide (c.hbPeriod ≤ 100)

/-- R55: the initial event routes name events, targets and destinations that GLB_EVT_ROUTE can hold. -/
def routesOk (t : Tab RouteCfg) : Bool := t.all (fun r => decide (r.1 < 4096) && decide (r.2.target < 4) && decide (r.2.dest < 2048))

/-- R355: hash selections. -/
def hashOk (h : List (List Nat)) : Bool :=
  (lget h 0 []).all (fun v => v == 0) && h.all (fun c => c.all (fun v => decide (v < 2 ^ 17) && decide (countUp 17 v.testBit ≤ 7)))

/-- R357: the remap. -/
def remapOk (d : Dev) (r : List (Nat × Nat)) (regions : List (List Nat)) : Bool :=
  (List.range 64).all (fun p =>
    let l := r.filter (fun x => x.1 == p)
    decide (l.length ≤ 2) && (decide (l.length < 2) || (l.any (fun x => x.2 == 0) && l.any (fun x => x.2 == 1)))) &&
  decide (r.length = 64) && r.all (fun x => decide (x.1 < 64) && decide (x.2 ≤ 1) && ! d.pchFailed x.1 && (x.2 == 0 || regions.all (fun g => ! bit (lget g 2 0) 31 || decide (lget g 1 0 * 65536 + 65535 ≤ 0x5FFFFFFFF))))

/-- R56: each slice's alternate is the spare of its quarter, and a spare has none. -/
def alternatesOk (l : List (Option Nat)) : Bool :=
  (List.range 100).all (fun s => lget l s none == if s % 25 = 24 then none else some (s / 25 * 25 + 24))

/-- R56, R207, R298, R528: the active ports. -/
def portsOk (s : State) (g : Geometry) : Bool :=
  alternatesOk g.alternates && g.ports.all (fun p => decide (p.1 < 96) && decide (p.2.slice < 100) && ! otpPortOff s.otp p.1 && decide (p.2.bus < 12) &&
    decide (1 ≤ p.2.addr) && decide (p.2.addr ≤ 8) && g.classes.any (fun c => c.cls == p.2.cls) &&
    (tfind g.groups p.2.group).isSome) &&
  pairwiseNot g.ports (fun p q => p.1 == q.1 || p.2.slice == q.2.slice || (p.2.bus == q.2.bus && p.2.addr == q.2.addr))

/-- R208, R187: a timing mode's values. -/
def modeOk (m : TimingMode) : Bool :=
  decide (1 ≤ m.fNum) && decide (m.fNum < 65536) && decide (1 ≤ m.fDen) && decide (m.fDen < 65536) && decide (24 * m.fDen ≤ m.fNum) &&
  decide (m.fNum ≤ 120 * m.fDen) && decide (16 ≤ m.nTotal) && decide (m.nTotal ≤ 16383) && decide (m.nActive ≤ 4096) &&
  decide (m.guard + 1 ≤ m.nActive) && decide (m.nActive + 1 ≤ m.deadline) && decide (m.deadline + 11 ≤ m.nTotal) &&
  decide (m.deadline + 1 ≤ m.swap) && decide (m.swap + 9 ≤ m.nTotal) && decide (m.planes ≤ 16)

/-- R187, R207, R208, R252: the wall groups. -/
def groupsOk (g : Geometry) : Bool :=
  g.groups.all (fun x =>
    let cls := (g.ports.filter (fun p => p.2.group == x.1)).filterMap (fun p => g.classes.find? (fun c => c.cls == p.2.cls))
    decide (x.1 < 4) && decide (x.2.timeBase < 4) && x.2.ports.all (fun n => decide (n < 96)) && decide (2 ≤ x.2.slots) &&
    decide (x.2.slots ≤ 8) && decide (1 ≤ x.2.modes.length) && decide (x.2.modes.length ≤ 4) &&
    x.2.modes.all modeOk && x.2.hSeg % 4 == 0 && decide (1 ≤ x.2.hSeg) &&
    cls.all (fun c => c.cols % x.2.hSeg == 0 && (12 * c.cols) % 128 == 0 && decide (12 * c.cols ≤ 65536) &&
      decide (c.rows * c.viewRows ≤ 4096) && x.2.modes.all (fun m => m.nActive == c.rows * c.viewRows) &&
      cls.all (fun c' => c'.rows == c.rows && c'.viewRows == c.viewRows)))

/-- R437, R545: an endpoint code suits its end of a ring: an engine or a stoker or host of the ring's world, stoker 0 alone in the secure
one; recorder export serves secure rings. -/
def endpointOk (secure engine : Bool) (e : Nat) : Bool :=
  if engine then decide (0x50 ≤ e) && decide (e ≤ 0x54) && (e != 0x54 || secure)
  else if e = 0x41 then secure else if e = 0x40 then ! secure else decide (e < 64) && (! secure || e == 0)

/-- R437, R58, R545: the rings; an alternate suits its end of the ring as the endpoint does, or is 0xFF, none. -/
def ringsOk (regions : List (List Nat)) (r : RingsCfg) : Bool :=
  r.rings.all (fun x =>
    let c := x.2
    let size := 2 ^ c.sizeLog2 * (32 * 2 ^ c.entry)
    let prod := endpointOk c.secure (c.kind == 2)
    let cons := endpointOk c.secure (c.kind == 1)
    decide (x.1 < 4096) && decide (4 ≤ c.sizeLog2) && decide (c.sizeLog2 ≤ 15) && decide (c.entry ≤ 2) && c.base % 64 == 0 &&
    decide (c.kind ≤ 2) && prod c.producer && cons c.consumer && (c.altProducer == 0xFF || prod c.altProducer) &&
    (c.altConsumer == 0xFF || cons c.altConsumer) && decide (c.target ≤ 2) && decide (c.vector < 2048) &&
    (c.kind != 1 || (tfind r.rings c.cq).any (fun q => q.kind == 2 && q.producer == c.consumer && q.secure == c.secure)) &&
    regions.any (fun g => bit (lget g 2 0) 31 && bit (lget g 2 0) 30 == c.secure && decide (lget g 0 0 * 65536 ≤ c.base) &&
      decide (c.base + size ≤ (lget g 1 0 + 1) * 65536))) &&
  r.secureLocks.all (fun n => decide (n < 256))

/-- R58: stoker images fit their local memory, and the supervisor's is signed. -/
def firmwareOk (body : List Byte) (fw : Tab FwCfg) : Bool :=
  fw.all (fun x => decide (x.1 < 64) && decide (x.2.image.length ≤ 0x20000) && decide (x.2.wdtMs < 65536)) && Config.supervisorSigned body

/-- R55: CLOCK_POWER names lane rates, port groups and quarters that exist (R240, R567). -/
def clockOk (c : ClockCfg) : Bool :=
  c.laneRate.all (fun x => decide (x < 4)) && decide (c.laneRate.length ≤ 24) && decide (c.groups < 2 ^ 24) && decide (c.quarters < 16) &&
  decide (c.freq.length ≤ 60)

/-- R55: MEMORY names frame slots, map buffers and schedule tables of groups and ports that exist, inside HBM's 48 GiB. -/
def memoryOk (m : MemoryCfg) : Bool :=
  m.slotBase.all (fun x => decide (x.1 < 32) && decide (x.2 < 0xC00000000)) && m.slotSize.all (fun x => decide (x.1 < 4)) &&
  m.mapBuf.all (fun x => decide (x.1 < 192) && decide (x.2.1 + x.2.2 ≤ 0xC00000000)) && m.mapLimit.all (fun x => decide (x.1 < 96)) &&
  m.viewBase.all (fun x => decide (x.1 < 4) && decide (x.2 < 0xC00000000))

/-- R55: ARBITER's instances and requesters exist, and their settings fit their fields (09_memory_arbitration.md). -/
def arbiterOk (l : List ArbCfg) : Bool :=
  decide (l.length ≤ 71) && l.all (fun c => decide (c.mode < 2) && decide (64 ≤ c.window) && decide (c.window < 65536) &&
    decide (c.reqs.length ≤ 32) && c.reqs.all (fun r => decide (r.1 < 2) && decide (r.2.1 < 2) && decide (r.2.2.1 < 1024) &&
      decide (r.2.2.2 < 16384)))

/-- R55: a time base's settings fit their fields and the values these take (R478 for the genlock period, R479 for the profile and transport);
the extremes of R478's numerator and denominator keep the period itself in its range. -/
def tbOk (t : TbCfg) : Bool :=
  decide (t.discipline < 3) && decide (t.bandwidth < 3) && decide (t.glInput < 8) && decide (1 ≤ t.pNum) && decide (t.pNum < 65536) &&
  decide (1 ≤ t.pDen) && decide (t.pDen < 65536) && decide (t.glOffset < 2 ^ 32) && decide (t.ptp < 2 ^ 32) && bits t.ptp 21 20 != 3 &&
  decide (bits t.ptp 18 16 ≤ 3)

/-- R55: NETWORK's ports, queues, time bases and streams exist, and their settings fit their fields (12_network_time.md, R99). -/
def networkOk (n : NetworkCfg) : Bool :=
  decide (n.eth.length ≤ 4) && n.eth.all (fun c => decide (c.pmd < 2) && decide (c.mac < 2 ^ 48) && decide (c.vid < 4096) &&
    decide (c.ctrlUdp.length ≤ 8) && c.ctrlUdp.all (fun u => decide (u < 65536))) &&
  decide (n.queues.length ≤ 16) && n.queues.all (fun q => decide (q.dir < 2) && decide (q.owner < 64) && decide (4 ≤ q.sizeLog2) &&
    decide (q.sizeLog2 ≤ 12) && decide (q.source < 4) && decide (q.base < 0xC00000000) && q.base % 64 == 0) &&
  decide (n.tbs.length ≤ 4) && n.tbs.all tbOk &&
  decide (n.eventTb < 4) && decide (n.streams.length ≤ 4) &&
  n.streams.all (fun t => decide (t.id < 65536) && decide (t.ethMask < 16) && decide (t.udp < 65536))

/-- R480: no two enabled PTP instances share a domain and an Ethernet port. -/
def ptpOk (n : NetworkCfg) : Bool :=
  pairwiseNot n.tbs (fun x y => bit x.ptp 31 && bit y.ptp 31 && x.ptp % 256 == y.ptp % 256 &&
    (bits x.ptp 27 24 &&& bits y.ptp 27 24) != 0)

/-- R338 and the section's layout: a FIRESCREEN body. -/
def firescreenOk (b : List Byte) : Bool :=
  let n := leAt b 0 1
  let ent (c o : Nat) : Nat := leAt b (0x10 + 192 * c + o) 4
  let lum (c v k : Nat) : Nat := if k = 0 then ent c (0x40 + 8 * v) / 65536 else if k = 1 then ent c (0x40 + 8 * v) % 65536
    else ent c (0x44 + 8 * v) / 65536
  zeros b 1 3 && decide (100 ≤ leAt b 8 4) && decide (leAt b 8 4 ≤ 10000) && zeros b 0x0C 4 && decide (b.length = 0x10 + 192 * n) &&
  (List.range n).all (fun c =>
    let k := ent c 0 / 65536
    decide (1 ≤ k) && decide (k ≤ 16) && decide (ent c 8 < ent c 4) && ent c 0x1C % 65536 == 0 && decide (1 ≤ ent c 0x24) &&
    decide (ent c 0x24 ≤ 65536) && zeros b (0x10 + 192 * c + 0x28) 0x18 &&
    (List.range 16).all (fun v => (List.range 3).all (fun q => decide (lum c v q ≤ 4088) && (decide (v = 0) || decide (lum c v q ≤ lum c (v - 1) q))) &&
      ent c (0x44 + 8 * v) % 65536 == 0 && (decide (v < k) || (ent c (0x40 + 8 * v) == 0 && ent c (0x44 + 8 * v) == 0))))

/-- The class numbers of a section of class entries (FIRESCREEN 192 bytes, DRIVE_REF 2,176 bytes each), which name no class twice
(R318). -/
def entryClasses (b : List Byte) (stride : Nat) : List Nat := (List.range (leAt b 0 1)).map (fun c => leAt b (0x10 + stride * c) 2)

/-- R318: a DRIVE_REF body. -/
def driveRefOk (b : List Byte) : Bool :=
  let n := leAt b 0 1
  let edge (c i : Nat) : Int := toS 16 (leAt b (0x10 + 2176 * c + 8 + 4 * (i - 1)) 2)
  decide (1 ≤ n) && decide (n ≤ 16) && zeros b 1 15 && pairwiseNot (entryClasses b 2176) (fun x y => x == y) &&
  (List.range n).all (fun c => (List.range 14).all (fun i => decide (edge c (i + 1) + 768 ≤ edge c (i + 2))) &&
    decide (edge c 15 < toS 16 (leAt b (0x10 + 2176 * c + 4) 2)) && zeros b (0x10 + 2176 * c + 0x44) 0x3C)

/-- R204: a COLOUR body. -/
def colourOk (b : List Byte) : Bool :=
  let t := leAt b 0 1
  let cross := 0x140 + 6336 * t
  let copies (v w : Nat) : Bool := v / 2 ^ (w - 1) == 0 || v / 2 ^ (w - 1) == 2 ^ (33 - w) - 1
  decide (1 ≤ t) && decide (t ≤ 8) && zeros b 1 0x3F && decide (b.length = cross + 3072) &&
  (List.range 4).all (fun s =>
    let o := 0x40 + 64 * s
    (List.range 9).all (fun i => copies (leAt b (o + 4 + 4 * i) 4) 18) && (List.range 3).all (fun i => copies (leAt b (o + 0x28 + 4 * i) 4) 17) &&
    zeros b (o + 0x34) 12) &&
  (List.range (3 * t)).all (fun k => zeros b (0x140 + 2112 * k + 2050) 62) && (List.range 96).all (fun n => zeros b (cross + 32 * n + 18) 14)

/-- A COEFF body: every coefficient word has 0 in [15:12]. -/
def coeffOk (b : List Byte) : Bool :=
  leAt b 0 4 == 32 && zeros b 4 12 && decide (b.length = 16 + 40960) && (List.range 20480).all (fun i => decide (leAt b (16 + 2 * i) 2 < 4096))

/-- R536: a RECORDER body. -/
def recorderOk (b : List Byte) : Bool :=
  let n := leAt b 0 1
  decide (1 ≤ n) && decide (n ≤ 16) && zeros b 1 15 && decide (b.length = 0x1010 + 0x50 * n) &&
  (List.range 4096).all (fun e => decide (leAt b (0x10 + e) 1 < n)) &&
  (List.range n).all (fun c =>
    let o := 0x1010 + 0x50 * c
    let k := leAt b o 4
    decide (k ≤ 16) && zeros b (o + 4) 12 && (List.range k).all (fun i => leAt b (o + 0x10 + 4 * i) 4 % 4 == 0 &&
      decide (leAt b (o + 0x10 + 4 * i) 4 ≤ 0x011FFFFF)))

/-- A DEPTH_PALETTE body. -/
def paletteOk (b : List Byte) : Bool :=
  let n := leAt b 0 1
  let pitch (k o : Nat) : Nat := leAt b (0x10 + 32 * k + o) 4
  decide (1 ≤ n) && decide (n ≤ 64) && zeros b 1 15 && (List.range n).all (fun k =>
    decide (312500 ≤ pitch k 4) && decide (pitch k 4 ≤ 100000000) && decide (312500 ≤ pitch k 8) && decide (pitch k 8 ≤ 100000000) &&
    zeros b (0x10 + 32 * k + 0x14) 12)

/-- R134, R136: the schedule entries of an active port, by view and slot. The 12 horizontal views of a view row share one v0 and dv. -/
def schedulesOk (g : Geometry) (b : List Byte) (tab : Nat) : Bool :=
  let ent (n v k : Nat) : SchedEntry := parseSched b (tab + 32 * ((n * 96 + v) * 64 + k))
  let fits (x : Int) : Bool := decide (-(2 ^ 47 : Int) ≤ x) && decide (x < (2 ^ 47 : Int))
  g.ports.all (fun p =>
    match g.classes.find? (fun c => c.cls == p.2.cls) with
    | none => false
    | some c => (List.range 64).all (fun k => (List.range 96).all (fun v =>
      let e := ent p.1 v k
      let row := ent p.1 (v / 12 * 12) k
      e.v0 == row.v0 && e.dv == row.dv && (! e.valid || (decide (1 ≤ e.du) && decide (e.du ≤ 0x40000000) && decide (1 ≤ e.dv) && decide (e.dv ≤ 0x40000000) &&
        fits e.u0 && fits e.v0 && fits (e.u0 + (c.cols - 1 : Nat) * e.du) && fits (e.v0 + (c.rows - 1 : Nat) * e.dv) &&
        decide (e.colWidth ≤ 8192) &&
        (List.range v).all (fun v' => ! (ent p.1 v' k).valid || ((ent p.1 v' k).colBase == e.colBase && (ent p.1 v' k).colWidth == e.colWidth)))))))

/-- The stream table's entries with subscribers, and their loads: it holds up to 128 entries or to the section's end, and one without
subscribers is none (log entry 110). -/
def streamLoads (b : List Byte) (tab : Nat) : List (Nat × StreamEnt) :=
  (List.range 128).filterMap (fun i =>
    let o := tab + 32 * i
    let w := leAt b o 4
    let ports := (List.range 96).filter (fun n => (leAt b (o + 8) 12).testBit n)
    if b.length < o + 32 ∨ ports.isEmpty then none
    else some (leAt b (o + 4) 4, { group := bits w 13 12, plane := bits w 11 8, unit := bits w 3 0, ports := ports }))

/-- The streams in force: those of each wall group in the SCHEDULES that it reads. -/
def Image.streamsInForce (im : Image) : List (Nat × StreamEnt) :=
  (List.range 4).flatMap (fun g => (streamLoads (im.body 7 g) (im.schedAt 3 g)).filter (fun x => x.2.group == g))

/-- R152: the streams in force: streams of a unit, their loads against every declared mode, subscriptions, ports. -/
def streamsOk (g : Geometry) (es : List (Nat × StreamEnt)) : Bool :=
  let budget (m : TimingMode) : Nat := 8 * 64 * (m.fDen * 800000000 / (m.fNum * m.nTotal))
  (List.range 16).all (fun u =>
    let l := es.filter (fun x => x.2.unit == u)
    let sum := l.foldl (fun a x => a + x.1) 0
    decide (l.length ≤ 8) && g.groups.all (fun x => x.2.modes.all (fun m => decide (sum ≤ budget m)))) &&
  pairwiseNot es (fun x y => x.2.group == y.2.group && x.2.plane == y.2.plane && x.2.ports.any (fun n => y.2.ports.contains n)) &&
  es.all (fun x => x.2.ports.all (fun n => (tfind g.ports n).isSome))

/-- R57, R523: a class entry's requests against the OTP ceilings of its class, each kind by its unit. -/
def classCeilOk (s : State) (b : List Byte) (c : Nat) : Bool :=
  let o := 0x10 + 192 * c
  let w (i : Nat) : Nat := leAt b (o + i) 4
  match classRecordOf s.otp s.dev.peat.consumed (w 0 % 65536) with
  | none => false
  | some r =>
    let top (k : Nat) : Nat := otpEffective s.otp s.dev.peat.consumed k r
    decide (w 4 ≤ top 1 * 100) && decide (w 0x40 / 65536 ≤ top 2) && decide (w 0x40 % 65536 ≤ top 3) && decide (w 0x44 / 65536 ≤ top 4) &&
    decide (w 0x18 / 65536 ≤ top 5) && decide (w 0x18 % 65536 ≤ top 6) && decide (w 0x1C / 65536 ≤ top 7) && decide (w 0x20 % 65536 ≤ top 8) &&
    decide (w 0x20 / 65536 ≤ top 9) && decide (w 0x24 ≤ top 10 * 256)

/-- R57: a FIRESCREEN body requests nothing above the OTP ceilings of its classes, and of the wall; for a class that GEOMETRY does not
have and OTP has no record of there is no ceiling. -/
def ceilingsOk (s : State) (g : Geometry) (b : List Byte) : Bool :=
  (List.range (leAt b 0 1)).all (fun c =>
    let cls := leAt b (0x10 + 192 * c) 2
    (! g.classes.any (fun x => x.cls == cls) && (classRecordOf s.otp s.dev.peat.consumed cls).isNone) || classCeilOk s b c) &&
  wallCommitted s.otp s.dev.peat.consumed && decide (leAt b 4 4 ≤ otpEffective s.otp s.dev.peat.consumed 11 4 * 1000)

/-- The section_ids whose bodies the model holds typed: their own ranges are Config's (log entry 3). -/
def opaqueSection (id : Nat) : Bool := [1, 2, 3, 4, 5, 7, 0x0A, 0x0C, 0x0D, 0x0E, 0x10].contains id

/-- A section as an image or a patch carries it names a wall group that GEOMETRY declares. -/
def scopeOk (geo : Geometry) (x : ImgSection) : Bool := x.scope.all (fun g => decide (g < 4) && (tfind geo.groups g).isSome)

/-- The ranges that a section's body alone shows. -/
def bodyOk (x : ImgSection) : Bool :=
  (if x.id = 6 then paletteOk x.body else if x.id = 8 then coeffOk x.body else if x.id = 9 then colourOk x.body
   else if x.id = 0x0B then driveRefOk x.body else if x.id = 0x0F then recorderOk x.body
   else if x.id = 0x11 then firescreenOk x.body && pairwiseNot (entryClasses x.body 192) (fun a b => a == b)
   else ! opaqueSection x.id || Config.sectionInRange x.id x.body)

/-- R62: BUDGET's records as (check, where, margin, mode). -/
def budgetRecords (b : List Byte) : List (Nat × Nat × Int × Nat) :=
  (List.range (b.length / 16)).map (fun i => (leAt b (16 * i) 2, leAt b (16 * i + 2) 2, toS 32 (leAt b (16 * i + 4) 4), leAt b (16 * i + 8) 4))

/-- The declared timing modes as BUDGET's mode words. -/
def modeWords (g : Geometry) : List Nat := g.groups.flatMap (fun x => (List.range x.2.modes.length).map (fun m => x.1 * 256 + m))

/-- The image's BUDGET sections, one for the device or one for each wall group. -/
def Image.budgets (im : Image) : List (List Byte) := (im.sections.filter (fun x => x.id == 0x12)).map (fun x => x.body)

/-- R62, R63: the records of every BUDGET section. -/
def Image.budgetAll (im : Image) : List (Nat × Nat × Int × Nat) := im.budgets.flatMap budgetRecords

/-- R62: BUDGET's range faults. -/
def budgetRangeOk (im : Image) : Bool :=
  im.budgetAll.all (fun r => decide (1 ≤ r.1) && decide (r.1 ≤ 7) && (modeWords im.geo).contains r.2.2.2) &&
  im.budgets.all (fun b => (List.range (b.length / 16)).all (fun i => leAt b (16 * i + 12) 4 == 0))

/-- R62: the budget proof. -/
def budgetOk (im : Image) : Bool :=
  im.budgetAll.all (fun r => decide (0 ≤ r.2.2.1)) &&
  (modeWords im.geo).all (fun m => (List.range 7).all (fun c => im.budgetAll.any (fun r => r.1 == c + 1 && r.2.2.2 == m)))

/-- R55 to R58 and the chapters' rules on references between sections: the section_id at fault, or none; `own` are the sections that the
image or patch under check carries itself. For a patch the running image's other sections are judged again, by the ports disabled and the
pseudo-channels failed today (R76; log entry 149). -/
def rangeFault (s : State) (im : Image) (own : List ImgSection) : Option Nat :=
  let g := im.geo
  let body (id : Nat) : List Byte := im.body id 0
  match (own.find? (fun x => ! scopeOk g x)).or (im.sections.find? (fun x => ! bodyOk x)) with
  | some x => some x.id
  | none =>
    if ! routesOk im.routes then some 0
    else if ! (heartbeatOk im.secure && worldsOk im.secure.worlds && regionsOk im.secure.regions && classBlocksOk im.secure.regions) then some 1
    else if ! clockOk im.clock then some 2
    else if ! (portsOk s g && groupsOk g && g.classes.all (fun c => (classRecordOf s.otp s.dev.peat.consumed c.cls).isSome)) then some 3
    else if ! (memoryOk im.mem && hashOk im.mem.hash && remapOk s.dev im.mem.remap im.secure.regions) then some 5
    else if ! ((List.range 4).all (fun k => schedulesOk { g with ports := g.ports.filter (fun p => p.2.group == k) } (im.body 7 k) (im.schedAt 2 k)) &&
        streamsOk g im.streamsInForce) then some 7
    else if ! (im.sections.all (fun x => x.id != 0x0A || (Config.uniformityMaps x.body).all (fun m => (im.port m.1).isSome))) then some 0x0A
    else if ! (im.sections.all (fun x => x.id != 0x0C || arbiterOk (Config.arbiterSection x.body))) then some 0x0C
    else if ! (im.sections.all (fun x => x.id != 0x0B || g.classes.all (fun c => (entryClasses x.body 2176).contains c.cls))) then some 0x0B
    else if ! ringsOk im.secure.regions im.rings then some 0x0D
    else if ! firmwareOk (body 0x0E) im.fw then some 0x0E
    else if ! (networkOk im.net && ptpOk im.net) then some 0x10
    else if ! (im.sections.all (fun x => x.id != 0x11 || (ceilingsOk s g x.body &&
        g.classes.all (fun c => (entryClasses x.body 192).contains c.cls)))) then some 0x11
    else none

/-! ### Verification (R71, R76, R603) -/

/-- The outcome of a verification: accepted with an image, or a reject code and the section at fault. -/
inductive Verdict where
  | accept (im : Image)
  | reject (code sect : Nat)
  deriving DecidableEq, Repr

/-- R506: a lifecycle state under which no image loads. -/
def loadBarred (o : Tab Nat) : Bool := otpLifecycle o == 0 || otpLifecycle o == 3

/-- Steps 1 to 7 of R71, which an image and a patch share; 0 when they pass. -/
def headCode (s : State) (b : List Byte) : Nat :=
  if b.length < 256 then 0x04
  else if leAt b 0 4 ≠ 0x4B4E444C then 0x01
  else if leAt b 4 4 ≠ 3 * 65536 then 0x02
  else if leAt b 0x0A 2 ≠ 0x9600 ∨ 0x00B0 < leAt b 8 2 then 0x03
  else if layoutOk b = false then 0x04
  else if keyState s.otp s.dev.peat.consumed (imgKeySlot b) ≠ 1 then 0x05
  else if imgRollback b < rollbackCount s.otp then 0x06
  else if signatureOk s.otp b = false then 0x07
  else 0

/-- Steps 9 and 10: every section's plaintext, or the code and section of the first fault. -/
def plainSections (s : State) (b : List Byte) : Except (Nat × Nat) (List ImgSection) :=
  match (imgDir b).find? (fun e => (plainBody s b e).isNone) with
  | some e => .error (0x09, e.id)
  | none => match (imgDir b).find? (fun e => digest128 ((plainBody s b e).getD []) != e.digest) with
    | some e => .error (0x0A, e.id)
    | none => .ok ((imgDir b).map (fun e => sectionOf e ((plainBody s b e).getD [])))

/-- R71: an image read from a slot. A live patch in its place fails by its patch field, read where R76 reads it: after step 7. -/
def verifyImage (s : State) (b : List Byte) : Verdict :=
  if headCode s b ≠ 0 then .reject (headCode s b) 0
  else if imgPatch b then .reject 0x0B 0
  else if identityOf b ≠ imgId b then .reject 0x08 0
  else match plainSections s b with
    | .error e => .reject e.1 (e.2 % 256)
    | .ok secs =>
      match directoryFault false (imgDir b) secs with
        | some id => .reject 0x0B (id % 256)
        | none =>
          let im := imageOf b secs
          match rangeFault s im secs with
          | some id => .reject 0x0C (id % 256)
          | none =>
            if budgetRangeOk im = false then .reject 0x0C 0x12
            else if budgetOk im then .accept im else .reject 0x0D 0x12

/-- R75: the patch's FIRESCREEN sections request nothing above the effective ceilings in force: of the wall, the tiles, and every
level, reference and flash limit of the sections in force. A level that these lack lies below their last, as levels never rise (R336). -/
def patchLowers (d : Dev) (secs : List ImgSection) : Bool :=
  secs.all (fun x => x.id != 0x11 || (
    decide (leAt x.body 4 4 ≤ d.rd FSC_WALL_CEIL.ceiling) &&
    (List.range (leAt x.body 0 1)).all (fun c =>
      let w (i : Nat) : Nat := leAt x.body (0x10 + 192 * c + i) 4
      (List.range 4).all (fun g => (x.scope.any (fun g' => g' != g)) || (d.img.group g).isNone ||
        (let b := d.img.body 0x11 g
         match classEntry b 192 0 (w 0 % 65536) with
         | none => true
         | some e =>
           let v (i : Nat) : Nat := leAt b (e + i) 4
           decide (w 4 ≤ v 4) && (List.range (v 0 / 65536)).all (fun l => decide (w (0x40 + 8 * l) / 65536 ≤ v (0x40 + 8 * l) / 65536) &&
             decide (w (0x40 + 8 * l) % 65536 ≤ v (0x40 + 8 * l) % 65536) && decide (w (0x44 + 8 * l) / 65536 ≤ v (0x44 + 8 * l) / 65536)) &&
           decide (w 0x18 / 65536 ≤ v 0x18 / 65536) &&
           decide (w 0x18 % 65536 ≤ v 0x18 % 65536) && decide (w 0x1C / 65536 ≤ v 0x1C / 65536) &&
           decide (w 0x20 % 65536 ≤ v 0x20 % 65536) && decide (w 0x20 / 65536 ≤ v 0x20 / 65536) && decide (w 0x24 ≤ v 0x24))))))

/-- R76 step 12: the patch's sections together with the running image's others. -/
def patchImage (im : Image) (secs : List ImgSection) : Image :=
  (scopedLast secs).foldl (fun im x => match x.scope with
    | none => im.putWhole x
    | some g => im.putFor g x) im

/-- The reject code of a live patch after steps 1 to 7 (R75, R76), or its sections. -/
def patchBody (s : State) (b : List Byte) : Verdict :=
  if imgPatch b = false then .reject 0x0B 0
  else if imgId b ≠ s.dev.img.imageId then .reject 0x10 0
  else if identityOf b ≠ imgPatchId b then .reject 0x08 0
  else match plainSections s b with
    | .error e => .reject e.1 (e.2 % 256)
    | .ok secs =>
      match (imgDir b).find? (fun e => ! e.live) with
      | some e => .reject (if (sectionKind e.id).isNone then 0x0B else 0x11) (e.id % 256)
      | none => match directoryFault true (imgDir b) secs with
        | some id => .reject 0x0B (id % 256)
        | none => match rangeFault s (patchImage s.dev.img secs) secs with
          | some id => .reject 0x0C (id % 256)
          | none =>
            if patchLowers s.dev secs then .accept { s.dev.img with sections := secs } else .reject 0x13 0x11

/-- R75, R76, R96: a live patch; the image of an accepted one holds the patch's sections alone. -/
def verifyPatch (s : State) (b : List Byte) : Verdict :=
  if s.dev.kin.relight.isSome then .reject 0x12 0
  else if loadBarred s.otp then .reject 0x0E 0
  else if headCode s b ≠ 0 then .reject (headCode s b) 0
  else patchBody s b

end Sys2Proof.Machine
end

