-- ==== Sys2Proof/Machine/Kindling.lean ====
section
/-!
DEFINITION. The kindling loader (02_kindling_image.md R64 to R96): boot choice, application of an image, relight, live patches and
flash writes.
-/
namespace Sys2Proof.Machine

/-! ### Rejections and halts -/

/-- KIN_ERR after a rejection. -/
def Dev.kinErr (d : Dev) (code sect : Nat) (patch : Bool) : Dev :=
  ((d.wr KIN_ERR.code code).wr KIN_ERR.section sect).wrb KIN_ERR.patch patch

/-- An image fails verification, or is barred (R71, R86, R506). -/
def Dev.loadReject (d : Dev) (code sect : Nat) : Dev := (d.kinErr code sect false).raise 33

/-- R68: no GOOD slot verifies; the device halts, its tile ports down. A relight ends with it. -/
def Dev.halt (d : Dev) : Dev :=
  let d1 := (if d.rd KIN_RELIGHT.step = 0 then d else d.relightStep 0).holdElapsed.stopLanes
  ({ d1 with glb := { d1.glb with phase := .halted }, kin := { d1.kin with relight := none, cand := none } } : Dev).wr
    KIN_STATUS.state 0xF

/-! ### Boot choice (R66 to R68, R95) -/

/-- The generation of a slot's latest STATE entry. -/
def Dev.slotGen (d : Dev) (slot : Nat) : Nat := ((latestState d.peat.journal slot).map (fun e => e.gen)).getD 0

/-- R67: the GOOD slot with the latest generation. -/
def Dev.bestGood (d : Dev) : Option Nat :=
  match d.slotState 0 == slotGood, d.slotState 1 == slotGood with
  | true, true => some (if newer (d.slotGen 1) (d.slotGen 0) then 1 else 0)
  | true, false => some 0
  | false, true => some 1
  | false, false => none

/-- R66, R95: a relight that a reset ended has no RELIGHT_END: its target slot's trial count rises, its state as it was. -/
def Dev.countTrial (d : Dev) : Dev :=
  let last := d.peat.journal.foldl (fun o e => if e.intact && e.kind == 1 then some e.slot else if e.intact && e.kind == 2 then none else o)
    (none : Option Nat)
  match last with
  | none => d
  | some slot => d.journalState slot (d.slotState slot) (min (d.slotTrials slot + 1) 15)

/-- R67, R68, R506: the boot choice: the verification of a slot begins, or the device halts. From here on the loader drives the flash pins
(R587). -/
def bootChoice (s : State) : State :=
  onDev s (fun d0 =>
    let d : Dev := { d0 with glb := { d0.glb with xspi := true } }
    if loadBarred s.otp then (d.loadReject 0x0E 0).halt
    else match d.bestGood with
    | none => d.halt
    | some slot => ({ d with kin := { d.kin with source := slot }, glb := { d.glb with phase := .verify } } : Dev).wr KIN_STATUS.state 1)

/-- R68: verification of the boot image ends. -/
def loadVerified (s : State) : State :=
  if s.dev.glb.phase ≠ .verify then s
  else if loadBarred s.otp then onDev s (fun d => (d.loadReject 0x0E 0).halt)
  else
    let slot := s.dev.kin.source
    match verifyImage s (tget s.flash slot []) with
    | .accept im => onDev s (fun d =>
        ({ d with kin := { d.kin with cand := some im }, glb := { d.glb with phase := .apply } } : Dev).beginApply)
    | .reject code sect => onDev s (fun d =>
        let d1 := (d.loadReject code sect).journalState slot slotBad (d.slotTrials slot)
        if d1.slotState (1 - slot) = slotGood then ({ d1 with kin := { d1.kin with source := 1 - slot } } : Dev).raise 36
        else d1.halt)

/-! ### Memory across a load (R90, R560) -/

/-- Address a lies in a valid region of the given world. -/
def inWorld (regions : List (List Nat)) (secure : Bool) (a : Nat) : Bool :=
  regions.any (fun r => bit (lget r 2 0) 31 && bit (lget r 2 0) 30 == secure && decide (lget r 0 0 ≤ a / 65536) && decide (a / 65536 ≤ lget r 1 0))

/-- The bytes of every region of a world, before or after the load, are cleared. -/
def clearWorld (before im : Image) (secure : Bool) (m : List Host.Cell) : List Host.Cell :=
  m.filter (fun c => ! inWorld before.secure.regions secure c.1 && ! inWorld im.secure.regions secure c.1)

/-- R90: MEMORY differs from that of the image before. -/
def memoryChanged (before im : Image) : Bool := before.mem.raw != im.mem.raw

/-- What a load does to HBM contents: `relight` tells a relight from a boot, whose watchdog and warm kinds clear the secure regions
too (R560). -/
def loadMemory (relight : Bool) (kind : Nat) (before im : Image) (m : List Host.Cell) : List Host.Cell :=
  if relight then (if memoryChanged before im then clearWorld before im false m else m)
  else if kind = 5 ∨ kind = 6 then
    let m1 := clearWorld before im true m
    if memoryChanged before im then clearWorld before im false m1 else m1
  else m

/-- R135: the view tables of SCHEDULES, one of 768 bytes for each tile class, and after them the correction tables of the ports are
held in HBM where MEMORY places them (log entry 112). -/
def loadViews (im : Image) (s : State) : State :=
  forUp 4 (fun g s => match tfind im.mem.viewBase g with
    | none => s
    | some base =>
      let views := 768 * im.geo.classes.length
      let s1 := placeBytes s base (slice (im.body 0x07 g) (im.schedAt 0 g) views)
      placeBytes s1 (base + views) (slice (im.body 0x07 g) (im.schedAt 1 g) (768 * 96))) s

/-! ### Application (R72) -/

/-- Steps 1 and 3: SECURE and CLOCK_POWER. -/
def Dev.loadSecure (d : Dev) : Dev :=
  let im := d.img
  let d1 := forUp 256 (fun r d => forUp 4 (fun w d => d.wr SEC_REGION.descriptor (lget (lget im.secure.regions r []) w 0) r w) d)
    (d.wr SEC_WORLD.secure im.secure.worlds)
  (((((d1.wrb GLB_PWR_STATUS.pcie im.clock.pcie).wrb GLB_PWR_STATUS.ethernet im.clock.ethernet).wrb GLB_PWR_STATUS.hbm im.clock.hbm).wr
    GLB_PWR_STATUS.quarters im.clock.quarters).wr GLB_PWR_STATUS.core 1).wr GLB_PG_PWR.groups im.clock.groups

/-- The wall ceiling that FIRESCREEN requests: the lowest that the sections of the image's wall groups ask for. -/
def Image.wallRequest (im : Image) : Nat :=
  let all := ((List.range 4).filter (fun g => (im.group g).isSome)).map (fun g => firescreenWall (im.body 0x11 g))
  all.foldl min (all.head?.getD (firescreenWall (im.body 0x11 0)))

/-- Step 2: FIRESCREEN: the effective ceilings of R57, and level 0 of every active port. -/
def Dev.loadFirescreen (d : Dev) : Dev :=
  let wall := d.img.wallRequest
  let d1 := (d.wr FSC_WALL_CEIL.ceiling wall).wr FSC_WALL_TRIM.trim wall
  forEach d1.img.activePorts (fun n d =>
    ((d.wr FSC_PORT_CEIL.ceiling (d.requestedCeil n) n).wr FSC_PORT_LEVEL.level_count (d.fscWord n 0 / 65536 % 256 - 1) n).applyLevel n 0) d1

/-- Step 4: GEOMETRY: wall groups and their generators' settings. -/
def Dev.loadGroups (d : Dev) : Dev :=
  let d1 := d.wr SCN_STATUS.configured d.allGroups
  forUp 4 (fun g d =>
    match d.img.group g with
    | none => ((d.wr SCN_CFG.configured 0 g).wr ING_STREAM_CFG.slots 0 g).wr SCN_CFG.ports 0 g
    | some c =>
      let d2 := ((((d.wr SCN_CFG.configured 1 g).wr SCN_CFG.ports (d.groupPorts g).length g).wr SCN_CFG.time_base c.timeBase g).wr
        SCN_CFG.modes c.modes.length g).wr ING_STREAM_CFG.slots c.slots g
      ((((d2.wr SCN_PHASE.phase c.phase g).wr SCN_PHASE_ACTIVE.phase c.phase g).wr SCN_MODE.pending_mode 0 g).wrb SCN_IDLE_CFG.enable
        c.idle g).modeRegs g 0) d1

/-- The port's power group is powered and the port is not disabled in OTP: it leaves OFF. -/
def Dev.portPresent (d : Dev) (n : Nat) : Bool := d.rdBit GLB_PG_PWR.groups (n / 4) && ! d.portDisabled n

/-- Steps 4 and 14: the registers of each port; every active port starts with unity gain (R59). A slice of a quarter without power
serves no port (R567). -/
def Dev.loadPorts (d : Dev) : Dev :=
  forUp 96 (fun n d =>
    let d1 := if d.portPresent n then d.wr TLK_PORT_STATE.state 1 n else d.wr TLK_PORT_STATE.state 0 n
    match d.img.port n with
    | none => ((d1.wr CMP_MAP_STATUS.absent 0 n).wrPortBit TLK_MAP_ABSENT.ports n false).wr RAY_PORT_SLICE.served 0 n
    | some c => (((((d1.wr CMP_MAP_STATUS.absent 1 n).wrPortBit TLK_MAP_ABSENT.ports n true).wrb RAY_PORT_SLICE.served
        (d1.quarterOn c.slice) n).wr
        RAY_PORT_SLICE.slice c.slice n).wr TCT_PORT_STATE.bus c.bus n).wr TCT_PORT_STATE.address c.addr n) d

/-- Steps 5 and 9: SLICE_MAP and the stream table. A quarter without power has no slice that serves a port and no spare (R567). -/
def Dev.loadSlices (d : Dev) : Dev :=
  let im := d.img
  let serving := im.geo.ports.filter (fun p => d.quarterOn p.2.slice)
  let portOf (s : Nat) : Option Nat := (serving.find? (fun p => p.2.slice == s)).map (fun p => p.1)
  let d1 := forUp 100 (fun s d =>
    match portOf s with
    | some n => (d.wr RAY_SLICE_STATUS.state 1 s).wr RAY_SLICE_STATUS.port n s
    | none => (d.wr RAY_SLICE_STATUS.state 0 s).wr RAY_SLICE_STATUS.port 0x7F s) d
  let d2 := forUp 4 (fun q d =>
    let direct := (portOf (25 * q + 24)).isSome
    let d' := (d.wrb (spareManual q) (lget im.geo.manual q false)).wrBit RAY_STATUS.spares_free q
      (d.quarterOn (25 * q) && ! direct)
    if direct then (d'.wr (spareInUse q) 1).wr (spareReplaced q) 0x1F else d') (d1.wr RAY_STATUS.active_ports serving.length)
  let es := im.streamsInForce
  forUp 16 (fun u d =>
    let l := es.filter (fun x => x.2.unit == u)
    (d.wr RAY_BF_STATUS.streams l.length u).wr RAY_BF_LOAD.load (l.foldl (fun a x => a + x.1) 0) u) d2

/-- Step 6: MEMORY. -/
def Dev.loadMemoryRegs (d : Dev) : Dev :=
  let m := d.img.mem
  let d1 := forUp 16 (fun c d => forUp 11 (fun b d => d.wr MEM_HASH.sel (lget (lget m.hash c []) b 0) c b) d) d
  let d2 := forUp 64 (fun l d =>
    let x := lget m.remap l (l, 0)
    (d.wr MEM_PCH_REMAP.physical x.1 l).wr MEM_PCH_REMAP.offset x.2 l) d1
  forUp 64 (fun p d => d.wr MEM_PCH_STATUS.state (if d.pchFailed p then 2 else if (d.pchS p).training then 1 else if (List.range 64).any (fun l => (lget m.remap l (l, 0)).1 == p)
    then 0 else 3) p) d2

/-- Step 7: the streams' initial configuration (R99). -/
def Dev.loadStreams (d : Dev) : Dev :=
  d.img.net.streams.zipIdx.foldl (fun d p =>
    (((d.wr ING_STREAM_CFG.stream_id p.1.id p.2).wr ING_STREAM_CFG.eth_mask p.1.ethMask p.2).wrb ING_STREAM_CFG.enable p.1.enable p.2).wr
      ING_STREAM_UDP.udp_port p.1.udp p.2) d

/-- The event routes and the command damper. -/
def Dev.loadRoutes (d : Dev) : Dev :=
  d.img.routes.foldl (fun d r =>
    (((d.wrb GLB_EVT_ROUTE.secure r.2.secure r.1).wrb GLB_EVT_ROUTE.toRec r.2.toRec r.1).wr GLB_EVT_ROUTE.target r.2.target r.1).wr
      GLB_EVT_ROUTE.dest r.2.dest r.1) (d.wr TWD_DAMPER.gap d.img.damper)

/-- The identity, version and margins of the running image (R63). -/
def Dev.loadIdentity (d : Dev) : Dev :=
  let im := d.img
  let worst (c : Nat) : Nat := ofS 32 ((im.budgetAll.filter (fun r => r.1 == c)).foldl
    (fun (o : Option Int) r => some (match o with | none => r.2.2.1 | some m => min m r.2.2.1)) none |>.getD 0)
  let d1 := forUp 4 (fun i d => d.wr KIN_IMAGE_ID.id (im.imageId / 2 ^ (32 * i)) i) d
  let d2 := ((d1.wr KIN_IMAGE_VER.format_major 3).wr KIN_IMAGE_VER.format_minor im.minor).wr KIN_IMAGE_VER.rollback_version im.rollback
  (((d2.wr KIN_MARGIN_PORT.margin (worst 1)).wr KIN_MARGIN_SLICE.margin (worst 2)).wr KIN_MARGIN_PCH.margin (worst 3)).wr
    KIN_MARGIN_LSTORE.margin (worst 4)

/-- Step 14: the maps that UNIFORMITY holds are placed in buffer 0 of their ports and come into force; a port whose map a relight keeps
keeps it, and its buffers stay as they are (R90, log entry 94). -/
def loadMaps (kept : Tab MapDesc) (s : State) : State :=
  s.dev.img.mapsInside.foldl (fun s x =>
    let (base, extent) := s.dev.mapBuf x.1 0
    if (tfind kept x.1).isSome ∨ s.dev.mapHeaderCode x.1 extent x.2 ≠ 0 then s
    else onDev (placeBytes s base x.2) (fun d => d.mapInForce x.1 (mapDesc 0 x.2))) s

/-- R72, R347: every stoker is loaded and released, the supervisor first, whose hearth locks of an earlier run are abandoned (R89, R459);
the heartbeat timer starts. A store of the earlier run that is still posted takes effect after the release (log entry 152). -/
def Dev.releaseStokers (d : Dev) : Dev :=
  let core (w : FwCfg) : StkCore :=
    { StkCore.init with run := 1, released := d.ticks, kicked := d.ticks,
                        mem := (w.image.zipIdx.filter (fun b => b.1 != 0)).map (fun b => (b.2, b.1)) }
  let d0 := d.abandonLocks 0
  let d1 : Dev := { d0 with stk := { d0.stk with cores := [] } }
  let d2 := forUp 64 (fun n d => (match tfind d.img.fw n with
    | some w => d.setCore n (core w)
    | none => d.setCore n StkCore.init).wr STK_STOKER_WDT.period_ms (((tfind d.img.fw n).map FwCfg.wdtMs).getD 0) n) d1
  ({ d2 with kin := { d2.kin with supReady := false, released := d.ticks } } : Dev).hbStart

/-- The working state of the data-path blocks starts afresh. -/
def Dev.freshDataPath (d : Dev) : Dev :=
  { d with ing := [], ltab := [], ray := Dev.reset.ray, cmp := Dev.reset.cmp, scn := [], link := [], fsc := Dev.reset.fsc }

/-- R11, R48, R73: the registers of the data-path blocks take their Reset entries, and no latch of their words stands. -/
def Dev.resetDataPath (d : Dev) : Dev :=
  forEach [2, 3, 4, 6, 17] (fun b d => (d.resetRegs (b * 2 ^ 20) (2 ^ 20)).dropLatches b) d.freshDataPath

/-- CLOCK_POWER changes domain k's frequency; the domains stand in the order of the domain table. -/
def clockMoved (before im : Image) (k : Nat) : Bool := lget before.clock.freq k 0 != lget im.clock.freq k 0

/-- R92: what of NETWORK a relight sets afresh: the Ethernet ports (domains 24 to 27) and time bases (42 to 45) whose clock, power or
settings change, and the queues whose settings change. -/
def networkTaken (before im : Image) : NetTake :=
  { eth := maskUp 4 (fun e => clockMoved before im (24 + e) || before.clock.ethernet != im.clock.ethernet ||
      decide (before.net.eth[e]? ≠ im.net.eth[e]?)),
    queues := maskUp 16 (fun q => decide (before.net.queues[q]? ≠ im.net.queues[q]?)),
    tbs := maskUp 4 (fun b => clockMoved before im (42 + b) || decide (before.net.tbs[b]? ≠ im.net.tbs[b]?)),
    event := before.net.eventTb != im.net.eventTb }

/-- R475: what of NETWORK a boot sets: all of it, the time bases only after power-on and cold reset. -/
def networkAll (cold : Bool) : NetTake := { eth := 15, queues := 0xFFFF, tbs := if cold then 15 else 0, event := true }

/-- R90: the maps in force that stay valid across a relight with MEMORY unchanged. -/
def keptMaps (relight : Bool) (before im : Image) (d : Dev) : Tab MapDesc :=
  if relight && ! memoryChanged before im then d.cmp.force.filter (fun x => (im.port x.1).isSome) else []

/-- R72: the image is applied. `take` tells what of NETWORK is set; `fails` are the slices that fail their self-test (R167). -/
def applyImage (s : State) (im : Image) (relight : Bool) (take : NetTake) (fails : List Nat) : State :=
  let before := if relight then s.dev.img else s.dev.kin.before
  let kept := keptMaps relight before im s.dev
  let s1 := { s with hbm := loadMemory relight s.dev.kin.bootKind before im s.hbm }
  let s2 := onDev s1 (fun d =>
    let d1 : Dev := { d.resetDataPath with img := im, loaded := true }
    let d2 := d1.loadSecure.loadFirescreen.loadGroups.loadPorts.loadSlices.loadMemoryRegs.loadStreams
    let d4 := (d2.initNetwork take).initTimeBases take
    ((d4.arbiterRegs im.arb).initArbiters).loadRoutes.loadIdentity)
  let s3 := onDev (loadMaps kept (loadViews im s2)) (fun d => forEach kept (fun x d => d.mapInForce x.1 x.2) d)
  onDev s3 (fun d =>
    let d1 := (d.initRings.selfTest fails)
    let d2 := forUp 4 (fun e d => if d.ethUp e || ! take.eth.testBit e then d else d.ethNegotiate e) d1
    let d3 := (forUp 4 (fun g d => d.startGenerator g) d2.releaseStokers).linesStep s.dev
    ({ d3 with glb := { d3.glb with held := 0, phase := .run }, kin := { d3.kin with cand := none, staged := [], patches := [] } } : Dev).liveRegs)

/-- KIN_STATUS of the running slot, discovery (R305), and LOAD_DONE. -/
def Dev.loadDone (d : Dev) (slot state : Nat) : Dev :=
  ((((d.wr KIN_STATUS.slot slot).wrb KIN_STATUS.trial (d.slotState slot == slotTrial)).wr KIN_STATUS.state state).discover).raise 32

/-- A boot's application completes (R72, R475, R570). -/
def loadApplied (s : State) (fails : List Nat) : State :=
  match s.dev.glb.phase, s.dev.kin.cand with
  | .apply, some im =>
    let k := s.dev.kin.bootKind
    let s1 := applyImage s im false (networkAll (k != 5 && k != 6)) fails
    onDev s1 (fun d => d.loadDone d.kin.source 3)
  | _, _ => s

/-! ### Relight (R83 to R96) -/

/-- A relight starts on a slot (R83, R94); a fallback goes on under the relight_start of the relight that it replaces. -/
def Dev.startRelight (d : Dev) (slot : Nat) (fallback : Bool) : Dev :=
  let from_ := if fallback then (d.kin.relight.map (fun r => r.started)).getD d.ticks else d.ticks
  (({ d with kin := { d.kin with relight := some { target := slot, started := from_, fallback := fallback, blackDone := 0, trained := false }, cand := none } } :
    Dev).wr KIN_STATUS.state (if fallback then 5 else 4)).relightStep 1

/-- R83, R85: the relight ends with the wall unaffected; one that a device in HALTED began leaves it there, and after an abort in a
fallback frames are admitted again (log entries 37, 38). -/
def Dev.dropRelight (d : Dev) : Dev :=
  let d1 := d.holdElapsed
  (({ d1 with kin := { d1.kin with relight := none, cand := none, noAdmit := false } } : Dev).wr KIN_STATUS.state
    (if d.glb.phase = .halted then 0xF else 3)).relightStep 0

/-- An abort or a relight start is ignored (R85, R96). -/
def Dev.abortIgnored (d : Dev) : Dev := d.count KIN_ABORT_IGNORED_CNT.sat KIN_ABORT_IGNORED_CNT.count

/-- KIN_CTRL.abort_relight (R85). -/
def Dev.abortRelight (d : Dev) : Dev :=
  match d.kin.relight with
  | some _ => if d.rd KIN_RELIGHT.step = 1 then d.dropRelight else d.abortIgnored
  | none => d.abortIgnored

/-- KIN_CTRL.relight_start (R86, R96, R506), in a running device and in one that has halted (log entry 37). -/
def Dev.relightStart (d : Dev) (barred : Bool) : Dev :=
  let slot := d.rd KIN_CTRL.slot_select
  if d.kin.relight.isSome then d.abortIgnored
  else if barred then d.loadReject 0x0E 0
  else if d.slotState slot = 0 ∨ d.slotState slot = slotBad then d.loadReject 0x14 0
  else if d.glb.phase = .run ∨ d.glb.phase = .halted then d.startRelight slot false
  else d

/-- KIN_CTRL.confirm_good (R70). -/
def Dev.confirmGood (d : Dev) : Dev :=
  let slot := d.rd KIN_STATUS.slot
  if d.glb.phase = .run ∧ d.slotState slot = slotTrial then
    (d.journalState slot slotGood (d.slotTrials slot)).wr KIN_STATUS.trial 0
  else d

/-- A write of KIN_CTRL: slot_select is stored, then abort, confirmation and start are acted on. -/
def kinWrite (v : Nat) (s : State) : State :=
  onDev s (fun d =>
    let d1 := d.wrb KIN_CTRL.slot_select (bit v 4)
    let d2 := if bit v 1 then d1.abortRelight else d1
    let d3 := if bit v 8 then d2.confirmGood else d2
    if bit v 0 then d3.relightStart (loadBarred s.otp) else d3)

/-- R84, R87: the new image is accepted: RELIGHT_BEGIN, and admission stops. -/
def Dev.beginDrain (d : Dev) (r : Relight) (im : Image) : Dev :=
  let d1 := (d.journal 1 r.target 0 0 im.imageId im.rollback).hbSuspend
  let d2 := ({ d1 with kin := { d1.kin with cand := some im, noAdmit := true } } : Dev).relightStep 2
  if (List.range 4).any d2.started then d2.relightBlank else (d2.relightStep 3).relightDischarge

/-- RELIGHT_VERIFY_DONE (R83, R84): a rejected image leaves the wall as it is; in a fallback the device then halts (R68). -/
def relightVerified (s : State) : State :=
  match s.dev.kin.relight with
  | none => s
  | some r =>
    if s.dev.rd KIN_RELIGHT.step ≠ 1 then s
    else
      let out (code sect : Nat) : State := onDev s (fun d =>
        let d1 := d.loadReject code sect
        if r.fallback then (d1.journalState r.target slotBad (d1.slotTrials r.target)).halt else d1.dropRelight)
      if loadBarred s.otp then out 0x0E 0
      else match verifyImage s (tget s.flash r.target []) with
      | .reject code sect => out code sect
      | .accept im => onDev s (fun d => d.beginDrain r im)

/-- R91: CLOCK_POWER changes the clock of stack k's PHY or controller (domains 28, 29 and 30, 31). -/
def hbmClockChanged (before im : Image) (k : Nat) : Bool := clockMoved before im (28 + k) || clockMoved before im (30 + k)

/-- R91, R379: the application still waits for the boot training of a stack whose clock changes. -/
def Dev.trainingDue (d : Dev) : Bool :=
  match d.kin.relight, d.kin.cand with
  | some r, some im => d.rd KIN_RELIGHT.step == 5 && ! r.trained && (hbmClockChanged d.img im 0 || hbmClockChanged d.img im 1)
  | _, _ => false

/-- RELIGHT_APPLY_DONE (R89 to R91): the new image stands and the stokers are released. -/
def relightApplied (s : State) (fails : List Nat) : State :=
  match s.dev.kin.relight, s.dev.kin.cand with
  | some r, some im =>
    if s.dev.rd KIN_RELIGHT.step ≠ 5 ∨ s.dev.trainingDue then s
    else
      let s1 := applyImage s im true (networkTaken s.dev.img im) fails
      onDev s1 (fun d => (d.relightStep 6).loadDone r.target (if r.fallback then 5 else 4))
  | _, _ => s

/-- R94: the target slot is BAD, the running one too where it is that slot (R97), and the device relights into the latest GOOD slot; with none it halts. -/
def Dev.fallBack (d : Dev) (r : Relight) : Dev :=
  let d1 := (d.journalState r.target slotBad (d.slotTrials r.target)).journal 2 r.target 0 0 0 0
  let d2 := (d1.wrb KIN_STATUS.trial (d1.slotState (d1.rd KIN_STATUS.slot) == slotTrial)).raise 36
  match d2.bestGood with
  | none => d2.halt
  | some slot => d2.startRelight slot true

/-- The clocks of the image in application are in force: CLOCK_POWER has been applied when its training fails (R72, R91, R94). -/
def Dev.clockTaken (d : Dev) : Dev :=
  match d.kin.cand with
  | some im => { d with img := { d.img with clock := { d.img.clock with freq := im.clock.freq } } }
  | none => d

/-- SUPERVISOR_READY_TIMEOUT (R94): HBM training fails while the image is applied, or no report within 5 s of the supervisor's
release. -/
def Dev.readyTimeout (d : Dev) : Dev :=
  match d.kin.relight with
  | none => d
  | some r =>
    if d.trainingDue then
      (({ d with glb := { d.glb with held := 0 } } : Dev).clockTaken).fallBack r
    else if d.rd KIN_RELIGHT.step = 6 ∧ d.kin.supReady = false then (d.waitTick (d.kin.released + msTicks 5000)).fallBack r
    else d

/-! ### Live patches (R75 to R80) -/

/-- R80: an earlier staged patch still waits to bring one of these sections into one of these groups; one for the whole device
wherever it waits (R392). -/
def Dev.clashes (d : Dev) (new old : Staged) : Bool :=
  old.sections.any (fun x => new.sections.any (fun y => x.id == y.id &&
    (if deviceWide x.id then old.wide.any old.groups.testBit
     else (old.groups &&& d.patchGroups old.wide [x] &&& new.groups &&& d.patchGroups new.wide [y]) != 0)))

/-- A superseded patch is dropped from the staged patches, and never applied (R80): a latched set that holds it finds it gone. -/
def Dev.supersede (d : Dev) (p : Staged) : Dev :=
  let d1 : Dev := { d with kin := { d.kin with staged := d.kin.staged.filter (fun q => q.num != p.num) } }
  (d1.count KIN_LIVE_SUPERSEDED_CNT.sat KIN_LIVE_SUPERSEDED_CNT.count).raise 39

/-- R77, R392: a verified patch is staged. Sections for the whole device take effect at once while no wall group has started. -/
def Dev.stagePatch (d : Dev) (seq : Nat) (secs : List ImgSection) : Dev :=
  let now : ImgSection → Bool := fun x => deviceWide x.id && d.lowestStarted.isNone
  let d1 := forEach (secs.filter now) (fun x d => d.takeWide x) { d with kin := { d.kin with nextPatch := d.kin.nextPatch + 1 } }
  let rest := secs.filter (fun x => ! now x)
  let p : Staged := { num := d.kin.nextPatch, patchSeq := seq, sections := rest, groups := d1.patchGroups d.lowestStarted rest,
                      wide := d.lowestStarted }
  let d2 := forEach (d1.kin.staged.filter (fun q => d1.clashes p q)) (fun q d => d.supersede q) d1
  if p.groups = 0 then d2.patchDone p
  else ({ d2 with kin := { d2.kin with staged := d2.kin.staged ++ [p] } } : Dev).liveRegs

/-- A patch is rejected whole (R75). -/
def Dev.patchReject (d : Dev) (code sect : Nat) : Dev :=
  ((d.kinErr code sect true).count KIN_LIVE_REJECT_CNT.sat KIN_LIVE_REJECT_CNT.count).raise 38

/-- LIVE_PATCH_VERIFIED (R76, R77): the oldest patch submitted is staged or rejected. -/
def patchVerified (s : State) : State :=
  match s.dev.kin.patches with
  | [] => s
  | b :: rest =>
    let s1 := onDev s (fun d => { d with kin := { d.kin with patches := rest } })
    match verifyPatch s1 b with
    | .reject code sect => onDev s1 (fun d => d.patchReject code sect)
    | .accept im => onDev s1 (fun d => d.stagePatch (imgPatchSeq b) im.sections)

/-- LIVE_PATCH_SUBMIT (R75, R96): a patch arrives from the secure world; during a relight it is rejected at once. -/
def Dev.patchSubmit (d : Dev) (b : List Byte) : Dev :=
  if d.kin.relight.isSome then d.patchReject 0x12 0 else { d with kin := { d.kin with patches := d.kin.patches ++ [b] } }

/-! ### Flash writes (R69, R96, R563) -/

/-- R69, R96: slot may be written now. -/
def Dev.flashOk (d : Dev) (slot : Nat) (b : List Byte) : Bool :=
  decide (slot < 2) && decide (b.length ≤ 125829120) && d.kin.relight.isNone && d.kin.flashRun.isNone && ! d.glb.failPin &&
  ! (d.loaded && d.rd KIN_STATUS.slot == slot) && ! ((d.glb.phase == .verify || d.glb.phase == .apply) && d.kin.source == slot) &&
  ! (d.slotState slot == slotGood && d.slotState (1 - slot) != slotGood)

/-- R563: a write begins: the slot is EMPTY from here on, whatever its bytes. -/
def flashBegin (slot : Nat) (b : List Byte) (s : State) : State :=
  if s.dev.flashOk slot b then
    onDev { s with flash := tput s.flash slot [] } (fun d =>
      let d1 := d.journalState slot 0 0
      { d1 with kin := { d1.kin with flashRun := some (slot, b) } })
  else s

/-- R563: a write ends; `ok` tells whether the slot reads back as written. -/
def flashEnd (ok : Bool) (s : State) : State :=
  match s.dev.kin.flashRun with
  | none => s
  | some (slot, b) =>
    let s1 := onDev s (fun d => { d with kin := { d.kin with flashRun := none } })
    if ok then onDev { s1 with flash := tput s1.flash slot b } (fun d => d.journal 0 slot slotTrial 0 (imgId b) (imgRollback b)) else s1

/-! ### The commands -/

/-- The kindling loader has power and is not held in reset. -/
def Dev.kinRuns (d : Dev) : Bool := d.rdb GLB_PWR_STATUS.core && ! d.blockHeld 1

/-- R374: boot training of the stacks due ends: each of their pseudo-channels has a margin that the manual does not give (log entry 95), and
those named in `fails` have none and enter the failed set. -/
def Dev.bootTrained (d : Dev) (due : Nat → Bool) (fails : List Nat) : Dev :=
  forUp 64 (fun p d =>
    if due (p / 32) = false then d
    else
      let bad := fails.contains p
      let d1 := (d.setPch p { d.pchS p with lastRun := some d.ticks }).wr MEM_TRAIN_STATUS.margin (if bad then 0 else 1 + d.freeVal 16 % 255) p
      if bad then d1.failPch p else d1.nextFree) (d.wr MEM_STATUS.trained 3)

/-- HBM_BOOT_TRAINING_DONE (R374, R379): boot training ends, the pseudo-channels named with no passing margin; the boot choice follows,
or in a relight the application goes on: single pseudo-channels without a margin are no failed training (R94, log entry 127). -/
def execHbmBootTrainingDone (fails : List Nat) (s : State) : Res :=
  if s.dev.glb.phase = .waitTraining then .next (bootChoice (onDev s (fun d => d.bootTrained (fun _ => true) fails)))
  else match s.dev.kin.relight, s.dev.kin.cand with
    | some r, some im =>
      if s.dev.trainingDue then
        nextDev s (fun d =>
          let d1 := d.bootTrained (fun k => hbmClockChanged d.img im k) fails
          { d1 with kin := { d1.kin with relight := some { r with trained := true } } })
      else .next s
    | _, _ => .next s

/-- LOAD_VERIFY_DONE (R71). -/
def execLoadVerifyDone (s : State) : Res := .next (loadVerified s)

/-- LOAD_APPLY_DONE (R72); `fails` are the slices whose self-test fails. -/
def execLoadApplyDone (fails : List Nat) (s : State) : Res := .next (loadApplied s fails)

/-- RELIGHT_VERIFY_DONE (R84). -/
def execRelightVerifyDone (s : State) : Res := .next (if s.dev.kinRuns then relightVerified s else s)

/-- RELIGHT_APPLY_DONE (R89). -/
def execRelightApplyDone (fails : List Nat) (s : State) : Res :=
  .next (if s.dev.kinRuns then relightApplied s fails else s)

/-- SUPERVISOR_READY_TIMEOUT (R94). -/
def execSupervisorReadyTimeout (s : State) : Res := nextDev s (fun d => if d.kinRuns then d.readyTimeout else d)

/-- R69, R75: what reaches the loader from the secure world does so through the secure mailbox, which in RETIRED reaches the OTP read-out and
recorder export only (R505), or as the producer of a secure ring. -/
def Dev.secureSender (d : Dev) (who : Initiator) : Bool :=
  d.reaches who && d.secureOf who && (match who with
    | .stoker _ | .posted _ _ => true
    | .mailbox => d.lifecycle != 3
    | .bar0 | .jtag | .engine _ => false)

/-- LIVE_PATCH_SUBMIT (R75): through a secure ring or the mailbox. -/
def execLivePatchSubmit (who : Initiator) (b : List Byte) (s : State) : Res :=
  nextDev s (fun d => if d.kinRuns && d.secureSender who then d.patchSubmit b else d)

/-- LIVE_PATCH_VERIFIED (R77). -/
def execLivePatchVerified (s : State) : Res := .next (if s.dev.kinRuns then patchVerified s else s)

/-- FLASH_SLOT_WRITE (R69): by the secure world, through the mailbox or a secure ring. -/
def execFlashSlotWrite (who : Initiator) (slot : Nat) (b : List Byte) (s : State) : Res :=
  .next (if s.dev.kinRuns && s.dev.secureSender who then flashBegin slot b s else s)

/-- FLASH_WRITE_DONE (R563). -/
def execFlashWriteDone (ok : Bool) (s : State) : Res := .next (if s.dev.kinRuns then flashEnd ok s else s)

end Sys2Proof.Machine
end

