-- ==== Sys2Proof/Machine/Reset.lean ====
section
/-!
DEFINITION. Device-level resets, boot, smoulder exit, power failure, thermal trip, reference clocks and the PCIe link
(15_reset_power_faults.md R558 to R576, 16_pins_electrical.md R585, R586).
-/
namespace Sys2Proof.Machine

/-! ### What a reset keeps (R558, R561) -/

/-- Watchdog and warm resets. -/
def softKind (kind : Nat) : Bool := kind == 5 || kind == 6

/-- The register cell of the failed set, at offset o of MEM and bit lo, with the value v it holds: MEM_STATUS.failed, MEM_PCH_FAILED and a
pseudo-channel's state while it is failed (R381, R382); a state of another value is MEMORY's (R393, R11). -/
def failedCell (v o lo : Nat) : Bool :=
  (o == 0x10 && lo == MEM_STATUS.failed.lo) || (decide (0x20 ≤ o) && decide (o < 0x28)) ||
  (decide (0x10000 ≤ o) && o % 0x100 == 0 && lo == MEM_PCH_STATUS.state.lo && v == 2)

/-- The register cell of HBM training: MEM_STATUS.trained and the margins of MEM_TRAIN_STATUS. -/
def trainedCell (o lo : Nat) : Bool :=
  (o == 0x10 && lo == MEM_STATUS.trained.lo) || (decide (0x10000 ≤ o) && o % 0x100 == 4 && lo == MEM_TRAIN_STATUS.margin.lo)

/-- The register cell of a kiln correction in force: the swing and termination codes of KLN_PG_STATUS. -/
def kilnCell (b o lo : Nat) : Bool :=
  b == 16 && decide (0x300 ≤ o) && decide (o < 0x360) && (lo == KLN_PG_STATUS.swing.lo || lo == KLN_PG_STATUS.term.lo)

/-- The register cell with this key keeps its value v through a reset of this kind: in watchdog and warm resets the power state and the
power-fail count, HBM training and the failed set, the time bases and the Ethernet links; in a warm reset the recorder and the kiln
corrections too; in a smoulder exit GLB, TCT and the failed set, which only the cold kinds clear (R382). -/
def regKept (kind key v : Nat) : Bool :=
  let a := key / 32
  let b := blockOf a
  let o := a % 2 ^ 20
  if kind = 8 then b == 0 || b == 7 || (b == 8 && failedCell v o (key % 32))
  else if softKind kind then
    (b == 0 && ((0x220 ≤ o && o ≤ 0x224) || o == 0x234 || o == 0x250)) ||
    (b == 8 && (failedCell v o (key % 32) || trainedCell o (key % 32))) ||
    (b == 13 && ((0x3000 ≤ o && o < 0x4000) || (0x1000 ≤ o && o < 0x2000 && o % 0x400 < 8))) ||
    (kind == 6 && (b == 15 || kilnCell b o (key % 32)))
  else false

/-- The state that a reset of this kind leaves: what R558 keeps of d, and all else as after power-on; the device is held in reset. -/
def Dev.cleared (d : Dev) (kind : Nat) : Dev :=
  let r := Dev.reset
  let soft := softKind kind
  { r with
    regs := d.regs.filter (fun c => regKept kind c.1 (tget d.regs c.1 0))
    ticks := d.ticks
    free := d.free
    out := d.out
    peat := d.peat
    evr := if kind = 6 then d.evr else r.evr
    sec := { r.sec with expKey := if soft then d.sec.expKey else none }
    kln := if kind = 6 then { r.kln with codes := d.kln.codes, moved := d.kln.moved } else r.kln
    kin := { r.kin with before := if soft then (if d.loaded then d.img else d.kin.before) else Image.blank, bootKind := kind }
    glb := { r.glb with phase := .held, heldBy := d.glb.heldBy, failPin := d.glb.failPin, clocksLost := d.glb.clocksLost }
    bus := if kind = 8 then d.bus else []
    tct := if kind = 8 then d.tct else []
    pch := if soft then d.pch.map (fun p => (p.1, { Pch.init with lastRun := p.2.lastRun })) else []
    stk := ⟨[], kind == 6 && d.stk.pcieUp, 0⟩
    net := { r.net with tbs := if soft then d.net.tbs else [] } }

/-- R587: the forward lanes stop and the timed outputs go low. -/
def Dev.pinsQuiet (d : Dev) : Dev :=
  (forEach d.img.activePorts (fun n d => if 2 ≤ d.linkState n then d.emit (.lanes n 0) else d) d).pinsLow

/-- R559: DISCHARGE to every tile of every bus. -/
def Dev.broadcastDischarge (d : Dev) : Dev := forUp 12 (fun m d => d.mgmtSend m 0 0x13 []) d

/-- R65: a reset that cuts the power leaves the journal entry in writing torn, the action it records not begun; one that empties a slot
has begun it (log entry 96). -/
def Dev.tearEntry (d : Dev) : Dev :=
  match d.peat.journal.reverse with
  | [] => d
  | e :: rest =>
    if e.kind = 0 ∧ e.state = 0 then d
    else { d with peat := { d.peat with journal := (({ e with intact := false } : JEntry) :: rest).reverse } }

/-! ### Boot (R566) -/

/-- R575: the references that the clock monitor finds present. -/
def Dev.clockRegs (d : Dev) : Dev :=
  let up (k : Nat) : Bool := ! d.glb.clocksLost.testBit k
  (((d.wrb GLB_CLK_STATUS.system (up 6)).wrb GLB_CLK_STATUS.pcie (up 5)).wrb GLB_CLK_STATUS.ethernet (up 4)).wr GLB_CLK_STATUS.tile
    (maskUp 4 up)

/-- R541, R561, R562, R566: POWER_ON with the reset kind, after the end search except in a warm reset; it is written before the boot goes on,
with every record queued before it. -/
def Dev.bootRecord (d : Dev) (kind : Nat) : Dev :=
  (if kind = 6 then d.deviceRec 554 kind [d.word true EVR_STATUS.ent 0 0] else d.endSearch kind).flushQueue

/-- R566 from its first step: OTP, recorder, kiln, and then boot training, or in watchdog and warm resets the boot choice. -/
def bootUp (k : KilnReadings) (s : State) : State :=
  let kind := s.dev.kin.bootKind
  let s1 := refreshOtp (onDev s (fun d => { d with glb := { d.glb with phase := .waitTraining } }))
  let s1 := if softKind kind then s1 else deriveExport s1
  let s2 := onDev s1 (fun d => (d.clockRegs).bootRecord kind)
  let s2 := if kind = 1 then consumedRecords s2 else s2
  let s3 := onDev s2 (fun d => ((d.slotReg 0).slotReg 1).countTrial)
  if softKind kind then bootChoice s3 else onDev s3 (fun d =>
    d.kilnBoot ((List.range 24).map (fun i => tget s3.otp (232 + i) 0)) k.res k.bias k.temps k.mons k.groups)

/-! ### A device-level reset -/

/-- The kind of boot that a reset leads to: smoulder ends with kind 0x8 (R570). -/
def Dev.kindNow (d : Dev) (kind : Nat) : Nat := if d.glb.phase = .smoulder then 8 else kind

/-- GLB_RESET_STATUS and GLB_SMOULDER_STATUS (R562, R570): `wake` is the source of a smoulder exit. -/
def Dev.resetStatus (d : Dev) (kind wake : Nat) (inRelight inOtp : Bool) : Dev :=
  let d1 := ((d.wr GLB_RESET_STATUS.kind kind).wrb GLB_RESET_STATUS.in_relight inRelight).wrb GLB_RESET_STATUS.in_otp inOtp
  if kind = 8 then (d1.wr GLB_SMOULDER_STATUS.wake wake).wr GLB_PWR_STATUS.core 1 else d1

/-- R382: a cold reset met in smoulder clears the failed set, which every other smoulder exit keeps. -/
def Dev.dropFailed (d : Dev) (kind0 : Nat) : Dev :=
  if softKind kind0 ∨ kind0 = 8 then d
  else { d with regs := d.regs.filter (fun c => ! (blockOf (c.1 / 32) == 8 && failedCell 2 (c.1 / 32 % 2 ^ 20) (c.1 % 32))) }

/-- A reset of one of R558's kinds: what it meets is dealt with, state is lost, and the boot starts unless a cause still holds the
reset. Watchdog and warm resets clear the secure regions of the image that ran (R560). The OTP
read-out, in the always-on domain, stands throughout (R567). -/
def deviceReset (kind0 wake : Nat) (b : BootCircs) (s : State) : State :=
  let d := s.dev
  let kind := d.kindNow kind0
  let s1 := match b.torn with
    | some k => if kind = 1 ∨ kind = 2 then onDev s (fun d => d.tearWrite k) else s
    | none => s
  let s1 := if b.tornEntry ∧ (kind = 1 ∨ kind = 2) then onDev s1 Dev.tearEntry else s1
  let s2 := otpInterrupt b.fuses s1
  let s3 := if 3 ≤ kind ∧ kind ≤ 6 ∧ ¬ (kind = 3 ∧ d.glb.failPin = true) then onDev s2 Dev.broadcastDischarge else s2
  let run := if d.loaded then d.img else d.kin.before
  let s4 : State := { s3 with hbm := if softKind kind then clearWorld run run true s3.hbm else [] }
  let s5 := onDev s4 (fun e => ((e.pinsQuiet.cleared kind).dropFailed kind0).resetStatus kind wake d.kin.relight.isSome d.sec.otp.isSome)
  let s6 := refreshOtp s5
  if s6.dev.glb.heldBy = 0 then bootUp b.kiln s6 else s6

/-- R435: the watchdog reset. -/
def watchdogReset (fuses : Nat) (s : State) : State :=
  deviceReset 5 0 { fuses := fuses, torn := none, tornEntry := false, kiln := ⟨0, 0, [], [], []⟩ } s

/-- A cause of a held reset ends; the boot starts when it was the last. -/
def releaseHold (cause : Nat) (k : KilnReadings) (s : State) : State :=
  if s.dev.glb.heldBy.testBit cause then
    let s1 := onDev s (fun d => { d with glb := { d.glb with heldBy := d.glb.heldBy - 2 ^ cause } })
    if s1.dev.glb.heldBy = 0 then bootUp k s1 else s1
  else s

/-- A write of GLB_RESET_CTRL (R558, R578): cold wins over warm, and a wrong key is ignored. -/
def resetCtrlWrite (v : Nat) (b : BootCircs) (s : State) : State :=
  if v % 65536 ≠ 0x0A5C then s
  else if bit v 31 then deviceReset 4 3 b s
  else if bit v 30 then deviceReset 6 3 b s
  else s

/-! ### Power failure (R572, R573, R586) -/

/-- R572: the power-fail sequence. -/
def Dev.powerFailed (d : Dev) : Dev :=
  let d1 := d.broadcastDischarge
  let d2 := forEach d1.img.activePorts (fun n d =>
    if d.lit n then (d.setPstate n 4).setCtl n { d.ctl n with step := 0, discharge := 4 } else d) d1
  let d3 : Dev := { d2 with kin := { d2.kin with flashRun := none } }
  ((d3.raise 0).count GLB_PWRFAIL_CNT.sat GLB_PWRFAIL_CNT.count).powerFailFlush

/-- A power-fail warning: in smoulder, and in a clock reset that ended it, the tiles are discharged and nothing else happens (R569, R570). -/
def Dev.warning (d : Dev) : Dev :=
  if d.glb.failPin then d
  else
    let d1 : Dev := { d with glb := { d.glb with failPin := true, warned := true, warnTick := d.ticks } }
    match d.glb.phase with
    | .smoulder => d1.broadcastDischarge
    | .held => if d.polling then d1.broadcastDischarge else d1
    | _ => d1.powerFailed

/-! ### Reference clocks (R575, R576) -/

/-- R576: a port whose tile reference is lost goes to DOWN and waits for its return. -/
def Dev.refDown (d : Dev) (n : Nat) : Dev :=
  if d.linkState n < 2 then d
  else
    let d1 := d.downRequest n
    d1.setLnk n { d1.lnk n with held := false, await := true, wasUp := true }

/-- R576, R268: the reference is back and the port retrains. -/
def Dev.refBack (d : Dev) (n : Nat) : Dev :=
  if d.linkState n = 1 ∧ (d.lnk n).await then (d.setLnk n { d.lnk n with wasUp := true }).retrain n else d

/-- The bit of a reference in clocksLost and in GLB_CLK_STATUS: tile references 0 to 3, 4 Ethernet, 5 PCIe, 6 system. -/
def Dev.clockBit (d : Dev) (r : Nat) (lost : Bool) : Dev :=
  let m := d.glb.clocksLost
  let m' := if lost then m ||| 2 ^ r else clearBits m (2 ^ r)
  ({ d with glb := { d.glb with clocksLost := m' } } : Dev).clockRegs

/-- CLOCK_FAULT's effects on reference r, the system reference apart. -/
def Dev.clockLost (d : Dev) (r : Nat) : Dev :=
  let d1 := (d.clockBit r true).raise 2
  if r < 4 then forUp 24 (fun k d => d.refDown (24 * r + k)) d1
  else if r = 4 then forUp 4 (fun e d => if d.ethUp e then d.ethDown e else d) d1
  else if r = 5 then d1.pcieLoss
  else d1

/-- CLOCK_RESTORED's effects on reference r, the system reference apart. -/
def Dev.clockBack (d : Dev) (r : Nat) : Dev :=
  let d1 := (d.clockBit r false).raise 3
  if r < 4 then forUp 24 (fun k d => d.refBack (24 * r + k)) d1
  else if r = 4 then forUp 4 (fun e d => d.ethNegotiate e) d1
  else d1

/-- R575, R576: reference r is lost. Loss of the system reference is a clock reset that lasts until its return; in smoulder it is a smoulder
exit, which sends no DISCHARGE (R559, R570). -/
def clockFault (r fuses : Nat) (s : State) : State :=
  if 6 < r ∨ s.dev.glb.clocksLost.testBit r then s
  else
    let s1 := onDev s (fun d => d.clockLost r)
    if r = 6 then
      deviceReset 9 3 ⟨fuses, none, false, ⟨0, 0, [], [], []⟩⟩ (onDev s1 (fun d =>
        let d1 := if d.glb.phase = .smoulder then d else d.broadcastDischarge
        { d1 with glb := { d1.glb with heldBy := d1.glb.heldBy ||| 2 ^ 9 } }))
    else s1

/-- R575, R576: reference r is back. -/
def clockRestored (r : Nat) (k : KilnReadings) (s : State) : State :=
  if 6 < r ∨ s.dev.glb.clocksLost.testBit r = false then s
  else
    let s1 := onDev s (fun d => d.clockBack r)
    if r = 6 then releaseHold 9 k s1 else s1

/-! ### Thermal trip (R574) -/

/-- R574: a trip writes DIE_HOT, broadcasts DISCHARGE and holds the device in thermal reset. -/
def thermalTrip (fuses : Nat) (s : State) : State :=
  if s.dev.glb.heldBy.testBit 7 ∨ s.dev.rdb GLB_PWR_STATUS.core = false then s
  else
    let hold (d : Dev) : Dev := { d with glb := { d.glb with heldBy := d.glb.heldBy ||| 2 ^ 7 } }
    if s.dev.glb.phase = .held then onDev s hold
    else deviceReset 7 3 ⟨fuses, none, false, ⟨0, 0, [], [], []⟩⟩ (onDev s (fun d => hold (((d.raise 580 true).flushQueue.settleNewest).broadcastDischarge)))

/-! ### The commands -/

/-- POWER_ON_RESET (R558, R566, R585). -/
def execPowerOnReset (b : BootCircs) (s : State) : Res := .next (deviceReset 1 3 b s)

/-- BROWN_OUT (R558, R586). -/
def execBrownOut (b : BootCircs) (s : State) : Res := .next (deviceReset 2 3 b s)

/-- COLD_PIN_RESET (R558, R586). -/
def execColdPinReset (b : BootCircs) (s : State) : Res := .next (deviceReset 3 3 b s)

/-- THERMAL_TRIP (R574). -/
def execThermalTrip (fuses : Nat) (s : State) : Res := .next (thermalTrip fuses s)

/-- THERMAL_RELEASE (R574). -/
def execThermalRelease (k : KilnReadings) (s : State) : Res := .next (releaseHold 7 k s)

/-- CLOCK_FAULT (R575, R576). -/
def execClockFault (r fuses : Nat) (s : State) : Res := .next (clockFault r fuses s)

/-- CLOCK_RESTORED (R575, R576). -/
def execClockRestored (r : Nat) (k : KilnReadings) (s : State) : Res := .next (clockRestored r k s)

/-- WAKE_PIN (R570, R586): ignored while POWER_FAIL_N is low. -/
def execWakePin (b : BootCircs) (s : State) : Res :=
  .next (if s.dev.glb.phase = .smoulder ∧ s.dev.glb.failPin = false then deviceReset 8 1 b s else s)

/-- SMOULDER_WAKE_TIMER (R570, R586): the timer expires; the exit waits while POWER_FAIL_N is low. -/
def execSmoulderWakeTimer (b : BootCircs) (s : State) : Res :=
  .next (
    let w := s.dev.rd GLB_SMOULDER_CTRL.wake_s
    if s.dev.glb.phase = .smoulder ∧ w ≠ 0 then
      let s1 := onDev s (fun d => d.waitTick (d.glb.smoulderTick + msTicks (1000 * w)))
      if s1.dev.glb.failPin then onDev s1 (fun d => { d with glb := { d.glb with wakeWait := true } }) else deviceReset 8 2 b s1
    else s)

/-- POWER_FAIL_WARNING (R572). -/
def execPowerFailWarning (s : State) : Res := nextDev s Dev.warning

/-- POWER_RESTORED (R573): 100 ms after the warning began, once POWER_FAIL_N is high. -/
def execPowerRestored (s : State) : Res :=
  nextDev s (fun d =>
    if d.glb.warned ∧ d.glb.failPin = false then
      let d1 := d.waitTick (d.glb.warnTick + msTicks 100)
      ({ d1 with glb := { d1.glb with warned := false } } : Dev).raise 1
    else d)

/-- POWER_FAIL_N_RETURNS_HIGH (R586): a smoulder exit that waited proceeds. -/
def execPowerFailNReturnsHigh (b : BootCircs) (s : State) : Res :=
  .next (
    let s1 := onDev s (fun d => { d with glb := { d.glb with failPin := false } })
    if s1.dev.glb.phase = .smoulder ∧ s1.dev.glb.wakeWait then deviceReset 8 2 b s1 else s1)

/-- PCIE_LINK_LOSS (R453, R459, R518). -/
def execPcieLinkLoss (s : State) : Res := nextDev s (fun d => if d.stk.pcieUp then d.pcieLoss else d)

/-- PCIE_FLR (R459, R518): host locks are freed and a session closes. -/
def execPcieFlr (s : State) : Res := nextDev s (fun d => ((d.abandonLocks 0x40).abandonLocks 0x41).mbxClose)

/-- PCIE_LINK_UP (R454): the link comes up, where its reference is present; not in smoulder (R569), nor in a held reset. -/
def execPcieLinkUp (s : State) : Res :=
  nextDev s (fun d => if d.glb.clocksLost.testBit 5 ∨ d.glb.phase = .smoulder ∨ d.glb.phase = .held then d else ({ d with stk := { d.stk with pcieUp := true } } : Dev).kilnSweep)

end Sys2Proof.Machine
end

