-- ==== Sys2Proof/Machine/BlockReset.lean ====
section
/-!
DEFINITION. Block and port resets (15_reset_power_faults.md R564, R565): what each loses and keeps. A field that holds a kept state,
or whose Reset entry is "img", keeps or takes that value again (R11).
-/
namespace Sys2Proof.Machine

/-- A field of every instance takes the value it had in `old`. -/
def Dev.keepFld (d old : Dev) (f : Fld) (n1 : Nat := 1) (n2 : Nat := 1) : Dev :=
  forUp n1 (fun i d => forUp n2 (fun j d => d.wr f (old.rd f i j) i j) d) d

/-- Every register of block b takes its Reset entry, and no latch of its words stands (R48). -/
def Dev.clearBlock (d : Dev) (b : Nat) : Dev := (d.resetRegs (b * 2 ^ 20) (2 ^ 20)).dropLatches b

/-- The frame that port n is scanning, and the one whose first lines are in work, are lost (R163, R564). -/
def Dev.scanLost (d : Dev) (n : Nat) : Dev :=
  let g := d.portGroup n
  let l := d.curLine g
  let d1 := if (d.scnG g).begun && (d.scnG g).scanning && ! d.inExtension g && decide (l < d.nActive g) then d.loseFrame n else d
  if d.inExtension g = false ∧ (d.scnG g).scanNext ∧ d.nTotal g ≤ l + 2 then d1.loseNext n else d1

/-- Lines in compute and composition of every port are dropped. -/
def Dev.dropLines (d : Dev) : Dev :=
  { d with ray := { d.ray with computed := [] }, cmp := { d.cmp with lines := [], gains := [], ovlLine := [] } }

/-! ### Blocks (R564) -/

/-- ING: the frame being scanned and its concealment source stand, and the number of that frame. -/
def Dev.resetIng (d : Dev) : Dev :=
  let d1 := (((d.clearBlock 2).keepFld d ING_STREAM_CFG.slots 4).keepFld d ING_ADMIT_FRAME.frame_number 4).loadStreams
  { d1 with ltab := [], ing := d1.ing.map (fun x => (x.1, { x.2 with pending := [], tables := [] })) }

/-- RAY: lines in compute are lost, and the frames they belong to; lines already composed, slice failures and spare assignments stand. -/
def Dev.resetRay (d : Dev) : Dev :=
  let lost := forEach d.img.activePorts (fun n d => d.losePresent n) d
  let d1 := (((((((lost.clearBlock 3).keepFld d RAY_SLICE_STATUS.state 100).keepFld d RAY_SLICE_STATUS.port 100).keepFld d
    RAY_FAILED.failed 4).keepFld d RAY_STATUS.failed).keepFld d RAY_STATUS.active_ports).keepFld d RAY_STATUS.spares_free).keepFld d
    RAY_LAST_FAULT.slice
  let d2 := forUp 4 (fun q e => ((((e.keepFld d (spareInUse q)).keepFld d (spareFailed q)).keepFld d (spareManual q)).keepFld d
    (spareReplaced q))) d1
  let d3 := (((((d2.keepFld d RAY_LAST_FAULT.cause).keepFld d RAY_PORT_SLICE.served 96).keepFld d RAY_PORT_SLICE.slice 96).keepFld d
    RAY_BF_STATUS.streams 16).keepFld d RAY_BF_LOAD.load 16)
  { d3 with ray := { Dev.reset.ray with takeover := d.ray.takeover, waiting := d.ray.waiting } }

/-- CMP: `inPacket` are the ports with a packet under way, which ends with ABT (R251); buffers, maps in force and maps that a commit has
latched stand (R192, R194). -/
def Dev.resetCmp (d : Dev) (inPacket : List Nat) : Dev :=
  let lost := forEach d.img.activePorts (fun n d => d.scanLost n) (forEach inPacket (fun n d => d.abortPacket n) d)
  let d1 := (((lost.clearBlock 4).keepFld d CMP_MAP_STATUS.absent 96).keepFld d CMP_MAP_STATUS.active_buf 96).keepFld d CMP_MAP_ID.map_id 96
  { d1 with cmp := { Dev.reset.cmp with force := d.cmp.force, latched := d.cmp.latched } }

/-- SCN: generators restart as at load; mode and phase in force stand. A latched set goes with its generator, its maps with it (log entry 154). -/
def Dev.resetScn (d : Dev) : Dev :=
  let d1 := ((((((d.clearBlock 5).keepFld d SCN_MODE.active_mode 4).keepFld d SCN_PHASE_ACTIVE.phase 4).keepFld d SCN_STATUS.configured).keepFld
    d SCN_CFG.configured 4).keepFld d SCN_CFG.ports 4).keepFld d SCN_CFG.time_base 4
  let d2 := forUp 4 (fun g e =>
    match d.img.group g with
    | none => e
    | some c => (((e.wr SCN_PHASE.phase c.phase g).wrb SCN_IDLE_CFG.enable c.idle g).modeRegs g (d.rd SCN_MODE.active_mode g)))
    (d1.keepFld d SCN_CFG.modes 4)
  ((forUp 4 (fun g e => e.startGenerator g) ({ d2 with scn := [] } : Dev)).dropLines).linesStep d

/-- The link of port n restarts (R564, R565, R267, R268): one that was in TRAIN, UP or TEST or awaited a retry retrains at once; a port held
DOWN stays, and an OFF port stays. `old` is the device before the registers were reset. -/
def Dev.relink (d old : Dev) (n : Nat) : Dev :=
  let st := old.linkState n
  let x := old.lnk n
  if st = 0 then d.wr TLK_PORT_STATE.state 0 n
  else
    let d1 := ((if 2 ≤ st then d.leaveUp n else d).wr TLK_PORT_STATE.state 1 n).setLnk n { LinkState.init with held := x.held, wasUp := true }
    if 2 ≤ st ∨ x.await then d1.retrain n else d1

/-- TLK: every port, those of no tile of the image too. -/
def Dev.resetTlk (d : Dev) : Dev :=
  forUp 96 (fun n e => e.relink d n) (((d.clearBlock 6).keepFld d TLK_MAP_ABSENT.ports 3).keepFld d TLK_PORT_STATE.state 96)

/-- TCT: exchanges in progress are lost and discovery runs again; pstate, band and references last sent stand. -/
def Dev.resetTct (d : Dev) : Dev :=
  let d1 := (((((((d.clearBlock 7).keepFld d TCT_PORT_STATE.pstate 96).keepFld d TCT_PORT_STATE.band 96).keepFld d TCT_PORT_STATE.bus 96).keepFld d
    TCT_PORT_STATE.address 96).keepFld d TCT_PORT_REF_RG.red 96).keepFld d TCT_PORT_REF_RG.green 96).keepFld d TCT_PORT_REF_B.blue 96
  ({ d1 with bus := [], tct := d1.tct.map (fun x => (x.1, { x.2 with polls := 0, found := false, mismatch := false, telem := false, pwRays := [] })) } :
    Dev).discover

/-- FSC: the state of R348 is lost and the heartbeat age restarts; what the tiles show and every limit stands. -/
def Dev.resetFsc (d : Dev) : Dev :=
  let d1 := (((((d.clearBlock 17).keepFld d FSC_WALL_CEIL.ceiling).keepFld d FSC_WALL_TRIM.trim).keepFld d FSC_WALL_K.k_wall).keepFld d
    FSC_PORT_LEVEL.active_level 96).keepFld d FSC_PORT_LEVEL.level_count 96
  let d2 := ((((d1.keepFld d FSC_PORT_LEVEL.pending_level 96).keepFld d FSC_PORT_LUM_RG.lum_r 96).keepFld d FSC_PORT_LUM_RG.lum_g 96).keepFld d
    FSC_PORT_LUM_B.lum_b 96).keepFld d FSC_PORT_CEIL.ceiling 96
  let d3 := (d2.keepFld d FSC_PORT_POWER.power 96).keepFld d FSC_PORT_K.k_tile 96
  { d3 with fsc := { d3.fsc with hbTick := d3.ticks, hbAge := 0 } }

/-- NET: outputs are disarmed, Ethernet links renegotiate, queue indices restart; the time bases stand. -/
def Dev.resetNet (d : Dev) : Dev :=
  let p := d.pulsesOff
  let a := 13 * 2 ^ 20
  let d1 := (((p.resetRegs a 0x3000).resetRegs (a + 0x4000) (2 ^ 20 - 0x4000)).dropLatches 13).initNetwork (networkAll false)
  let d2 : Dev := { d1 with net := { d1.net with rx := [], tx := [], capFifo := [], stamps := [], turn := 15 } }
  forUp 4 (fun e x => if d.ethUp e then (x.ethDown e).ethNegotiate e else x.ethNegotiate e) d2

/-- KLN: measurements in progress are lost; corrections in force stand. -/
def Dev.resetKln (d : Dev) : Dev :=
  let d1 := ((d.clearBlock 16).keepFld d KLN_PG_STATUS.swing 24).keepFld d KLN_PG_STATUS.term 24
  { d1 with kln := { waiting := [], goodRes := 0, codes := d.kln.codes, moved := d.kln.moved } }

/-- R564: the reset of block b; a block that the rule does not let be reset is left alone. -/
def Dev.blockReset (d : Dev) (inPacket : List Nat) (b : Nat) : Dev :=
  match b with
  | 2 => d.resetIng
  | 3 => d.resetRay
  | 4 => d.resetCmp inPacket
  | 5 => (forEach d.img.activePorts (fun n d => d.scanLost n) d).resetScn
  | 6 => d.resetTlk
  | 7 => d.resetTct
  | 10 => (d.clearBlock 10).abortEngine 0x50
  | 11 => ((d.clearBlock 11).wr TWD_DAMPER.gap d.img.damper).abortEngine 0x51
  | 13 => d.resetNet
  | 16 => d.resetKln
  | 17 => d.resetFsc
  | _ => d

/-- Writes to the bits of these blocks take effect (R564). -/
def blockResettable (b : Nat) : Bool := (2 ≤ b && b ≤ 7) || b == 10 || b == 11 || b == 13 || b == 16 || b == 17

/-- A write of GLB_BLOCK_RESET (R564). -/
def Dev.blockResetWrite (d : Dev) (inPacket : List Nat) (v : Nat) : Dev :=
  forUp 18 (fun b d =>
    if bit v b && blockResettable b && ! d.rdBit GLB_BLOCK_RESET.reset b then
      (d.blockReset inPacket b).wrBit GLB_BLOCK_RESET.reset b true
    else d) d

/-! ### Ports (R565) -/

/-- R565: the reset of port n; one that the image omits carries no frame. -/
def Dev.portReset (d : Dev) (inPacket : List Nat) (n : Nat) : Dev :=
  let d1 := if (d.img.port n).isNone then d else (if inPacket.contains n then d.abortPacket n else d).scanLost n
  let out {α : Type} (t : Tab α) : Tab α := t.filter (fun x => x.1 / 8192 != n)
  let d2 : Dev := { d1 with
    ray := { d1.ray with computed := out d1.ray.computed }
    cmp := { d1.cmp with checks := tdel d1.cmp.checks n, pend := tdel d1.cmp.pend n,
                         lines := out d1.cmp.lines, gains := out d1.cmp.gains, ovlLine := out d1.cmp.ovlLine } }
  let d3 := (((((d2.wr CMP_MAP_STATUS.checking 0 n).wr CMP_MAP_STATUS.pending 0 n).wr CMP_PORT_SEL.active_xfer 0 n).wr
    CMP_PORT_SEL.pending_xfer 0 n).wr CMP_PORT_SEL.dither_off 0 n).wr FSC_PORT_RAW.power 0 n
  ((d3.resetRegs (17 * 2 ^ 20 + 0x1020 + 0x40 * n) 0x10).resetRegs (6 * 2 ^ 20 + 0x10000 + 0x800 * n) 0x800).relink d n

/-- A write of GLB_PORT_RESETm (R565). -/
def Dev.portResetWrite (d : Dev) (inPacket : List Nat) (m v : Nat) : Dev :=
  forUp 32 (fun b d =>
    if bit v b && ! d.rdBit GLB_PORT_RESET.reset b m then (d.portReset inPacket (32 * m + b)).wrBit GLB_PORT_RESET.reset b true m else d) d

/-- A block or port reset completes (R564, R565). -/
def Dev.resetDone (d : Dev) (port : Bool) (n : Nat) : Dev :=
  if port then
    (if d.portBit GLB_PORT_RESET.reset n then (d.wrPortBit GLB_PORT_RESET.reset n false).raise 4 else d)
  else if d.rdBit GLB_BLOCK_RESET.reset n then (d.wrBit GLB_BLOCK_RESET.reset n false).raise 4
  else d

/-! ### The commands -/

/-- BLOCK_RESET_DONE (R564, R565): the reset of block or port n completes. -/
def execBlockResetDone (port : Bool) (n : Nat) (s : State) : Res := nextDev s (fun d => d.resetDone port n)

end Sys2Proof.Machine
end

