-- ==== Sys2Proof/Machine/Export.lean ====
section
/-!
DEFINITION. The recorder export engine (14_recorder_kiln.md R545, R546).
-/
namespace Sys2Proof.Machine

/-- The export job's fields (R545). -/
def Job.xFirst (j : Job) : Nat := j.w 0x24 % 2 ^ 17
def Job.xCount (j : Job) : Nat := j.w 0x28 % 2 ^ 17
def Job.xDst (j : Job) : Nat := j.addr 0x2C
def Job.xSize (j : Job) : Nat := j.w 0x34
def Job.xChallenge (j : Job) : List Byte := slice j.desc 0x38 12

/-- R546: why a job is refused before any access, or 0. A count or an address that breaks its field's rule counts as 0x01. -/
def Dev.exportRefusal (d : Dev) (j : Job) : Nat :=
  if j.xCount = 0 ∨ j.xDst % 64 ≠ 0 ∨ d.rd EVR_STATUS.count < j.xFirst + j.xCount then 1
  else if j.xSize < 80 + 256 * j.xCount then 2
  else 0

/-- The 64-byte export header. -/
def exportHeader (s : State) (j : Job) : List Byte :=
  let d := s.dev
  let auth := d.sec.expKey.isSome
  [0x45565850, j.xFirst, j.xCount, otpWord s.otp 2, otpWord s.otp 3, d.rd EVR_FIRST_SEQ.seq, d.rd EVR_SEQ_NEXT.seq,
   d.rd EVR_SHADOW.repeat, b2n auth + 2 * d.rd EVR_STATUS.full].flatMap (fun w => leBytes 4 w) ++ j.xChallenge ++ List.replicate 16 0

/-- The words of a slot as bytes. -/
def slotBytes (w : List Nat) : List Byte := (List.range 64).flatMap (fun i => leBytes 4 (lget w i 0))

/-- The 16-byte tag over header and records under K_exp; 0 where no image key was committed when the loader derived it (log entry 29). -/
def exportTag (s : State) (j : Job) (data : List Byte) : List Byte :=
  match s.dev.sec.expKey with
  | some k => slice (Config.gcmTag k j.xChallenge data ++ List.replicate 16 0) 0 16
  | none => List.replicate 16 0

/-- What an export has done so far: the state, the bytes the tag covers, records wholly written, and the status of a stop. -/
structure ExportRun where
  s : State
  data : List Byte
  records : Nat
  stop : Option Nat
  deriving DecidableEq, Repr

/-- The export engine writes bytes at an offset of the destination. -/
def ExportRun.put (r : ExportRun) (j : Job) (o : Nat) (bs : List Byte) (counts : Nat) : ExportRun :=
  match r.stop with
  | some _ => r
  | none =>
    let (s1, denied) := writeHbmStop r.s 30 (r.s.dev.ringSecure j.ring) (j.xDst + o) bs
    if denied then { r with s := s1, stop := some 3 }
    else { r with s := s1, data := r.data ++ bs, records := r.records + counts }

/-- One record: it is written when it is consistent; one that stays inconsistent over 8 readings stops the job. -/
def ExportRun.record (r : ExportRun) (j : Job) (i : Nat) : ExportRun :=
  match r.stop with
  | some _ => r
  | none =>
    let w := tget r.s.dev.peat.slots (j.xFirst + i) []
    if recConsistent w then r.put j (64 + 256 * i) (slotBytes w) 1
    else { r with s := onDev r.s (fun d => d.advance (usTicks 80)), stop := some 4 }

/-- R546: the whole job: header, records in slot order, tag. -/
def exportRun (s : State) (j : Job) : ExportRun :=
  let h := exportHeader s j
  let r0 : ExportRun := { s := s, data := [], records := 0, stop := none }
  let r1 := forUp j.xCount (fun i r => r.record j i) (r0.put j 0 h 0)
  r1.put j (64 + 256 * j.xCount) (exportTag s j r1.data) 0

/-- Progress of an export job: status, and records whose every byte has been written. -/
def exportProgress (status n : Nat) : List Nat := [status * 2 ^ 24, n, 0, 0, 0]

/-- R545, R546: the next job of ring r, where it is an export job. -/
def exportJob (r : Nat) (s : State) : State :=
  match s.dev.nextToStart r with
  | none => s
  | some j =>
    if j.engine == 0x54 && s.dev.engineOn 0x54 then
      (let why := s.dev.exportRefusal j
       if why ≠ 0 then onDev s (fun d => d.finishJob j (exportProgress why 0))
       else
        let x := exportRun s j
        onDev x.s (fun d => d.finishJob { j with units := x.records } (exportProgress (x.stop.getD 0) x.records)))
    else s

/-- EXPORT (R546): ring r's next job, from its start to its stop. -/
def execExport (r : Nat) (s : State) : Res := .next (exportJob r s)

end Sys2Proof.Machine
end

