-- ==== Sys2Proof/Machine/StokerControl.lean ====
section
/-!
DEFINITION. Stokers as the device holds them (11_stokers_rings.md R431 to R436): failure, restart and the watchdog.
-/
namespace Sys2Proof.Machine

/-- The clusters have power (R567). -/
def Dev.stkRuns (d : Dev) : Bool := d.rdb GLB_PWR_STATUS.core && ! d.blockHeld 12

/-- R432: stoker n fails for a cause: it is held in reset, its rings are parked, its locks are abandoned, and its last program counter
is recorded. A failed stoker does not fail again. -/
def Dev.stokerFailed (d : Dev) (n cause : Nat) : Dev :=
  let c := d.core n
  if c.run = 3 then d
  else
    let d1 := d.setCore n { c with run := 3, resv := none, load := none }
    let d2 := (d1.parkRings (fun r => d1.producer r == n || d1.consumer r == n)).abandonLocks n
    let d3 := ((d2.wr STK_LAST_FAULT.cause cause).wr STK_LAST_FAULT.stoker n).wr STK_STOKER_PC.pc c.pc.toNat n
    d3.raise (if n = 0 then 449 else 448) true

/-- R432, R435: the failure of stoker n; that of the supervisor is followed, once its record is written, by a watchdog reset where SECURE says so.
`fuses` are the fuse bits programmed of an OTP command under way. -/
def failStoker (n cause fuses : Nat) (s : State) : State :=
  if (s.dev.core n).run = 3 then s
  else
    let s1 := onDev s (fun d => d.stokerFailed n cause)
    if n = 0 ∧ s.dev.img.secure.supReset then watchdogReset fuses (onDev s1 (fun d => d.flushQueue.settleNewest)) else s1

/-- R436: stoker n restarts; its local memory and its image's watchdog period stand. -/
def Dev.restartStoker (d : Dev) (n : Nat) : Dev :=
  let c := d.core n
  if c.alive then
    (d.setCore n { StkCore.init with mem := c.mem, run := 1, released := d.ticks, kicked := d.ticks }).abandonLocks n
  else d

/-- A write of STK_STOKER_CTRL[n]: force_fail wins over reset (R431, R436). -/
def stokerControl (n v fuses : Nat) (s : State) : State :=
  if bit v 30 then failStoker n 3 fuses s else if bit v 31 then onDev s (fun d => d.restartStoker n) else s

/-! ### The commands -/

/-- STOKER_WATCHDOG_EXPIRY (R431): stoker n's period passes without a kick. -/
def execStokerWatchdogExpiry (n fuses : Nat) (s : State) : Res :=
  let c := s.dev.core n
  .next (if s.dev.stkRuns && c.alive && s.dev.rd STK_STOKER_WDT.period_ms n != 0 then
      failStoker n 1 fuses (onDev s (fun d => d.waitTick (c.kicked + msTicks (d.rd STK_STOKER_WDT.period_ms n))))
    else s)

/-- STOKER_ECC_ERROR (R431): an ECC error of stoker n's local memory; a corrected one is no failure. -/
def execStokerEccError (n : Nat) (corrected : Bool) (fuses : Nat) (s : State) : Res :=
  .next (if s.dev.stkRuns && (s.dev.core n).alive && ! corrected then failStoker n 2 fuses s else s)

end Sys2Proof.Machine
end

