-- ==== Sys2Proof/Machine/Bus.lean ====
section
/-!
DEFINITION. Control space as its initiators use it (00_scope.md R6 to R11; 01_architecture.md R26 to R31, R38 to R48): which effect a
write of each register has, which side effect a read has, posted writes, and the rows that write or read any register.
-/
namespace Sys2Proof.Machine

/-! ### Stored fields -/

/-- A write by the access codes alone (R6, R9). -/
def Dev.store (d : Dev) (who : Initiator) (e : RegEnt) (i j v : Nat) : Dev := { d with regs := regStore d.regs (d.secureOf who) e i j v }

/-- A write whose field `f` is dropped unless `ok` holds of its value. -/
def Dev.storeIf (d : Dev) (who : Initiator) (e : RegEnt) (i j v : Nat) (f : Fld) (ok : Nat → Bool) : Dev :=
  let d1 := d.store who e i j v
  if ok (v / 2 ^ f.lo % 2 ^ f.w) then d1 else d1.wr f (d.rd f i j) i j

/-- A write of an event enable register: events newly enabled whose status is 1 send their message (R38). -/
def Dev.enableStore (d : Dev) (who : Initiator) (e : RegEnt) (i j v base stride : Nat) (f : Fld) : Dev :=
  let d1 := d.store who e i j v
  d1.enableMessages (base + stride * i) i { f with addr := f.addr - 4, rst := 0 } (d.rd f i j) (d1.rd f i j)

/-! ### The effect of a write on each block -/

/-- Writes of RAY and CMP registers. -/
def Dev.rayCmpWrite (d : Dev) (who : Initiator) (e : RegEnt) (i j v : Nat) : Dev :=
  if e.addr = RAY_SPARE_CTRL.baseAddr then
    (if bit v 30 then (d.nextFree.sourceAbort (v % 128) (d.freeVal 1 == 1)).spareWrite v else d.spareWrite v)
  else if e.addr = RAY_BELLOWS_WM.baseAddr then d.bellowsWrite v
  else if e.addr = CMP_PORT_SEL.baseAddr then d.portSelWrite i v
  else if e.addr = CMP_OVL_PAL_LO.baseAddr then d.paletteWrite i j false v
  else if e.addr = CMP_OVL_PAL_HI.baseAddr then d.paletteWrite i j true v
  else if e.addr = CMP_MAP_CTRL.baseAddr then d.mapCtrlWrite i v
  else d.store who e i j v

/-- Writes of SCN, TLK and TCT registers. -/
def Dev.wallWrite (d : Dev) (who : Initiator) (e : RegEnt) (i j v : Nat) : Dev :=
  if e.addr = SCN_COMMIT.baseAddr then d.commitWrite i v
  else if e.addr = SCN_MODE.baseAddr then d.storeIf who e i j v SCN_MODE.pending_mode (fun m => decide (m < d.rd SCN_CFG.modes i))
  else if e.addr = TLK_PORT_CTRL.baseAddr then d.tlkPortWrite i v
  else if e.addr = TLK_TEST.baseAddr then d.testWrite i v
  else if e.addr = TLK_TIME_CFG.baseAddr then d.storeIf who e i j v TLK_TIME_CFG.interval (fun m => decide (16 ≤ m))
  else if e.addr = TCT_CTRL.baseAddr then d.tctCtrlWrite (d.secureOf who) v
  else if e.addr = TCT_PORT_CTRL.baseAddr then d.tctPortWrite i v
  else d.store who e i j v

/-- Writes of MEM, ARB, STK and FSC registers. -/
def Dev.engineWrite (d : Dev) (who : Initiator) (e : RegEnt) (i j v : Nat) : Dev :=
  if e.addr = MEM_TRAIN_CFG.baseAddr then
    d.storeIf who e i j v MEM_TRAIN_CFG.interval_ms (fun m => decide (100 ≤ m) && decide (m ≤ 10000))
  else if e.addr = MEM_CORD_WM.baseAddr then d.cordWmWrite v
  else if e.addr = ARB_INST_CFG.baseAddr then d.arbInstWrite i v
  else if e.addr = ARB_REQ_CFG.baseAddr then d.arbReqWrite i j v
  else if e.addr = STK_RING_CTRL.baseAddr then d.ringCtrlWrite who i v
  else if e.addr = STK_IF_SEL.baseAddr then d.ifSelWrite v
  else if e.addr = STK_LOCK_REL.baseAddr then d.lockRelease who i v
  else if e.addr = FSC_HEARTBEAT.baseAddr then d.hbWrite v
  else if e.addr = FSC_PORT_LEVEL.baseAddr then d.levelWrite i v
  else d.store who e i j v

/-- Writes of NET registers. -/
def Dev.netWrite (d : Dev) (who : Initiator) (e : RegEnt) (i j v : Nat) : Dev :=
  if e.addr = NET_ETH_CTRL.baseAddr then d.ethCtrlWrite i v
  else if e.addr = NET_Q_HEAD.baseAddr then d.queueWrite who i true v
  else if e.addr = NET_Q_TAIL.baseAddr then d.queueWrite who i false v
  else if e.addr = NET_TB_RATE.baseAddr then d.tbRateWrite i v
  else if e.addr = NET_TB_STEP_CTRL.baseAddr then d.tbStepWrite i v
  else if e.addr = NET_TB_CTRL.baseAddr then d.tbCtrlWrite i v
  else if e.addr = NET_SNAP_CTRL.baseAddr then d.snapWrite v
  else if e.addr = NET_TB_GL_PERIOD.baseAddr then d.glPeriodWrite i v
  else if e.addr = NET_TB_PTP.baseAddr then d.ptpWrite i v
  else if e.addr = NET_TPO_CTRL.baseAddr then d.tpoCtrlWrite i v
  else d.store who e i j v

/-- Writes of SEC, EVR and mailbox registers that touch neither the OTP array nor its read-out. -/
def Dev.secureWrite (d : Dev) (who : Initiator) (e : RegEnt) (i j v : Nat) : Dev :=
  if e.addr = SEC_NONCE_CTRL.baseAddr then d.nonceWrite v
  else if e.addr = SEC_TOKEN.baseAddr then d.wr SEC_TOKEN.token v i
  else if e.addr = SEC_TOKEN_CTRL.baseAddr then d.tokenWrite v
  else if e.addr = EVR_CLEAR_CTRL.baseAddr then d.clearWrite v
  else if e.addr = SEC_MBX_CTRL.baseAddr then d.mbxWrite v
  else if e.addr = SEC_MBX_TOKEN.baseAddr then d.wr SEC_MBX_TOKEN.token v i
  else if e.addr = SEC_MBX_HBM_BASE.baseAddr then d.mbxBaseWrite v
  else d.store who e i j v

/-! ### Doorbells on their way (R27, R28, R441) -/

/-- The writer's doorbell writes that wait at instance i. -/
def Dev.ownDoors (d : Dev) (who : Initiator) (i : Nat) : List Txn :=
  (d.doorsAt i).filter (fun t => t.door.any (fun w => initCode w == initCode who))

/-- The arbiters of the instances that `at_` picks run until no doorbell write of this initiator waits there: what the initiator does next
in STK comes after them (R27, R28). Each clock grants one of the waiting requests. -/
def settleDoors (who : Initiator) (at_ : Nat → Bool) (s : State) : State :=
  forUp 5 (fun k s =>
    if at_ (66 + k) then
      forUp ((s.dev.doorsAt (66 + k)).length + 1) (fun _ s => if (s.dev.ownDoors who (66 + k)).isEmpty then s else arbTick s (66 + k)) s
    else s) s

/-- A write or read of block b by this initiator comes after its doorbell writes, where b is STK. -/
def afterDoors (who : Initiator) (b : Nat) (s : State) : State := if b = 12 then settleDoors who (fun _ => true) s else s

/-- The register is a doorbell, a ring's producer or consumer index (R441). -/
def RegEnt.isDoor (e : RegEnt) : Bool := e.addr == STK_RING_PI.baseAddr || e.addr == STK_RING_CI.baseAddr

/-- What a write of v to instance [i][j] of register e does, once the fabric has let it through. -/
def writeEffect (who : Initiator) (e : RegEnt) (i j v : Nat) (s : State) : State :=
  if e.addr = GLB_RESET_CTRL.baseAddr then resetCtrlWrite v (Config.resetCircs s.dev.free) (onDev s Dev.nextFree)
  else if e.addr = GLB_BLOCK_RESET.baseAddr then onDev s (fun d => d.nextFree.blockResetWrite (Config.inPacket d.free) v)
  else if e.addr = GLB_PORT_RESET.baseAddr then onDev s (fun d => d.nextFree.portResetWrite (Config.inPacket d.free) i v)
  else if e.addr = GLB_SMOULDER_CTRL.baseAddr then smoulderWrite v s
  else if e.addr = KIN_CTRL.baseAddr then kinWrite v s
  else if e.addr = SEC_OTP_CMD.baseAddr then otpCommand v s
  else if e.addr = SEC_OTP_RD_ADDR.baseAddr then otpReadWrite v s
  else if e.isDoor then
    onDev (settleDoors who (fun k => s.dev.doorInst i != some k) s) (fun d => d.doorIssue who (e.at_ i 0) v)
  else if e.addr = STK_STOKER_CTRL.baseAddr then stokerControl i v (Config.resetCircs s.dev.free).fuses (onDev s Dev.nextFree)
  else onDev s (fun d =>
    match evBase (e.addr - 4), e.fields with
    | some (base, stride), [f] => d.enableStore who e i j v base stride f.f
    | _, _ =>
      match blockOf e.addr with
      | 2 => if e.addr = ING_LTABLE_CTRL.baseAddr then d.tableCommit (v % 256) else d.store who e i j v
      | 3 | 4 => d.rayCmpWrite who e i j v
      | 5 | 6 | 7 => d.wallWrite who e i j v
      | 8 | 9 | 12 | 17 => d.engineWrite who e i j v
      | 13 => d.netWrite who e i j v
      | 14 | 15 | 32 => d.secureWrite who e i j v
      | _ => d.store who e i j v)

/-- The address is a doorbell's. -/
def doorbellAt (a : Nat) : Bool := (regAt a).any (fun x => x.1.isDoor)

/-- A write of v to a control-space address takes effect in its block, or is dropped (R30, R31, R598); a doorbell write waits for the
writer's earlier ones at its arbiter only. -/
def controlWrite (who : Initiator) (a v : Nat) (s : State) : State :=
  match regAt a with
  | none => onDev (afterDoors who (blockOf a) s) (fun d => d.wr GLB_ERR_STATUS.unmapped 1)
  | some (e, i, j) => gateS (if e.isDoor then s else afterDoors who (blockOf a) s) who e i j (writeEffect who e i j (v % 2 ^ 32))

/-! ### Posted writes (R26 to R29) -/

/-- The waiting posted writes that `p` picks take effect, oldest first. -/
def drainPosted (p : Posted → Bool) (s : State) : State :=
  (s.dev.posted.filter p).foldl (fun s x => controlWrite x.who x.addr x.value s)
    (onDev s (fun d => { d with posted := d.posted.filter (fun x => ! p x) }))

/-- R27: the posted writes of one initiator to the block of an address have reached it. -/
def drainOwn (who : Initiator) (a : Nat) (s : State) : State :=
  drainPosted (fun x => initCode x.who == initCode who && blockOf x.addr == blockOf a) s

/-- R27, R28: the initiator's earlier writes to the block of an address have taken effect, its doorbell writes among them. -/
def settled (who : Initiator) (a : Nat) (s : State) : State := afterDoors who (blockOf a) (drainOwn who a s)

/-- The state a row's write of address a meets: a doorbell write follows the writer's earlier ones at its arbiter, any other comes after
them. -/
def beforeWrite (who : Initiator) (a : Nat) (s : State) : State := if doorbellAt a then drainOwn who a s else settled who a s

/-- The fabric lets a write of address a through. -/
def Dev.writeDone (d : Dev) (who : Initiator) (a : Nat) : Bool := (regAt a).any (fun x => d.writeCase who x.1 x.2.1 x.2.2 == .done)

/-- A row's write of v to address a, with its effect: after the writer's earlier ones to that block (R27); a doorbell write is granted. -/
def writeNow (who : Initiator) (a v : Nat) (s : State) : State :=
  let s0 := drainOwn who a s
  let s1 := controlWrite who a v s0
  if doorbellAt a && s0.dev.writeDone who a then afterDoors who (blockOf a) s1 else s1

/-- Stoker n's store to control space is posted in the world it runs in (R26, R424, R427); one that the fabric drops is decided at
once. -/
def postWrite (n a v : Nat) (s : State) : State :=
  let who : Initiator := .posted n (s.dev.secureOf (.stoker n))
  match regAt a with
  | none => controlWrite who a v s
  | some (e, i, j) =>
    if s.dev.writeCase who e i j = .done then onDev s (fun d => { d with posted := d.posted ++ [⟨who, a, v⟩] })
    else controlWrite who a v s

/-- The step of an empty queue: one 4 ns tick, after which the oldest posted write has taken effect (log entry 15). -/
def idle (s : State) : State :=
  let s1 := onDev s (fun d => d.advance 1)
  match s1.dev.posted with
  | [] => s1
  | x :: rest => controlWrite x.who x.addr x.value (onDev s1 (fun d => { d with posted := rest }))

/-! ### Reads -/

/-- The side effect of a read before its data is taken: an acquire attempt (R457). -/
def Dev.readPre (d : Dev) (who : Initiator) (e : RegEnt) (i : Nat) : Dev :=
  if e.addr = STK_LOCK_ACQ.baseAddr then d.lockAttempt who i else d

/-- The side effect after it: RC fields clear (R6, R155, R493), and an acquire attempt has been answered. -/
def Dev.readPost (d : Dev) (who : Initiator) (e : RegEnt) (i : Nat) : Dev :=
  if e.addr = STK_LOCK_ACQ.baseAddr then d.lockAnswered i
  else if e.addr = RAY_SLICE_LEAD.baseAddr then d.wr RAY_SLICE_LEAD.low_mark 4 i
  else if e.addr = NET_CAP_STAMP0.baseAddr then d.capturePop who i
  else d

/-- A read of a control-space address by an initiator: its earlier writes to the block take effect first (R28), then the fabric
decides it. -/
def controlRead (who : Initiator) (a : Nat) (s : State) : State × Nat :=
  let s1 := settled who a s
  match regAt a with
  | none => (onDev s1 (fun d => d.wr GLB_ERR_STATUS.unmapped 1), 0xDEAD0ADD)
  | some (e, i, j) =>
    let r := s1.dev.accessRead who e i j (fun d => d.readPre who e i) (fun d => d.readPost who e i)
    ({ s1 with dev := r.1 }, r.2)

/-- A read whose data leaves to the initiator. -/
def readOut (who : Initiator) (a : Nat) (s : State) : State :=
  let r := controlRead who a s
  onDev r.1 (fun d => d.emit (.readData (initCode who) a r.2))

/-! ### Coincidences (R7, R40, R45) -/

/-- Event n shows in instance i of the status register at base address a. -/
def eventIn (n a i : Nat) : Bool :=
  match evPos n with
  | some p => p.st.addr == a && p.inst == i
  | none => false

/-- The events of the list that show in the register at address a occur. -/
def Dev.raiseIn (d : Dev) (a : Nat) (events : List Nat) : Dev :=
  match regAt a with
  | some (e, i, _) => forEach events (fun n d => if eventIn n e.addr i then d.raise n else d) d
  | none => d

/-- The sat and count fields of a counter register. -/
def RegEnt.counter (e : RegEnt) : Option (Fld × Fld) :=
  match e.fields with
  | [⟨s, .w1c, _⟩, ⟨c, .w1c, _⟩] => if s.lo = 31 ∧ s.w = 1 ∧ c.lo = 0 ∧ c.w = 31 then some (s, c) else none
  | _ => none

/-- A write to the counter at address a; with `coincide` an occurrence counts in the same cycle (R45). -/
def counterAccess (who : Initiator) (a v : Nat) (coincide : Bool) (s : State) : State :=
  match regAt a with
  | none => writeNow who a v s
  | some (e, i, j) =>
    match e.counter with
    | none => writeNow who a v s
    | some (sat, cnt) =>
      let u := settled who a s
      if u.dev.writeCase who e i j = .done then onDev u (fun d => d.counterWrite sat cnt (v % 2 ^ 32) coincide i j)
      else
        let s1 := onDev u (fun d => d.gate who e i j id)
        if coincide && u.dev.regOn e i then onDev s1 (fun d => d.count sat cnt 1 i j) else s1

/-! ### The commands -/

/-- REGISTER_WRITE (R26): a write of v to address a takes effect, after the writer's earlier ones to that block (R27). -/
def execRegisterWrite (who : Initiator) (a v : Nat) (s : State) : Res := .next (writeNow who a v s)

/-- REGISTER_READ (R28): a read of address a. -/
def execRegisterRead (who : Initiator) (a : Nat) (s : State) : Res := .next (readOut who a s)

/-- WIDE_FIELD_READ (R48): a read of address a, which latches the words above it for this reader where it names a lowest word. -/
def execWideFieldRead (who : Initiator) (a : Nat) (s : State) : Res := .next (readOut who a s)

/-- EVENT_ENABLE_WRITE (R38): a write of an event enable register. -/
def execEventEnableWrite (who : Initiator) (a v : Nat) (s : State) : Res := .next (writeNow who a v s)

/-- EVENT_STATUS_CLEAR (R7, R40): a write of an event status register; the events listed occur in the same cycle, and the set wins. -/
def execEventStatusClear (who : Initiator) (a v : Nat) (events : List Nat) (s : State) : Res :=
  .next (onDev (writeNow who a v s) (fun d => d.raiseIn a events))

/-- COUNTER_CLEAR (R44, R45): a write of a counter register, with an occurrence in the same cycle or without. -/
def execCounterClear (who : Initiator) (a v : Nat) (coincide : Bool) (s : State) : Res :=
  .next (counterAccess who a v coincide s)

/-- LOW_MARK_READ (R6, R155): a read of RAY_SLICE_LEAD[sl]; low_mark reads 4 again after it. -/
def execLowMarkRead (who : Initiator) (sl : Nat) (s : State) : Res := .next (readOut who (RAY_SLICE_LEAD.ent.at_ sl 0) s)

/-- LOCK_ACQUIRE (R457): a read of STK_LOCK_ACQ[lock]. -/
def execLockAcquire (who : Initiator) (lock : Nat) (s : State) : Res := .next (readOut who (STK_LOCK_ACQ.ent.at_ lock 0) s)

/-- CAPTURE_STAMP_READ (R493): a read of NET_CAP_STAMP0[c]. -/
def execCaptureStampRead (who : Initiator) (c : Nat) (s : State) : Res := .next (readOut who (NET_CAP_STAMP0.ent.at_ c 0) s)

end Sys2Proof.Machine
end

