-- ==== Sys2Proof/Machine/Codec.lean ====
section
/-!
DEFINITION. The codec engine (10_codec_2d.md R395 to R410): descriptor checks, the Linor encoder, contexts, and the jobs
COMPRESS, DECOMPRESS and COMPARE by block rows.
-/
namespace Sys2Proof.Machine

/-! ### Descriptors (R397) -/

/-- The codec descriptor's fields. -/
def Job.cOp (j : Job) : Nat := j.w 0x20 % 256
def Job.cResume (j : Job) : Bool := bit (j.w 0x20) 8
def Job.cFlush (j : Job) : Bool := bit (j.w 0x20) 9
def Job.cNoEmpty (j : Job) : Bool := bit (j.w 0x20) 10
def Job.cFull (j : Job) : Bool := bit (j.w 0x20) 11
def Job.cComp (j : Job) : Nat := bits (j.w 0x20) 13 12
def Job.cShift (j : Job) : Nat := bits (j.w 0x20) 17 16
def Job.cCoding (j : Job) : Nat := bits (j.w 0x20) 31 24
def Job.cDynamic (j : Job) : Bool := bit (j.cCoding) 7
def Job.cWidth (j : Job) : Nat := j.w 0x24 % 2 ^ 16
def Job.cHeight (j : Job) : Nat := j.w 0x24 / 2 ^ 16
def Job.cSrc (j : Job) : Nat := j.addr 0x28
def Job.cSrcSize (j : Job) : Nat := j.w 0x30
def Job.cRows (j : Job) : Nat := j.w 0x34 % 2 ^ 16
def Job.cDst (j : Job) : Nat := j.addr 0x38
def Job.cDstSize (j : Job) : Nat := j.w 0x40
def Job.cCtx (j : Job) : Nat := j.addr 0x44

/-- d: 8 for A, else as depth10 gives; and the bits stored, d − q (R123). -/
def Job.cDepth (j : Job) : Nat := if j.cComp ≠ 3 ∧ bit (j.w 0x20) 14 then 10 else 8
def Job.cStored (j : Job) : Nat := j.cDepth - j.cShift

/-- Bytes of an uncompressed sample (R121). -/
def Job.cBytes (j : Job) : Nat := if j.cDepth = 8 then 1 else 2

/-- Block columns, block rows and the size of an index entry. -/
def Job.cCols (j : Job) : Nat := blockCols j.cWidth
def Job.cBlockRows (j : Job) : Nat := blockRows j.cHeight
def Job.cEntry (j : Job) : Nat := indexEntryBytes j.cCols

/-- The pitch of uncompressed rows is allowed. -/
def Job.cPitchOk (j : Job) (p : Nat) : Bool :=
  p % 64 == 0 && decide ((j.cWidth * j.cBytes + 63) / 64 * 64 ≤ p) && decide (p ≤ 65536)

/-- The static, loaded or seed table that a coding byte names, as it is in force now (R126 to R128). -/
def Dev.codingTable (d : Dev) (coding : Nat) : List Nat :=
  if coding % 16 < 8 then builtinTable (coding % 16) else tget d.ltab (coding % 16) []

/-- A coding byte names a table that is valid. -/
def Dev.codingValid (d : Dev) (coding : Nat) : Bool :=
  bits coding 6 4 == 0 && (decide (coding % 16 < 8) || d.rdBit ING_LTABLE_CTRL.valid (coding % 16 - 8))

/-- Another COMPRESS job that runs names the same context. -/
def Dev.ctxInUse (d : Dev) (j : Job) : Bool :=
  (d.runningJobs 0x50).any (fun k => k.order != j.order && k.cOp == 1 && k.cCtx == j.cCtx)

/-- R397: the descriptor is accepted; its last 20 bytes are reserved as 0. -/
def Dev.codecOk (d : Dev) (j : Job) : Bool :=
  decide (1 ≤ j.cWidth) && decide (j.cWidth ≤ 16384) && decide (1 ≤ j.cHeight) && decide (j.cHeight ≤ 16384) &&
  (j.cComp != 3 || j.cShift == 0) && d.codingValid j.cCoding && j.cDst % 64 == 0 && (List.range 5).all (fun k => j.w (0x4C + 4 * k) == 0) &&
  (if j.cOp = 1 then
     j.cPitchOk j.cSrcSize && decide (1 ≤ j.cRows) && decide (j.cRows ≤ 16384) && j.cCtx % 256 == 0 &&
     decide (j.cBlockRows * j.cEntry ≤ j.cDstSize) && ! d.ctxInUse j
   else ! j.cResume && j.cRows == 0 && j.cPitchOk j.cDstSize)

/-! ### Encoding one block (R398, R399) -/

/-- R124: the mapped residual of sample x against its prediction, with n stored bits. -/
def mapResidual (n : Nat) (pred : Int) (x : Nat) : Nat :=
  let e := toS n (ofS n ((x : Int) - pred))
  if 0 ≤ e then (2 * e).toNat else (-2 * e - 1).toNat

/-- The symbol of a mapped residual: its bit length. -/
def symbolOf (m : Nat) : Nat := if m = 0 then 0 else m.log2 + 1

/-- R124, R125: append the codes of the samples after the first: value, bits and symbols so far, samples latest first. -/
def encodeRest (codes : List (Nat × Nat)) (n : Nat) : List Nat → Nat → List Nat → Nat × Nat → List Nat →
    (Nat × Nat) × List Nat
  | [], _, _, acc, syms => (acc, syms)
  | x :: xs, k, prev, acc, syms =>
    let m := mapResidual n (predict k prev) x
    let s := symbolOf m
    let c := lget codes s (0, 0)
    let v := acc.1 * 2 ^ c.1 + c.2
    let acc' := if s ≤ 1 then (v, acc.2 + c.1) else (v * 2 ^ (s - 1) + (m - 2 ^ (s - 1)), acc.2 + c.1 + (s - 1))
    encodeRest codes n xs (k + 1) (x :: prev) acc' (s :: syms)

/-- The CODED payload of 128 stored samples of n bits: its bytes and its symbols. -/
def encodePayload (lens : List Nat) (n : Nat) (xs : List Nat) : List Byte × List Nat :=
  match xs with
  | [] => ([], [])
  | x :: rest =>
    let (acc, syms) := encodeRest (canonCodes lens) n rest 1 [x] (x, n) []
    let bytes := (acc.2 + 7) / 8
    (beBytes bytes (acc.1 * 2 ^ (bytes * 8 - acc.2)), syms)

/-- The RAW body of 128 stored samples of n bits (R122). -/
def rawBody (n : Nat) (xs : List Nat) : List Byte :=
  let bytes := (128 * n + 7) / 8
  beBytes bytes (xs.foldl (fun a x => a * 2 ^ n + x) 0 * 2 ^ (bytes * 8 - 128 * n))

/-- R399: the bytes of a block of 128 samples as read, and the symbols it adds to the histogram. -/
def encodeBlock (j : Job) (lens xs : List Nat) : List Byte × List Nat :=
  if ! j.cNoEmpty && xs.all (fun x => x == emptyValue j.cComp j.cDepth j.cFull) then ([0x00], [])
  else if ! j.cNoEmpty && j.cComp == 3 && xs.all (fun x => x == 255) then ([0x40], [])
  else
    let st := xs.map (fun x => x / 2 ^ j.cShift)
    let (p, syms) := encodePayload lens j.cStored st
    if p.length ≤ 2047 ∧ p.length < (128 * j.cStored + 7) / 8 then (beBytes 2 (0x8000 + p.length) ++ p, syms)
    else (0xC0 :: rawBody j.cStored st, [])

/-! ### Samples in HBM (R121) -/

/-- The samples of an uncompressed row. -/
def Job.rowSamples (j : Job) (bs : List Byte) : List Nat :=
  (List.range j.cWidth).map (fun x =>
    if j.cBytes = 1 then (bs.getD x 0).toNat else beAt bs (2 * x) 2 % 1024)

/-- A row of samples as its bytes. -/
def Job.rowBytes (j : Job) (xs : List Nat) : List Byte := xs.flatMap (fun x => beBytes j.cBytes x)

/-- The codec's accesses: a denied one stops the job, so nothing beyond it is accessed (R395). -/
def codecRead (s : State) (j : Job) (a n : Nat) : State × Bool × List Byte := readHbmStop s 20 (s.dev.ringSecure j.ring) a n
def codecWrite (s : State) (j : Job) (a : Nat) (bs : List Byte) : State × Bool := writeHbmStop s 20 (s.dev.ringSecure j.ring) a bs

/-! ### Contexts (R404, R405) -/

/-- The 64 bits of code lengths as an index entry holds them: lengths_lo, lengths_hi. -/
def packLens (lens : List Nat) : Nat × Nat :=
  (sumUp 8 (fun s => lget lens s 0 * 2 ^ (28 - 4 * s)), sumUp 3 (fun s => lget lens (8 + s) 0 * 2 ^ (28 - 4 * s)))

/-- Descriptor word 0 with opcode, resume and flush at 0 (the context's mode). -/
def Job.cMode (j : Job) : Nat := clearBits (j.w 0x20) 0x3FF

/-- The 256 bytes of a context. -/
def contextBytes (j : Job) (c : CdcWork) (closed checkpoint : Bool) : List Byte :=
  let p := packLens c.lens
  leBytes 4 0x4C435458 ++ leBytes 4 (j.w 0x24) ++ leBytes 4 j.cMode ++ leBytes 4 (c.blockRow + c.blockCol * 2 ^ 16) ++
  leBytes 4 c.produced ++ leBytes 4 p.1 ++ leBytes 4 p.2 ++ leBytes 4 (b2n checkpoint + 2 * b2n closed) ++
  (List.range 11).flatMap (fun s => leBytes 2 (lget c.hist s 0)) ++ leBytes 2 0 ++ leBytes 4 c.rowOffset ++
  (List.range 15).flatMap (fun k => leBytes 4 (lget c.colOffs k 0)) ++ List.replicate 136 0

/-- R405: a context agrees with the descriptor and its component is open. -/
def contextFits (j : Job) (b : List Byte) : Bool :=
  leAt b 0 4 == 0x4C435458 && leAt b 4 4 == j.w 0x24 && bits (leAt b 8 4) 14 12 == bits (j.w 0x20) 14 12 &&
  bits (leAt b 8 4) 17 16 == j.cShift && bits (leAt b 8 4) 31 24 == j.cCoding && ! bit (leAt b 0x1C 4) 1

/-- R405, R406: the working values that a context resumes. -/
def resumeWork (b : List Byte) (table : List Nat) : CdcWork :=
  let lo := leAt b 0x14 4
  let hi := leAt b 0x18 4
  { blockRow := leAt b 0x0C 2, blockCol := leAt b 0x0E 2, produced := leAt b 0x10 4,
    lens := (List.range 8).map (fun s => lo / 2 ^ (28 - 4 * s) % 16) ++ (List.range 3).map (fun s => hi / 2 ^ (28 - 4 * s) % 16),
    hist := (List.range 11).map (fun s => leAt b (0x20 + 2 * s) 2), rowOffset := leAt b 0x38 4,
    colOffs := (List.range 15).map (fun k => leAt b (0x3C + 4 * k) 4), startRow := leAt b 0x0C 2, table := table,
    mismatches := 0, firstCol := 0, firstRow := 0 }

/-- The working values of a job that begins its component. -/
def freshWork (table : List Nat) (produced : Nat) : CdcWork :=
  { CdcWork.init with produced := produced, rowOffset := produced, lens := table, table := table,
                      hist := List.replicate 11 0 }

/-! ### Progress and stops -/

/-- Component rows up to the end of a COMPRESS job (R402). -/
def Job.cTotal (j : Job) : Nat := 4 * j.cdc.startRow + j.cRows

/-- The progress words of a codec job with this status and fault. -/
def Job.cProgress (j : Job) (status fault final : Nat) : List Nat :=
  let head := status * 2 ^ 24 + fault * 2 ^ 16
  if j.cOp = 1 then
    [head + min (4 * (j.cdc.blockRow - j.cdc.startRow)) j.cRows, j.cdc.produced, j.cdc.blockCol + final * 2 ^ 16, 0, 0]
  else [head + j.units, j.cdc.produced, 0, j.cdc.mismatches, j.cdc.firstCol + j.cdc.firstRow * 2 ^ 16]

/-- A codec job finishes without a context. -/
def codecEnd (s : State) (j : Job) (status fault final : Nat) : State :=
  onDev s (fun d => d.finishJob j (j.cProgress status fault final))

/-- R404: a COMPRESS job stops: its context is written; a denied context write makes the status 0x04. -/
def compressStop (s : State) (j : Job) (status final : Nat) : State :=
  let (s1, denied) := codecWrite s j j.cCtx (contextBytes j j.cdc (final != 0) false)
  codecEnd s1 j (if denied then 4 else status) 0 final

/-- R450: a running job's entry shows its progress. -/
def codecGoOn (s : State) (j : Job) : State := onDev s (fun d => d.setJob { j with progress := j.cProgress 0 0 0 })

/-! ### COMPRESS by block rows (R398 to R403) -/

/-- R398: the 128 samples of the block at column c of four rows of samples. -/
def blockOfRows (w c : Nat) (rows : List (List Nat)) : List Nat :=
  (List.range 128).map (fun i => lget (lget rows (i / 32) []) (min (32 * c + i % 32) (w - 1)) 0)

/-- The four source rows of the block row in progress, the last given row replicated (R398), up to a read that fails: the state, whether
one failed, and the rows. -/
def sourceRows (s : State) (j : Job) : State × Bool × List (List Nat) :=
  forUp 4 (fun i (st : State × Bool × List (List Nat)) =>
    if st.2.1 then st
    else
      let y := min (4 * j.cdc.blockRow + i) (j.cTotal - 1) - 4 * j.cdc.startRow
      let (s1, e, bs) := codecRead st.1 j (j.cSrc + y * j.cSrcSize) (j.cWidth * j.cBytes)
      (s1, e, st.2.2 ++ [j.rowSamples bs])) (s, false, [])

/-- One block is coded and written: the state, the job, and the status of a stop. -/
def compressBlock (rows : List (List Nat)) (st : State × Job × Option Nat) : State × Job × Option Nat :=
  match st.2.2 with
  | some _ => st
  | none =>
    let j := st.2.1
    let c := j.cdc
    let (bs, syms) := encodeBlock j c.lens (blockOfRows j.cWidth c.blockCol rows)
    if j.cDstSize < c.produced + bs.length then (st.1, j, some 1)
    else
      let (s1, denied) := codecWrite st.1 j (j.cDst + c.produced) bs
      if denied then (s1, j, some 4)
      else
        let counted := decide (j.cCols ≤ c.blockCol + 256)
        let offs := if c.blockCol % 32 = 0 ∧ c.blockCol ≠ 0 then
            (List.range 15).map (fun k => if k + 1 = c.blockCol / 32 then c.produced - c.rowOffset else lget c.colOffs k 0)
          else c.colOffs
        let hist := if counted then (List.range 11).map (fun s => lget c.hist s 0 + syms.count s) else c.hist
        (s1, { j with cdc := { c with blockCol := c.blockCol + 1, produced := c.produced + bs.length, hist := hist,
                                      colOffs := offs } }, none)

/-- R130, R400: the index entry of the block row in progress. -/
def indexEntry (j : Job) : List Byte :=
  let c := j.cdc
  let p := packLens c.lens
  beBytes 4 c.rowOffset ++ beBytes 4 (c.produced - c.rowOffset) ++ beBytes 4 p.1 ++ beBytes 4 p.2 ++
  (List.range ((j.cEntry - 16) / 4)).flatMap (fun k => beBytes 4 (lget c.colOffs k 0))

/-- The working values for the block row after the one in progress. -/
def Job.nextRow (j : Job) : Job :=
  let c := j.cdc
  { j with cdc := { c with blockRow := c.blockRow + 1, blockCol := 0, rowOffset := c.produced, colOffs := [],
                           lens := if j.cDynamic then rebuildTable c.hist else c.table, hist := List.replicate 11 0 } }

/-- After a block row: close, end, write a checkpoint, or go on. -/
def compressRowEnd (s : State) (j : Job) : State :=
  let total := j.cTotal
  if total ≤ 4 * j.cdc.blockRow then
    if j.cFlush then
      let (s1, denied) := codecWrite s j (j.cDst + j.cdc.blockRow * j.cEntry)
        (List.replicate ((j.cBlockRows - j.cdc.blockRow) * j.cEntry) 0)
      if denied then compressStop s1 j 4 0 else compressStop s1 j 0 total
    else compressStop s j 0 (if total = j.cHeight then total else 0)
  else if j.cdc.blockRow % 64 = 0 then
    let (s1, denied) := codecWrite s j j.cCtx (contextBytes j j.cdc false true)
    if denied then codecEnd s1 j 4 0 0 else codecGoOn s1 j
  else codecGoOn s j

/-- A COMPRESS job codes the rest of the block row in progress. -/
def compressRow (s : State) (j : Job) : State :=
  let (s1, err, rows) := sourceRows s j
  if err then compressStop s1 j 3 0
  else
    let (s2, j2, stop) := forUp (j.cCols - j.cdc.blockCol) (fun _ st => compressBlock rows st) (s1, j, none)
    match stop with
    | some st => compressStop s2 j2 st 0
    | none =>
      let (s3, denied) := codecWrite s2 j2 (j2.cDst + j2.cdc.blockRow * j2.cEntry) (indexEntry j2)
      if denied then compressStop s3 j2 4 0 else compressRowEnd s3 j2.nextRow

/-! ### DECOMPRESS and COMPARE by block rows (R408 to R410) -/

/-- Whether a decoded row holds a block with a fault, and the first fault's code. -/
def firstFault (r : RowDec) : Nat :=
  if r.fault ≠ 0 then r.fault
  else match r.blocks.find? (fun b => b.fault != 0) with
    | some b => b.fault
    | none => 0

/-- The samples of row y of a decoded block row. -/
def Job.decodedRow (j : Job) (bl : List Block) (y : Nat) : List Nat :=
  (List.range j.cWidth).map (fun x =>
    blockSample (lget bl (x / 32) (emptyBlock 0 0)) j.cComp j.cDepth j.cShift j.cFull x y)

/-- Write one decoded row: the state, the job with its count of rows, and the status of a stop. -/
def decompressOne (bl : List Block) (y : Nat) (st : State × Job × Option Nat) : State × Job × Option Nat :=
  match st.2.2 with
  | some _ => st
  | none =>
    let j := st.2.1
    let (s1, denied) := codecWrite st.1 j (j.cDst + y * j.cDstSize) (j.rowBytes (j.decodedRow bl y))
    if denied then (s1, j, some 4) else (s1, { j with units := y + 1 }, none)

/-- Compare one decoded row with its reference row. -/
def compareOne (bl : List Block) (y : Nat) (st : State × Job × Option Nat) : State × Job × Option Nat :=
  match st.2.2 with
  | some _ => st
  | none =>
    let j := st.2.1
    let (s1, err, bs) := codecRead st.1 j (j.cDst + y * j.cDstSize) (j.cWidth * j.cBytes)
    if err then (s1, j, some 3)
    else
      let ref := j.rowSamples bs
      let got := j.decodedRow bl y
      let bad := (List.range j.cWidth).filter (fun x => lget ref x 0 % 2 ^ j.cDepth != lget got x 0)
      let c := j.cdc
      let c' := match bad with
        | [] => c
        | x :: _ => { c with mismatches := min (c.mismatches + bad.length) 0xFFFFFFFF,
                             firstCol := if c.mismatches = 0 then x else c.firstCol,
                             firstRow := if c.mismatches = 0 then y else c.firstRow }
      (s1, { j with units := y + 1, cdc := c' }, none)

/-- A DECOMPRESS or COMPARE job handles block row `cdc.blockRow`. -/
def decodeJobRow (s : State) (j : Job) : State :=
  let r := j.cdc.blockRow
  let e := j.cEntry
  if j.cSrcSize < r * e + e then codecEnd s j 5 0x23 0
  else
    let (s1, err1, idx) := codecRead s j (j.cSrc + r * e) e
    if err1 then codecEnd s1 j 3 0 0
    else
      let ro := beAt idx 0 4
      let rl := beAt idx 4 4
      if j.cSrcSize < ro + rl then codecEnd s1 j 5 0x23 0
      else
        let (s2, err2, row) := codecRead s1 j (j.cSrc + ro) rl
        if err2 then codecEnd s2 j 3 0 0
        else
          let rd := fun o => if r * e ≤ o ∧ o < r * e + e then (idx.getD (o - r * e) 0).toNat
            else if ro ≤ o ∧ o < ro + rl then (row.getD (o - ro) 0).toNat else 0
          let lens := entryLens rd (r * e)
          if tableValid lens = false then codecEnd s2 j 5 0x24 0
          else if lens ≠ j.cdc.lens then codecEnd s2 j 6 0 0
          else
            let dec := decodeRow rd j.cSrcSize j.cCols j.cComp j.cStored r 0 j.cCols
            if firstFault dec ≠ 0 then codecEnd s2 j 5 (firstFault dec) 0
            else
              let n := min 4 (j.cHeight - 4 * r)
              let one := if j.cOp = 2 then decompressOne dec.blocks else compareOne dec.blocks
              let (s3, j3, stop) := forUp n (fun i st => one (4 * r + i) st) (s2, j, none)
              match stop with
              | some st => codecEnd s3 j3 st 0 0
              | none =>
                let j4 := { j3 with cdc := { j3.cdc with
                  blockRow := r + 1, produced := j3.cdc.produced + e + rl,
                  lens := if j.cDynamic then rebuildTable (rowHistogram dec.blocks) else j3.cdc.table } }
                if j.cHeight ≤ 4 * (r + 1) then codecEnd s3 j4 (if j4.cdc.mismatches = 0 then 0 else 9) 0 0
                else codecGoOn s3 j4

/-! ### Starting jobs -/

/-- The codec engine may start job j: it runs, is not paused, executes fewer than 4 jobs and none of j's ring. -/
def Dev.codecFree (d : Dev) (j : Job) : Bool :=
  d.engineOn 0x50 && ! d.rdb CDC_CTRL.pause && decide ((d.runningJobs 0x50).length < 4) &&
  ! (d.jobsOf j.ring).any (fun k => k.state == 2)

/-- R401, R405: a COMPRESS job's rows suit its component's height. -/
def compressRowsOk (j : Job) : Bool :=
  decide (j.cTotal ≤ j.cHeight) && (j.cFlush || j.cRows % 4 == 0 || j.cTotal == j.cHeight)

/-- A COMPRESS job starts: checks, its context when it resumes, and its working values. -/
def startCompress (s : State) (j : Job) : State :=
  let table := s.dev.codingTable j.cCoding
  if s.dev.codecOk j = false then codecEnd s j 2 0 0
  else if j.cResume then
    let (s1, err, b) := codecRead s j j.cCtx 256
    let j1 := { j with cdc := resumeWork b table }
    if err then codecEnd s1 j 3 0 0
    else if contextFits j b = false then codecEnd s1 j 7 0 0
    else if compressRowsOk j1 = false then codecEnd s1 j 2 0 0
    else codecGoOn s1 { j1 with state := 2 }
  else
    let j1 := { j with cdc := freshWork table (j.cBlockRows * j.cEntry) }
    if compressRowsOk j1 = false then codecEnd s j 2 0 0 else codecGoOn s { j1 with state := 2 }

/-- A DECOMPRESS or COMPARE job starts. -/
def startDecode (s : State) (j : Job) : State :=
  if s.dev.codecOk j = false then codecEnd s j 2 0 0
  else codecGoOn s { j with state := 2, cdc := freshWork (s.dev.codingTable j.cCoding) 0 }

/-- The ring's next job starts when it is a codec job of this opcode and nothing holds it back. -/
def codecStart (s : State) (r op : Nat) (f : State → Job → State) : State :=
  match s.dev.nextToStart r with
  | some j => if j.engine == 0x50 && j.cOp == op && s.dev.codecFree j then f s j else s
  | none => s

/-- COMPRESS (R398): ring r's next job. -/
def execCompress (r : Nat) (s : State) : Res := .next (codecStart s r 1 startCompress)

/-- DECOMPRESS (R408). -/
def execDecompress (r : Nat) (s : State) : Res := .next (codecStart s r 2 startDecode)

/-- COMPARE (R410). -/
def execCompare (r : Nat) (s : State) : Res := .next (codecStart s r 3 startDecode)

/-- CODEC_BLOCK_ROW_DONE (R450): the running codec job in an in-flight entry handles its next block row. -/
def execCodecBlockRowDone (r slot : Nat) (s : State) : Res :=
  match s.dev.jobAt r slot with
  | some j =>
    if j.engine == 0x50 && j.state == 2 && ! j.finished && s.dev.engineOn 0x50 then
      .next (if j.cOp = 1 then compressRow s j else decodeJobRow s j)
    else .next s
  | none => .next s

end Sys2Proof.Machine
end

