-- ==== Sys2Proof/Machine/Dma.lean ====
section
/-!
DEFINITION. The DMA engine (11_stokers_rings.md R446, R447) and a stoker's local memory as bytes (R423).
-/
namespace Sys2Proof.Machine

/-! ### Local memory -/

/-- The size of a stoker's local memory. -/
def localBytes : Nat := 0x20000

/-- A byte of local memory, and a store of one; an unlisted byte is 0. -/
def StkCore.byte (c : StkCore) (a : Nat) : Byte := tget c.mem a 0
def StkCore.putByte (c : StkCore) (a : Nat) (b : Byte) : StkCore :=
  { c with mem := if b = 0 then tdel c.mem a else tput c.mem a b }

/-- n bytes of local memory from an address. -/
def StkCore.bytes (c : StkCore) (a n : Nat) : List Byte := (List.range n).map (fun i => c.byte (a + i))

/-- Bytes stored in local memory from an address. -/
def StkCore.putBytes (c : StkCore) : Nat → List Byte → StkCore
  | _, [] => c
  | a, b :: bs => (c.putByte a b).putBytes (a + 1) bs

/-- A store by another agent to n bytes from a ends a reservation that they meet. -/
def StkCore.dropReservation (c : StkCore) (a n : Nat) : StkCore :=
  if c.resv.any (fun r => decide (r < a + n) && decide (a < r + 4)) then { c with resv := none } else c

/-! ### Descriptors (R446) -/

/-- The DMA descriptor's fields. -/
def Job.dOp (j : Job) : Nat := j.w 0x20 % 256
def Job.dSrcLocal (j : Job) : Bool := bit (j.w 0x20) 8
def Job.dDstLocal (j : Job) : Bool := bit (j.w 0x20) 9
def Job.dStoker (j : Job) : Nat := bits (j.w 0x20) 21 16
def Job.dSrc (j : Job) : Nat := j.addr 0x24
def Job.dDst (j : Job) : Nat := j.addr 0x2C
def Job.dLen (j : Job) : Nat := j.w 0x34
def Job.dCopy (j : Job) : Bool := j.dOp == 1

/-- A range that is local lies within local memory and belongs to a secure job. -/
def localOk (secure isLocal : Bool) (a n : Nat) : Bool := ! isLocal || (secure && decide (a + n ≤ localBytes))

/-- R446: the job is accepted. -/
def Dev.dmaOk (d : Dev) (j : Job) : Bool :=
  let sec := d.ringSecure j.ring
  let n := j.dLen
  n % 32 == 0 && decide (32 ≤ n) && decide (n ≤ 0xFFFFFFE0) && j.dDst % 32 == 0 && localOk sec j.dDstLocal j.dDst n &&
  (! j.dCopy ||
    (j.dSrc % 32 == 0 && localOk sec j.dSrcLocal j.dSrc n &&
     ! (j.dSrcLocal == j.dDstLocal && rangesMeet (j.dSrc, j.dSrc + n - 1) (j.dDst, j.dDst + n - 1))))

/-! ### Moving (R447) -/

/-- 32 bytes at offset o of the job's source: the state, whether the read failed, and the bytes. -/
def dmaRead (s : State) (j : Job) (o : Nat) : State × Bool × List Byte :=
  if j.dCopy = false then (s, false, (List.range 8).flatMap (fun _ => leBytes 4 (j.w 0x24)))
  else if j.dSrcLocal then (s, false, (s.dev.core j.dStoker).bytes (j.dSrc + o) 32)
  else readHbm s 22 (s.dev.ringSecure j.ring) (j.dSrc + o) 32

/-- 32 bytes written at offset o of the job's destination, and whether the write was denied. -/
def dmaWrite (s : State) (j : Job) (o : Nat) (bs : List Byte) : State × Bool :=
  if j.dDstLocal then
    (onDev s (fun d => d.setCore j.dStoker (((d.core j.dStoker).putBytes (j.dDst + o) bs).dropReservation (j.dDst + o) bs.length)), false)
  else writeHbm s 22 (s.dev.ringSecure j.ring) (j.dDst + o) bs

/-- One 32-byte move: the state, the bytes done, and the status of a stop. -/
def dmaBurst (j : Job) (st : State × Nat × Option Nat) : State × Nat × Option Nat :=
  match st.2.2 with
  | some _ => st
  | none =>
    let (s1, err, bs) := dmaRead st.1 j st.2.1
    if err then (s1, st.2.1, some 2)
    else
      let (s2, denied) := dmaWrite s1 j st.2.1 bs
      if denied then (s2, st.2.1, some 3) else (s2, st.2.1 + 32, none)

/-- Progress of a DMA job: status and bytes done. -/
def dmaProgress (status n : Nat) : List Nat := [status * 2 ^ 24, n, 0, 0, 0]

/-- R447: the next 4,096 bytes of the job, or what is left of it. -/
def dmaStep (s : State) (j : Job) : State :=
  let n := min 4096 (j.dLen - j.units)
  let (s1, done, stop) := forUp (n / 32) (fun _ st => dmaBurst j st) (s, j.units, none)
  let j1 := { j with units := done }
  match stop with
  | some st => onDev s1 (fun d => d.finishJob j1 (dmaProgress st done))
  | none =>
    if j.dLen ≤ done then onDev s1 (fun d => d.finishJob j1 (dmaProgress 0 done))
    else onDev s1 (fun d => d.setJob { j1 with progress := dmaProgress 0 done })

/-- The ring's next job starts when it is a DMA job of this opcode; the engine runs up to 4. -/
def Dev.dmaStart (d : Dev) (r op : Nat) : Dev :=
  match d.nextToStart r with
  | some j =>
    if j.engine == 0x52 && j.dOp == op && d.engineOn 0x52 && decide ((d.runningJobs 0x52).length < 4) then
      (if d.dmaOk j then d.setJob { j with state := 2 } else d.finishJob j (dmaProgress 1 0))
    else d
  | none => d

/-- DMA_COPY (R446): ring r's next job. -/
def execDmaCopy (r : Nat) (s : State) : Res := nextDev s (fun d => d.dmaStart r 1)

/-- DMA_FILL (R446). -/
def execDmaFill (r : Nat) (s : State) : Res := nextDev s (fun d => d.dmaStart r 2)

/-- DMA_PROGRESS (R447): the running DMA job in an in-flight entry moves on by 4,096 bytes. -/
def execDmaProgress (r slot : Nat) (s : State) : Res :=
  match s.dev.jobAt r slot with
  | some j =>
    if j.engine == 0x52 && j.state == 2 && ! j.finished && s.dev.engineOn 0x52 then .next (dmaStep s j) else .next s
  | none => .next s

end Sys2Proof.Machine
end

