-- ==== Sys2Proof/Machine/PartialWrite.lean ====
section
/-!
DEFINITION. Partial writes (08_tile_control.md R323 to R329): a tile-control job's checks, its packets, its rate limit and power bound.
-/
namespace Sys2Proof.Machine

/-- The partial-write descriptor's fields. -/
def Job.pWriteId (j : Job) : Nat := j.w 0x20 / 2 ^ 16
def Job.pWidth (j : Job) : Nat := j.w 0x24 / 2 ^ 16
def Job.pCol (j : Job) : Nat := j.w 0x24 % 2 ^ 16
def Job.pRows (j : Job) : Nat := j.w 0x28 / 2 ^ 16
def Job.pRow (j : Job) : Nat := j.w 0x28 % 2 ^ 16
def Job.pViews (j : Job) : Nat := bits (j.w 0x2C) 7 4
def Job.pView (j : Job) : Nat := bits (j.w 0x2C) 3 0
def Job.pSource (j : Job) : Nat := j.addr 0x30
def Job.pPitch (j : Job) : Nat := j.w 0x38

/-- R323: the region lies in the tile of its port and its width is a multiple of 4. -/
def Dev.regionOk (d : Dev) (j : Job) : Bool :=
  match d.img.tileClass (d.portClass j.pPort) with
  | none => false
  | some c =>
    j.pWidth % 4 == 0 && decide (0 < j.pWidth) && decide (j.pCol + j.pWidth ≤ c.cols) && decide (0 < j.pRows) &&
    decide (j.pRow + j.pRows ≤ c.rows) && decide (0 < j.pViews) && decide (j.pView + j.pViews ≤ c.viewRows)

/-- R328: two regions of one port overlap. -/
def regionsMeet (j k : Job) : Bool :=
  let meet (a n b m : Nat) : Bool := decide (a < b + m) && decide (b < a + n)
  j.pPort == k.pPort && meet j.pCol j.pWidth k.pCol k.pWidth && meet j.pRow j.pRows k.pRow k.pRows &&
  meet j.pView j.pViews k.pView k.pViews

/-- R328: job j waits for an earlier job of its port: one not started yet, or one still running whose region overlaps. -/
def Dev.pwWaits (d : Dev) (j : Job) : Bool :=
  (d.engineJobs 0x53).any (fun k => decide (k.order < j.order) && k.pPort == j.pPort && ! k.finished &&
    (k.state == 1 || (k.state == 2 && regionsMeet j k)))

/-- R329: the status with which the port's state stops a job, or 0; `Dev.pwStop` ends a running job at the moment that state arises. -/
def Dev.pwPortStop (d : Dev) (n : Nat) : Nat :=
  if (d.img.port n).isNone ∨ d.rdb TCT_PORT_CTRL.frozen n = false then 1
  else if d.rdb FSC_STATUS.hb_expired || d.rd TCT_PORT_STATE.pstate n == 6 then 6
  else if ! d.linkUp n || ! d.lit n then 2
  else 0

/-- The ring's next tile-control job starts or is refused (R323, R329). -/
def Dev.pwStart (d : Dev) (r : Nat) : Dev :=
  match d.nextToStart r with
  | some j =>
    if j.engine == 0x53 && d.engineOn 0x53 && ! d.pwWaits j then
      if (d.img.port j.pPort).isSome ∧ d.regionOk j = false then d.finishJob j (j.pProgress 4)
      else if d.pwPortStop j.pPort ≠ 0 then d.finishJob j (j.pProgress (d.pwPortStop j.pPort))
      else d.setJob { j with state := 2 }
    else d
  | none => d

/-! ### Packets (R324 to R328) -/

/-- R324: a packet may leave now: no lane idles, and in the active lines no packet of a job has left in this line period. -/
def Dev.pwRoom (d : Dev) (n : Nat) : Bool :=
  let g := d.portGroup n
  let key := (d.scnG g).k * 8192 + d.curLine g + 1
  ! d.lanesIdle n && ! ((d.scnG g).begun && ! d.inExtension g && decide (d.curLine g < d.nActive g) && (d.ctl n).pwLine == key)

/-- The rays of a packet: its row of words, limited by the firescreen (R325), as (quarter, words). -/
def Dev.pwRays (d : Dev) (j : Job) (col hogels : Nat) (words : List Nat) : List (Nat × Rgb) :=
  let n := j.pPort
  let row := j.pRow + j.units % j.pRows
  (List.range (12 * hogels)).map (fun k =>
    let q := d.quarterOf n (j.pCol + col + k / 12) row
    let w := lget words k 0
    (q, limitWords (d.kQuarter n q) (d.ceilings n) ⟨bits w 29 20, bits w 19 10, bits w 9 0⟩))

/-- R326: the limit of one quarter in any second, and the rays it has taken in the last one. -/
def Dev.pwLimit (d : Dev) (n : Nat) : Nat := 3 * (d.fscWord n 0x20 % 2 ^ 16) * (d.frameRays n / 4) / 4095
def Dev.pwTaken (d : Dev) (n q : Nat) : Nat :=
  (tget (d.ctl n).pwRays q []).foldl (fun a p => if d.ticks < p.1 + 250000000 then a + p.2 else a) 0

/-- R326: the packet's rays fit below the limit of every quarter. -/
def Dev.pwFits (d : Dev) (n : Nat) (rays : List (Nat × Rgb)) : Bool :=
  (List.range 4).all (fun q =>
    let m := rays.countP (fun p => p.1 == q)
    m == 0 || decide (d.pwTaken n q + m ≤ d.pwLimit n))

/-- R327: the dynamic power of a port's partial writes since its last swap, from their code sums. -/
def Dev.pwPower (d : Dev) (n : Nat) (sums : List Nat) : Nat := d.portPower n sums - d.p0 n

/-- The code sums with a packet's rays added. -/
def addSums (sums : List Nat) (rays : List (Nat × Rgb)) : List Nat :=
  rays.foldl (fun l p => [lget l 0 0 + driveDec p.2.r, lget l 1 0 + driveDec p.2.g, lget l 2 0 + driveDec p.2.b]) sums

/-- R327: with these code sums the port's bound passes its ceiling, or the wall's sum the wall ceiling. -/
def Dev.pwOverPower (d : Dev) (n : Nat) (sums : List Nat) : Bool :=
  let bound := d.rd FSC_PORT_POWER.power n + d.pwPower n sums
  let others := d.litPorts.foldl (fun a m => if m = n then a else a + d.rd FSC_PORT_POWER.power m + d.pwPower m (d.ctl m).pwSums) 0
  decide (d.tileCeil n < bound) || decide (d.wallCeil < others + bound)

/-- The port's record of a packet sent: rays by quarter, code sums, and the line it left in. -/
def Dev.pwCount (d : Dev) (n : Nat) (rays : List (Nat × Rgb)) : Dev :=
  let x := d.ctl n
  let g := d.portGroup n
  let log := forUp 4 (fun q t =>
    let m := rays.countP (fun p => p.1 == q)
    tput t q ((d.ticks, m) :: (tget t q []).filter (fun p => decide (d.ticks < p.1 + 250000000)))) x.pwRays
  d.setCtl n { x with pwRays := log, pwSums := addSums x.pwSums rays, pwLine := (d.scnG g).k * 8192 + d.curLine g + 1 }

/-- R324: the PARTIAL_WRITE packet of a job's next hogels. -/
def Dev.pwSend (d : Dev) (j : Job) (hogels : Nat) (rays : List (Nat × Rgb)) : Dev :=
  let body := wordBytes [j.pWriteId * 2 ^ 16, (j.pCol + j.col) * 2 ^ 16 + hogels,
      (j.pView + j.units / j.pRows) * 2 ^ 28 + (j.pRow + j.units % j.pRows) * 2 ^ 16] ++
    packRays (rays.map (fun p => rayValue p.2.r p.2.g p.2.b))
  d.sendControl j.pPort 5 body

/-- The job after a packet of so many hogels: its next column, or its next row, or done. -/
def Dev.pwAdvance (d : Dev) (j : Job) (hogels : Nat) : Dev :=
  if j.col + hogels < j.pWidth then d.setJob { j with col := j.col + hogels }
  else
    let j1 := { j with col := 0, units := j.units + 1 }
    if j.pRows * j.pViews ≤ j1.units then d.finishJob j1 (j1.pProgress 0)
    else d.setJob { j1 with progress := j1.pProgress 0 }

/-- R324 to R329: the next packet of a running job, at most 16 hogels of one row. -/
def pwPacket (s : State) (j : Job) : State :=
  let n := j.pPort
  let stop := s.dev.pwPortStop n
  if stop ≠ 0 then onDev s (fun d => d.finishJob j (j.pProgress stop))
  else if j.held ∨ s.dev.pwRoom n = false then s
  else
    let hogels := min 16 (j.pWidth - j.col)
    let (s1, err, bs) := readHbm s 23 (s.dev.ringSecure j.ring) (j.pSource + j.units * j.pPitch + j.col * 48) (48 * hogels)
    if err then onDev s1 (fun d => d.finishJob j (j.pProgress 5))
    else
      onDev s1 (fun d =>
        let rays := d.pwRays j j.col hogels (leWords (12 * hogels) bs)
        if d.pwFits n rays = false then d.setJob { j with held := true }
        else if d.pwOverPower n (addSums (d.ctl n).pwSums rays) then d.finishJob j (j.pProgress 3)
        else ((d.pwSend j hogels rays).pwCount n rays).pwAdvance j hogels)

/-- A held job whose next packet fits below the limit again resumes (R326): the most rays a packet of it can have in a quarter. -/
def Dev.pwResume (d : Dev) (j : Job) : Dev :=
  let n := j.pPort
  let hogels := min 16 (j.pWidth - j.col)
  if d.pwFits n (d.pwRays j j.col hogels []) then d.setJob { j with held := false } else d

/-- The running partial-write job in an in-flight entry. -/
def Dev.pwJob (d : Dev) (r slot : Nat) : Option Job :=
  match d.jobAt r slot with
  | some j => if j.engine == 0x53 && j.state == 2 && ! j.finished && d.engineOn 0x53 then some j else none
  | none => none

/-- PARTIAL_WRITE_JOB (R323): ring r's next tile-control job. -/
def execPartialWriteJob (r : Nat) (s : State) : Res := nextDev s (fun d => d.pwStart r)

/-- PARTIAL_WRITE_PACKET (R324): the job in an in-flight entry. -/
def execPartialWritePacket (r slot : Nat) (s : State) : Res :=
  match s.dev.pwJob r slot with
  | some j => .next (pwPacket s j)
  | none => .next s

/-- PARTIAL_WRITE_RESUME (R326): rays have left the 1 s window of a held job. -/
def execPartialWriteResume (r slot : Nat) (s : State) : Res :=
  match s.dev.pwJob r slot with
  | some j => if j.held then nextDev s (fun d => d.pwResume j) else .next s
  | none => .next s

end Sys2Proof.Machine
end

