-- ==== Sys2Proof/Machine/Rows.lean ====
section
/-!
DEFINITION. The rows that name one write of one register (01_architecture.md R27, R598): each takes effect after the same writer's
earlier stores to that block, if the fabric lets it through, by the block's own effect of that register.
-/
namespace Sys2Proof.Machine

/-- R27: the writer's earlier writes to the block of register e have taken effect. -/
def rowBefore (s : State) (who : Initiator) (e : RegEnt) (i j : Nat) : State :=
  settled who (e.at_ i j) s

/-- A write row's effect on the device: the writer's earlier writes to the block first (R27), then the fabric's decision (R598). -/
def rowWrite (s : State) (who : Initiator) (e : RegEnt) (i j : Nat) (f : Dev → Dev) : State :=
  onDev (rowBefore s who e i j) (fun d => d.gate who e i j f)

/-- The same for an effect that reaches past the device part of the state. -/
def rowWriteS (s : State) (who : Initiator) (e : RegEnt) (i j : Nat) (f : State → State) : State :=
  gateS (rowBefore s who e i j) who e i j f

/-! ### Ingest and rays -/

/-- LTABLE_COMMIT (R127): a write of ING_LTABLE_CTRL. -/
def execLtableCommit (who : Initiator) (v : Nat) (s : State) : Res :=
  .next (rowWrite s who ING_LTABLE_CTRL.ent 0 0 (fun d => d.tableCommit (v % 256)))

/-- SLICE_FORCE_FAIL (R161, R165): a write of RAY_SPARE_CTRL with force_fail. -/
def execSliceForceFail (who : Initiator) (v : Nat) (inPacket : Bool) (s : State) : Res :=
  .next (rowWrite s who RAY_SPARE_CTRL.ent 0 0 (fun d => (d.sourceAbort (v % 128) inPacket).spareWrite (withBit v 30)))

/-- SLICE_TAKEOVER_CMD (R165): a write of RAY_SPARE_CTRL with takeover. -/
def execSliceTakeoverCmd (who : Initiator) (v : Nat) (s : State) : Res :=
  .next (rowWrite s who RAY_SPARE_CTRL.ent 0 0 (fun d => d.spareWrite (withBit v 31)))

/-- BELLOWS_WM_WRITE (R169). -/
def execBellowsWmWrite (who : Initiator) (v : Nat) (s : State) : Res :=
  .next (rowWrite s who RAY_BELLOWS_WM.ent 0 0 (fun d => d.bellowsWrite v))

/-! ### Composition -/

/-- PENDING_XFER_WRITE (R179): a write of CMP_PORT_SEL[n]. -/
def execPendingXferWrite (who : Initiator) (n v : Nat) (s : State) : Res :=
  .next (rowWrite s who CMP_PORT_SEL.ent n 0 (fun d => d.portSelWrite n v))

/-- DITHER_OFF_WRITE (R199): a write of CMP_PORT_SEL[n]. -/
def execDitherOffWrite (who : Initiator) (n v : Nat) (s : State) : Res :=
  .next (rowWrite s who CMP_PORT_SEL.ent n 0 (fun d => d.portSelWrite n v))

/-- PALETTE_WRITE (R183): a write of CMP_OVL_PAL_LO or CMP_OVL_PAL_HI. -/
def execPaletteWrite (who : Initiator) (bank e : Nat) (high : Bool) (v : Nat) (s : State) : Res :=
  .next (rowWrite s who (if high then CMP_OVL_PAL_HI.ent else CMP_OVL_PAL_LO.ent) bank e (fun d => d.paletteWrite bank e high v))

/-- MAP_COMMIT (R189, R192): a write of CMP_MAP_CTRL[n] with commit. -/
def execMapCommit (who : Initiator) (n v : Nat) (s : State) : Res :=
  .next (rowWrite s who CMP_MAP_CTRL.ent n 0 (fun d => d.mapCtrlWrite n (withBit v 31)))

/-! ### Scan timing -/

/-- COMMIT (R224, R225, R228): a write of SCN_COMMIT[g] with commit. -/
def execCommit (who : Initiator) (g v : Nat) (s : State) : Res :=
  .next (rowWrite s who SCN_COMMIT.ent g 0 (fun d => d.commitWrite g (withBit v 31)))

/-- CANCEL (R229): a write of SCN_COMMIT[g] with cancel. -/
def execCancel (who : Initiator) (g v : Nat) (s : State) : Res :=
  .next (rowWrite s who SCN_COMMIT.ent g 0 (fun d => d.commitWrite g (withBit v 30)))

/-- IDLE_ENABLE_WRITE (R239): a write of SCN_IDLE_CFG[g]; it takes effect at the next line L_swap + 1. -/
def execIdleEnableWrite (who : Initiator) (g v : Nat) (s : State) : Res :=
  .next (rowWrite s who SCN_IDLE_CFG.ent g 0 (fun d => d.wrb SCN_IDLE_CFG.enable (bit v 0) g))

/-! ### Tile link -/

/-- TRAIN_WRITE (R259): a write of TLK_PORT_CTRL[n] with train. -/
def execTrainWrite (who : Initiator) (n v : Nat) (s : State) : Res :=
  .next (rowWrite s who TLK_PORT_CTRL.ent n 0 (fun d => d.tlkPortWrite n (withBit v 31)))

/-- PORT_DOWN_WRITE (R259): a write of TLK_PORT_CTRL[n] with down. -/
def execPortDownWrite (who : Initiator) (n v : Nat) (s : State) : Res :=
  .next (rowWrite s who TLK_PORT_CTRL.ent n 0 (fun d => d.tlkPortWrite n (withBit v 30)))

/-- TEST_START (R281): a write of TLK_TEST[n] with start. -/
def execTestStart (who : Initiator) (n v : Nat) (s : State) : Res :=
  .next (rowWrite s who TLK_TEST.ent n 0 (fun d => d.testWrite n (withBit v 31)))

/-! ### Tile control -/

/-- RESCAN (R305): a write of TCT_CTRL with rescan. -/
def execRescan (who : Initiator) (v : Nat) (s : State) : Res :=
  .next (rowWrite s who TCT_CTRL.ent 0 0 (fun d => d.tctCtrlWrite (d.secureOf who) (withBit v 1)))

/-- POWER_UP (R307): a write of TCT_PORT_CTRL[n] with power_up. -/
def execPowerUp (who : Initiator) (n v : Nat) (s : State) : Res :=
  .next (rowWrite s who TCT_PORT_CTRL.ent n 0 (fun d => d.tctPortWrite n (withBit v 31)))

/-! ### Kindling -/

/-- WALL_UP (R307, R308): a write of TCT_CTRL with wall_up. -/
def execWallUp (who : Initiator) (v : Nat) (s : State) : Res :=
  .next (rowWrite s who TCT_CTRL.ent 0 0 (fun d => d.tctCtrlWrite (d.secureOf who) (withBit v 0)))

/-! ### Tile control -/

/-- POWER_DOWN (R309): a write of TCT_PORT_CTRL[n] with power_down. -/
def execPowerDown (who : Initiator) (n v : Nat) (s : State) : Res :=
  .next (rowWrite s who TCT_PORT_CTRL.ent n 0 (fun d => d.tctPortWrite n (withBit v 30)))

/-- FREEZE_WRITE (R322): a write of TCT_PORT_CTRL[n]; freeze takes effect at the next line L_deadline. -/
def execFreezeWrite (who : Initiator) (n v : Nat) (s : State) : Res :=
  .next (rowWrite s who TCT_PORT_CTRL.ent n 0 (fun d => d.tctPortWrite n v))

/-! ### Firescreen -/

/-- HEARTBEAT_REFRESH (R347): a write of FSC_HEARTBEAT. -/
def execHeartbeatRefresh (who : Initiator) (v : Nat) (s : State) : Res :=
  .next (rowWrite s who FSC_HEARTBEAT.ent 0 0 (fun d => d.hbWrite (withBit v 0)))

/-- LEVEL_WRITE (R337): a write of FSC_PORT_LEVEL[n]. -/
def execLevelWrite (who : Initiator) (n v : Nat) (s : State) : Res :=
  .next (rowWrite s who FSC_PORT_LEVEL.ent n 0 (fun d => d.levelWrite n v))

/-! ### Memory and arbitration -/

/-- ARB_CONFIG_WRITE (R392): a write of ARB_INST_CFG[i], or of ARB_REQ_CFG[i][r]. -/
def execArbConfigWrite (who : Initiator) (i : Nat) (r : Option Nat) (v : Nat) (s : State) : Res :=
  match r with
  | none => .next (rowWrite s who ARB_INST_CFG.ent i 0 (fun d => d.arbInstWrite i v))
  | some r => .next (rowWrite s who ARB_REQ_CFG.ent i r (fun d => d.arbReqWrite i r v))

/-- HBM_REQUEST (R361, R384, R517): an HBM transaction of a requester in the world its source has, through the mailbox's window where it
comes from there, or with `door` a doorbell write of `data` to
control address `addr`, which follows its writer's earlier writes to STK (R27). -/
def execHbmRequest (req : Nat) (src : ReqSrc) (write : Bool) (addr len : Nat) (data : List Byte) (stream : Option Nat)
    (door : Option Initiator) (s : State) : Res :=
  match door with
  | some who =>
    let s1 := drainOwn who addr s
    nextDev (match regAt addr with
      | some (_, r, _) => settleDoors who (fun k => s1.dev.doorInst r != some k) s1
      | none => s1) (fun d => d.doorIssue who addr (leNat data % 2 ^ 32))
  | none =>
    nextDev s (fun d =>
      let a := d.srcAddr src addr
      if d.windowBlocked src then d.windowReject write addr len
      else if decide (req < 32) && txnShapeOk a len && (! write || data.length == len) then
        d.hbmIssue { req := req, secure := d.reqWorld req src, write := write, addr := a, len := len, data := data, stream := stream,
                     stamp := 0, left := len / 32, door := none, order := 0, core := none }
      else d)

/-- CORD_WM_WRITE (R370): a write of MEM_CORD_WM. -/
def execCordWmWrite (who : Initiator) (v : Nat) (s : State) : Res :=
  .next (rowWrite s who MEM_CORD_WM.ent 0 0 (fun d => d.cordWmWrite v))

/-! ### Rings and locks -/

/-- A doorbell row: the write passes its arbiter (R441), which runs until it has granted it, and takes effect in STK. -/
def doorRow (who : Initiator) (e : RegEnt) (r v : Nat) (s : State) : State :=
  afterDoors who 12 (rowWriteS s who e r 0 (fun s => onDev s (fun d => d.doorIssue who (e.at_ r 0) (v % 2 ^ 32))))

/-- PI_WRITE (R440, R441): a doorbell write of STK_RING_PI[r] takes effect in STK. -/
def execPiWrite (who : Initiator) (r v : Nat) (s : State) : Res := .next (doorRow who STK_RING_PI.ent r v s)

/-- CI_WRITE (R440 to R442): a doorbell write of STK_RING_CI[r] takes effect in STK. -/
def execCiWrite (who : Initiator) (r v : Nat) (s : State) : Res := .next (doorRow who STK_RING_CI.ent r v s)

/-- RING_PARK (R453): a write of STK_RING_CTRL[r] with park alone. -/
def execRingPark (who : Initiator) (r : Nat) (s : State) : Res :=
  .next (rowWrite s who STK_RING_CTRL.ent r 0 (fun d => d.ringCtrlWrite who r (2 ^ 31)))

/-- RING_UNPARK (R455). -/
def execRingUnpark (who : Initiator) (r : Nat) (s : State) : Res :=
  .next (rowWrite s who STK_RING_CTRL.ent r 0 (fun d => d.ringCtrlWrite who r (2 ^ 30)))

/-- RING_REASSIGN (R454). -/
def execRingReassign (who : Initiator) (r : Nat) (s : State) : Res :=
  .next (rowWrite s who STK_RING_CTRL.ent r 0 (fun d => d.ringCtrlWrite who r (2 ^ 29)))

/-- CLEAR_INFLIGHT (R452). -/
def execClearInflight (who : Initiator) (r : Nat) (s : State) : Res :=
  .next (rowWrite s who STK_RING_CTRL.ent r 0 (fun d => d.ringCtrlWrite who r (2 ^ 28)))

/-- IF_SEL_WRITE (R449). -/
def execIfSelWrite (who : Initiator) (v : Nat) (s : State) : Res :=
  .next (rowWrite s who STK_IF_SEL.ent 0 0 (fun d => d.ifSelWrite v))

/-- LOCK_RELEASE (R458): a write of STK_LOCK_REL[n]. -/
def execLockRelease (who : Initiator) (n v : Nat) (s : State) : Res :=
  .next (rowWrite s who STK_LOCK_REL.ent n 0 (fun d => d.lockRelease who n v))

/-! ### Stokers -/

/-- STOKER_FORCE_FAIL (R431): a write of STK_STOKER_CTRL[n] with force_fail. -/
def execStokerForceFail (who : Initiator) (n v fuses : Nat) (s : State) : Res :=
  .next (rowWriteS s who STK_STOKER_CTRL.ent n 0 (stokerControl n (withBit v 30) fuses))

/-- STOKER_RESET (R436): a write of STK_STOKER_CTRL[n] with reset. -/
def execStokerReset (who : Initiator) (n v fuses : Nat) (s : State) : Res :=
  .next (rowWriteS s who STK_STOKER_CTRL.ent n 0 (stokerControl n (withBit v 31) fuses))

/-! ### Network and time -/

/-- AN_RESTART (R463): a write of NET_ETH_CTRL[e]. -/
def execAnRestart (who : Initiator) (e v : Nat) (s : State) : Res :=
  .next (rowWrite s who NET_ETH_CTRL.ent e 0 (fun d => d.ethCtrlWrite e v))

/-- QUEUE_INDEX_WRITE (R468): a write of NET_Q_HEAD[q] or NET_Q_TAIL[q]. -/
def execQueueIndexWrite (who : Initiator) (q : Nat) (head : Bool) (v : Nat) (s : State) : Res :=
  .next (rowWrite s who (if head then NET_Q_HEAD.ent else NET_Q_TAIL.ent) q 0 (fun d => d.queueWrite who q head v))

/-- TB_RATE_WRITE (R472). -/
def execTbRateWrite (who : Initiator) (b v : Nat) (s : State) : Res :=
  .next (rowWrite s who NET_TB_RATE.ent b 0 (fun d => d.tbRateWrite b v))

/-- TB_STEP_GO (R473): a write of NET_TB_STEP_CTRL[b]. -/
def execTbStepGo (who : Initiator) (b v : Nat) (s : State) : Res :=
  .next (rowWrite s who NET_TB_STEP_CTRL.ent b 0 (fun d => d.tbStepWrite b v))

/-- TB_SET (R473): a write of NET_TB_CTRL[b]. -/
def execTbSet (who : Initiator) (b v : Nat) (s : State) : Res :=
  .next (rowWrite s who NET_TB_CTRL.ent b 0 (fun d => d.tbCtrlWrite b v))

/-- TB_DISCIPLINE_WRITE (R477): a write of NET_TB_CTRL[b]. -/
def execTbDisciplineWrite (who : Initiator) (b v : Nat) (s : State) : Res :=
  .next (rowWrite s who NET_TB_CTRL.ent b 0 (fun d => d.tbCtrlWrite b v))

/-- SNAPSHOT_TAKE (R476): a write of NET_SNAP_CTRL. -/
def execSnapshotTake (who : Initiator) (v : Nat) (s : State) : Res :=
  .next (rowWrite s who NET_SNAP_CTRL.ent 0 0 (fun d => d.snapWrite v))

/-- TPO_ARM (R487): a write of NET_TPO_CTRL[o]. -/
def execTpoArm (who : Initiator) (o v : Nat) (s : State) : Res :=
  .next (rowWrite s who NET_TPO_CTRL.ent o 0 (fun d => d.tpoCtrlWrite o v))

/-- TPO_DISARM (R489): a write of NET_TPO_CTRL[o]. -/
def execTpoDisarm (who : Initiator) (o v : Nat) (s : State) : Res :=
  .next (rowWrite s who NET_TPO_CTRL.ent o 0 (fun d => d.tpoCtrlWrite o v))

/-! ### Security -/

/-- NONCE_DRAW (R515): a write of SEC_NONCE_CTRL.new. -/
def execNonceDraw (who : Initiator) (s : State) : Res :=
  .next (rowWrite s who SEC_NONCE_CTRL.ent 0 0 Dev.drawNonce)

/-- TOKEN_CHECK (R516): a write of SEC_TOKEN_CTRL.check. -/
def execTokenCheck (who : Initiator) (s : State) : Res :=
  .next (rowWrite s who SEC_TOKEN_CTRL.ent 0 0 (fun d => d.startCheck false SEC_TOKEN.token))

/-- PROGRAM_KEY (R522, R524): a write of SEC_OTP_CMD with op 0x1; v gives its other fields. -/
def execProgramKey (who : Initiator) (v : Nat) (s : State) : Res :=
  .next (rowWriteS s who SEC_OTP_CMD.ent 0 0 (otpCommand (withOp 1 v)))

/-- REVOKE_KEY (R511). -/
def execRevokeKey (who : Initiator) (v : Nat) (s : State) : Res :=
  .next (rowWriteS s who SEC_OTP_CMD.ent 0 0 (otpCommand (withOp 2 v)))

/-- PROGRAM_IMAGE_KEY (R512, R522). -/
def execProgramImageKey (who : Initiator) (v : Nat) (s : State) : Res :=
  .next (rowWriteS s who SEC_OTP_CMD.ent 0 0 (otpCommand (withOp 3 v)))

/-- PROGRAM_CLASS (R520, R522). -/
def execProgramClass (who : Initiator) (v : Nat) (s : State) : Res :=
  .next (rowWriteS s who SEC_OTP_CMD.ent 0 0 (otpCommand (withOp 4 v)))

/-- PROGRAM_WALL (R520, R522). -/
def execProgramWall (who : Initiator) (v : Nat) (s : State) : Res :=
  .next (rowWriteS s who SEC_OTP_CMD.ent 0 0 (otpCommand (withOp 5 v)))

/-- RAISE (R526). -/
def execRaise (who : Initiator) (v : Nat) (s : State) : Res :=
  .next (rowWriteS s who SEC_OTP_CMD.ent 0 0 (otpCommand (withOp 6 v)))

/-- DISABLE_PORT (R528). -/
def execDisablePort (who : Initiator) (v : Nat) (s : State) : Res :=
  .next (rowWriteS s who SEC_OTP_CMD.ent 0 0 (otpCommand (withOp 7 v)))

/-- ADVANCE_ROLLBACK (R513). -/
def execAdvanceRollback (who : Initiator) (v : Nat) (s : State) : Res :=
  .next (rowWriteS s who SEC_OTP_CMD.ent 0 0 (otpCommand (withOp 8 v)))

/-- ADVANCE_LIFECYCLE (R507, R508). -/
def execAdvanceLifecycle (who : Initiator) (v : Nat) (s : State) : Res :=
  .next (rowWriteS s who SEC_OTP_CMD.ent 0 0 (otpCommand (withOp 9 v)))

/-! ### Recorder -/

/-- RECORDER_CLEAR (R547): a write of EVR_CLEAR_CTRL. -/
def execRecorderClear (who : Initiator) (v : Nat) (s : State) : Res :=
  .next (rowWrite s who EVR_CLEAR_CTRL.ent 0 0 (fun d => d.clearWrite v))

/-! ### Resets and power -/

/-- COLD_REGISTER_RESET (R558, R578): a write of GLB_RESET_CTRL with cold. -/
def execColdRegisterReset (who : Initiator) (v : Nat) (b : BootCircs) (s : State) : Res :=
  .next (rowWriteS s who GLB_RESET_CTRL.ent 0 0 (resetCtrlWrite (withBit v 31) b))

/-- WARM_RESET (R558, R561, R578): a write of GLB_RESET_CTRL with warm. -/
def execWarmReset (who : Initiator) (v : Nat) (b : BootCircs) (s : State) : Res :=
  .next (rowWriteS s who GLB_RESET_CTRL.ent 0 0 (resetCtrlWrite (withBit v 30) b))

/-- BLOCK_RESET (R564): a write of GLB_BLOCK_RESET; `inPacket` are the ports with a packet under way. -/
def execBlockReset (who : Initiator) (v : Nat) (inPacket : List Nat) (s : State) : Res :=
  .next (rowWrite s who GLB_BLOCK_RESET.ent 0 0 (fun d => d.blockResetWrite inPacket v))

/-- PORT_RESET (R565): a write of GLB_PORT_RESETm. -/
def execPortReset (who : Initiator) (m v : Nat) (inPacket : List Nat) (s : State) : Res :=
  .next (rowWrite s who GLB_PORT_RESET.ent m 0 (fun d => d.portResetWrite inPacket m v))

/-- SMOULDER_ENTER (R568): a write of GLB_SMOULDER_CTRL with enter. -/
def execSmoulderEnter (who : Initiator) (v : Nat) (s : State) : Res :=
  .next (rowWriteS s who GLB_SMOULDER_CTRL.ent 0 0 (smoulderWrite (withBit v 31)))

/-! ### Kindling -/

/-- RELIGHT_START (R83): a write of KIN_CTRL with relight_start. -/
def execRelightStart (who : Initiator) (v : Nat) (s : State) : Res :=
  .next (rowWriteS s who KIN_CTRL.ent 0 0 (kinWrite (withBit v 0)))

/-- ABORT_RELIGHT (R85): a write of KIN_CTRL with abort_relight. -/
def execAbortRelight (who : Initiator) (v : Nat) (s : State) : Res :=
  .next (rowWriteS s who KIN_CTRL.ent 0 0 (kinWrite (withBit v 1)))

/-- CONFIRM_GOOD (R70): a write of KIN_CTRL with confirm_good. -/
def execConfirmGood (who : Initiator) (v : Nat) (s : State) : Res :=
  .next (rowWriteS s who KIN_CTRL.ent 0 0 (kinWrite (withBit v 8)))

end Sys2Proof.Machine
end

