-- ==== Sys2Proof/Machine/StokerCsr.lean ====
section
/-!
DEFINITION. A stoker's registers, physical memory protection, control and status registers, traps and interrupts (11_stokers_rings.md
R423, R424, R428 to R430 and the custom CSR table). What the manual leaves to "the RISC-V privileged architecture" is that document's
(PRESUMED, log entry 16).
-/
namespace Sys2Proof.Config

/-- mtval takes the information the RISC-V privileged architecture allows it at this exception cause, or 0. -/
opaque mtvalInfo : Nat → Bool

/-- What a WARL field becomes when a value that is not legal for it is written: mstatus.MPP, mtvec.MODE, and the byte of a
pmpcfg whose W is 1 and R is 0; the field's old value and the written one. -/
opaque warl : Nat → Nat → Nat

/-- The identity CSRs 0xF11 to 0xF15 of a stoker. -/
opaque stokerIdentity : Nat → Nat → Nat

end Sys2Proof.Config

namespace Sys2Proof.Machine

/-! ### mstatus -/

/-- The value CSR k holds. -/
def StkCore.csrCell (c : StkCore) (k : Nat) : Nat := tget c.csr k 0
def StkCore.putCsr (c : StkCore) (k v : Nat) : StkCore := { c with csr := tput c.csr k v }

/-- mstatus from its fields MIE, MPIE, MPP, MPRV and TW; its other fields read 0 without supervisor mode and floating point. -/
def mstatusOf (mie mpie : Bool) (mpp : Nat) (mprv tw : Bool) : Nat :=
  b2n mie * 2 ^ 3 + b2n mpie * 2 ^ 7 + mpp * 2 ^ 11 + b2n mprv * 2 ^ 17 + b2n tw * 2 ^ 21

def StkCore.mie (c : StkCore) : Bool := bit (c.csrCell 0x300) 3
def StkCore.mpie (c : StkCore) : Bool := bit (c.csrCell 0x300) 7
def StkCore.mpp (c : StkCore) : Nat := bits (c.csrCell 0x300) 12 11
def StkCore.mprv (c : StkCore) : Bool := bit (c.csrCell 0x300) 17
def StkCore.tw (c : StkCore) : Bool := bit (c.csrCell 0x300) 21

/-- A privilege mode that exists: 0 user, 3 machine. -/
def legalMode (m : Nat) : Bool := m == 0 || m == 3

/-! ### Physical memory protection (R423: 16 entries, granularity 4 bytes; OFF, TOR, NA4, NAPOT) -/

def StkCore.pmpCfg (c : StkCore) (i : Nat) : Nat := c.csrCell (0x3A0 + i / 4) / 256 ^ (i % 4) % 256
def StkCore.pmpAddr (c : StkCore) (i : Nat) : Nat := c.csrCell (0x3B0 + i)

/-- The trailing ones of a number, at most `fuel` of them. -/
def trailOnes : Nat → Nat → Nat
  | 0, _ => 0
  | fuel + 1, a => if a % 2 = 1 then trailOnes fuel (a / 2) + 1 else 0

/-- The byte range [lo, hi) of entry i. -/
def StkCore.pmpRange (c : StkCore) (i : Nat) : Nat × Nat :=
  let a := c.pmpAddr i
  match bits (c.pmpCfg i) 4 3 with
  | 0 => (0, 0)
  | 1 => ((if i = 0 then 0 else c.pmpAddr (i - 1)) * 4, a * 4)
  | 2 => (a * 4, a * 4 + 4)
  | _ =>
    let t := trailOnes 32 a
    (a / 2 ^ (t + 1) * 2 ^ (t + 3), a / 2 ^ (t + 1) * 2 ^ (t + 3) + 2 ^ (t + 3))

/-- An access of n bytes at a is allowed: `acc` is 0 to read, 1 to write, 2 to fetch. The lowest entry that meets any byte decides. -/
def StkCore.pmpOk (c : StkCore) (machine : Bool) (acc a n : Nat) : Bool :=
  match (List.range 16).find? (fun i => decide ((c.pmpRange i).1 < a + n) && decide (a < (c.pmpRange i).2)) with
  | none => machine
  | some i =>
    decide ((c.pmpRange i).1 ≤ a) && decide (a + n ≤ (c.pmpRange i).2) &&
    ((machine && ! bit (c.pmpCfg i) 7) || bit (c.pmpCfg i) acc)

/-- The mode whose permissions loads and stores have. -/
def StkCore.dataMode (c : StkCore) : Bool := if c.machine && c.mprv then c.mpp == 3 else c.machine

/-- A write of one byte of a pmpcfg: a locked entry keeps its own. -/
def pmpByte (old new : Nat) : Nat :=
  if bit old 7 then old
  else
    let b := clearBits new 0x60
    if bit b 1 && ! bit b 0 then
      (let r := clearBits (Config.warl old b % 256) 0x60
       if bit r 1 && ! bit r 0 then old else r)
    else b

/-- A write of pmpcfg k. -/
def StkCore.putPmpCfg (c : StkCore) (k v : Nat) : StkCore :=
  c.putCsr (0x3A0 + k) (forUp 4 (fun b a => a + pmpByte (c.pmpCfg (4 * k + b)) (v / 256 ^ b % 256) * 256 ^ b) 0)

/-- Entry i is locked, or bounds a locked TOR entry. -/
def StkCore.pmpLocked (c : StkCore) (i : Nat) : Bool :=
  bit (c.pmpCfg i) 7 || (decide (i < 15) && bit (c.pmpCfg (i + 1)) 7 && bits (c.pmpCfg (i + 1)) 4 3 == 1)

/-! ### Counters and interrupts -/

/-- time, from the release at the cluster clock of 1.0 GHz; cycle, as software has offset it. -/
def StkCore.time (c : StkCore) (ticks : Nat) : Nat := (ticks - c.released) * 4 % 2 ^ 64
def StkCore.cycle (c : StkCore) (ticks : Nat) : Nat := (((c.time ticks : Nat) : Int) + c.cycleBase) % ((2 ^ 64 : Nat) : Int) |>.toNat

/-- mtimecmp. -/
def StkCore.timecmp (c : StkCore) : Nat := c.csrCell 0x7C4 + c.csrCell 0x7C5 * 2 ^ 32

/-- mip: the machine external interrupt while the claim queue holds an entry (R428), the machine timer interrupt while time has reached
mtimecmp. -/
def StkCore.mip (c : StkCore) (ticks : Nat) : Nat :=
  b2n (! c.claim.isEmpty) * 2 ^ 11 + b2n (decide (c.timecmp ≤ c.time ticks)) * 2 ^ 7

/-- The pending interrupts that mie enables. -/
def StkCore.ready (c : StkCore) (ticks : Nat) : Nat := c.mip ticks &&& c.csrCell 0x304

/-- The interrupt to be taken now: external before timer. -/
def StkCore.interrupt (c : StkCore) (ticks : Nat) : Option Nat :=
  if c.ready ticks = 0 ∨ (c.machine = true ∧ c.mie = false) then none
  else if bit (c.ready ticks) 11 then some 11 else some 7

/-! ### Traps -/

/-- A trap into machine mode. Secure events that waited for it enter the claim queue (R430). -/
def StkCore.trap (c : StkCore) (intr : Bool) (cause tval : Nat) : StkCore :=
  let tv := c.csrCell 0x305
  let c1 := ((((c.putCsr 0x341 c.pc.toNat).putCsr 0x342 (b2n intr * 2 ^ 31 + cause)).putCsr 0x343
    (if ! intr && Config.mtvalInfo cause then tval else 0)).putCsr 0x300
    (mstatusOf false c.mie (if c.machine then 3 else 0) c.mprv c.tw))
  let c2 := { c1 with machine := true, waiting := [],
                      pc := BitVec.ofNat 32 (tv / 4 * 4 + (if intr ∧ tv % 4 = 1 then 4 * cause else 0)) }
  c.waiting.foldl (fun c n => c.pushClaim n) c2

/-- MRET. -/
def StkCore.mret (c : StkCore) : StkCore :=
  { c.putCsr 0x300 (mstatusOf c.mpie true 0 (c.mprv && c.mpp == 3) c.tw) with
    machine := c.mpp == 3, pc := BitVec.ofNat 32 (c.csrCell 0x341) }

/-! ### CSRs -/

/-- The claim CSR: valid, ring, overflow and the number of the oldest entry. -/
def StkCore.claimWord (c : StkCore) : Nat :=
  b2n c.overflow * 2 ^ 29 + (match c.claim with
    | [] => 0
    | e :: _ => 2 ^ 31 + e / 2 ^ 30 % 2 * 2 ^ 30 + e % 4096)

/-- The value CSR k of stoker n reads as; none where there is no such CSR. -/
def StkCore.csrValue (c : StkCore) (n ticks k : Nat) : Option Nat :=
  if k = 0x300 ∨ k = 0x304 ∨ k = 0x305 ∨ k = 0x306 ∨ k = 0x30A ∨ (0x340 ≤ k ∧ k ≤ 0x343) ∨ (0x3A0 ≤ k ∧ k ≤ 0x3A3) ∨
      (0x3B0 ≤ k ∧ k ≤ 0x3BF) then some (c.csrCell k)
  else if k = 0x301 then some 0x40101105
  else if k = 0x344 then some (c.mip ticks)
  else if k = 0x310 ∨ k = 0x31A ∨ k = 0x320 ∨ (0x323 ≤ k ∧ k ≤ 0x33F) then some 0
  else if k = 0xB00 ∨ k = 0xC00 then some (c.cycle ticks % 2 ^ 32)
  else if k = 0xB80 ∨ k = 0xC80 then some (c.cycle ticks / 2 ^ 32)
  else if k = 0xC01 then some (c.time ticks % 2 ^ 32)
  else if k = 0xC81 then some (c.time ticks / 2 ^ 32)
  else if k = 0xB02 ∨ k = 0xC02 then some (c.instret % 2 ^ 32)
  else if k = 0xB82 ∨ k = 0xC82 then some (c.instret / 2 ^ 32)
  else if (0xB03 ≤ k ∧ k ≤ 0xB1F) ∨ (0xB83 ≤ k ∧ k ≤ 0xB9F) ∨ (0xC03 ≤ k ∧ k ≤ 0xC1F) ∨ (0xC83 ≤ k ∧ k ≤ 0xC9F) then some 0
  else if 0xF11 ≤ k ∧ k ≤ 0xF15 then some (Config.stokerIdentity n k % 2 ^ 32)
  else if 0x7C0 ≤ k ∧ k ≤ 0x7C3 then some (tget c.csr k 0xFF)
  else if k = 0x7C4 ∨ k = 0x7C5 then some (c.csrCell k)
  else if k = 0x7C8 then some (n + n / 16 * 64)
  else if k = 0x7CA then some 0
  else if k = 0x7D0 then some c.claimWord
  else if k = 0x7D1 then some (b2n c.overflow)
  else none

/-- One half of a 64-bit counter replaced. -/
def setHalf (old v : Nat) (high : Bool) : Nat := if high then old % 2 ^ 32 + v * 2 ^ 32 else old / 2 ^ 32 * 2 ^ 32 + v

/-- A write of v to CSR k; read-only CSRs and fields ignore it (R6). The write of instret counts its own instruction out. -/
def StkCore.csrWrite (c : StkCore) (ticks k v : Nat) : StkCore :=
  if k = 0x300 then
    let m := bits v 12 11
    let w := if legalMode m then m else Config.warl c.mpp m % 4
    c.putCsr k (mstatusOf (bit v 3) (bit v 7) (if legalMode w then w else c.mpp) (bit v 17) (bit v 21))
  else if k = 0x304 then c.putCsr k (v &&& 0x888)
  else if k = 0x305 then
    c.putCsr k (v / 4 * 4 + (if v % 4 < 2 then v % 4 else Config.warl (c.csrCell k % 4) (v % 4) % 2))
  else if k = 0x306 then c.putCsr k (v % 8)
  else if k = 0x30A then c.putCsr k (v % 2)
  else if k = 0x341 then c.putCsr k (v / 2 * 2)
  else if k = 0x340 ∨ k = 0x342 ∨ k = 0x343 ∨ k = 0x7C4 ∨ k = 0x7C5 then c.putCsr k v
  else if 0x3A0 ≤ k ∧ k ≤ 0x3A3 then c.putPmpCfg (k - 0x3A0) v
  else if 0x3B0 ≤ k ∧ k ≤ 0x3BF then (if c.pmpLocked (k - 0x3B0) then c else c.putCsr k v)
  else if k = 0xB00 ∨ k = 0xB80 then
    { c with cycleBase := ((setHalf (c.cycle ticks) v (k == 0xB80) : Nat) : Int) - c.time ticks }
  else if k = 0xB02 ∨ k = 0xB82 then { c with instret := (setHalf c.instret v (k == 0xB82) + 2 ^ 64 - 1) % 2 ^ 64 }
  else if 0x7C0 ≤ k ∧ k ≤ 0x7C3 then c.putCsr k (v % 256)
  else if k = 0x7CA then { c with kicked := ticks }
  else if k = 0x7D1 then (if bit v 0 then { c with overflow := false } else c)
  else c

/-- The mode may access CSR k: machine CSRs in machine mode alone, user counters as mcounteren allows. -/
def StkCore.csrAllowed (c : StkCore) (k : Nat) : Bool :=
  c.machine || (bits k 9 8 == 0 && bit (c.csrCell 0x306) (k % 32))

/-- A read of claim removes the oldest entry (R428). -/
def StkCore.popClaim (c : StkCore) : StkCore := { c with claim := c.claim.drop 1 }

end Sys2Proof.Machine
end

