-- ==== Sys2Proof/Machine/Stoker.lean ====
section
/-!
DEFINITION. What a stoker's instructions do (11_stokers_rings.md R423 to R430): fetch, the memory map, arithmetic, traps, and the
commands of a stoker. Instruction semantics are the RISC-V unprivileged specification's (PRESUMED, log entry 16).
-/
namespace Sys2Proof.Machine

/-! ### The memory map (R425 to R427) -/

/-- The regions of a stoker's address space: local memory, control space, the HBM windows; nothing else answers. -/
def inLocal (a : Nat) : Bool := decide (a < localBytes)
def inControl (a : Nat) : Bool := decide (0x40000000 ≤ a) && decide (a < 0x41200000)
def inWindow (a : Nat) : Bool := decide (0x80000000 ≤ a) && decide (a < 0xC0000000)

/-- The base of window w, in 256 MiB units; reset 0xFF. -/
def StkCore.window (c : StkCore) (w : Nat) : Nat := tget c.csr (0x7C0 + w) 0xFF

/-- R425: the HBM address of an address in a window. -/
def StkCore.hbmAddr (c : StkCore) (a : Nat) : Nat := c.window ((a - 0x80000000) / 2 ^ 28) * 2 ^ 28 + a % 2 ^ 28

/-- The exception of a load or store of n bytes at a, if any: 4 or 6 misaligned, 5 or 7 access fault. -/
def StkCore.dataFault (c : StkCore) (a n : Nat) (write : Bool) : Option Nat :=
  let access := if write then 7 else 5
  if inControl a && ! (n == 4 && a % 4 == 0) then some access
  else if a % n ≠ 0 then some (if write then 6 else 4)
  else if c.pmpOk c.dataMode (b2n write) a n = false then some access
  else if inLocal a || inControl a then none
  else if inWindow a && decide (c.window ((a - 0x80000000) / 2 ^ 28) ≤ 191) then none
  else some access

/-- R426: the exception of an LR, SC or AMO at a; `read` and `write` are its accesses. -/
def StkCore.atomicFault (c : StkCore) (a : Nat) (write : Bool) : Option Nat :=
  if inLocal a = false then some 7
  else if a % 4 ≠ 0 then some (if write then 6 else 4)
  else if write then
    (if c.pmpOk c.dataMode 1 a 4 && c.pmpOk c.dataMode 0 a 4 then none else some 7)
  else if c.pmpOk c.dataMode 0 a 4 then none else some 5

/-- A load by stoker n from local memory or control space: the state and the value. -/
def stokerLoad (n a len : Nat) (s : State) : State × Nat :=
  if inLocal a then (s, leNat ((s.dev.core n).bytes a len)) else controlRead (.stoker n) (a - 0x40000000) s

/-- A store by stoker n to local memory or control space; one to control space is posted (R427). -/
def stokerStore (n a len v : Nat) (s : State) : State :=
  if inLocal a then onDev s (fun d => d.setCore n ((d.core n).putBytes a (leBytes len v)))
  else postWrite n (a - 0x40000000) (v % 2 ^ 32) s

/-- What becomes of a stoker's access to HBM: denied, queued at its pseudo-channel's arbiter, held back by a full queue, or lost because
the arbiter does not run or the stoker's cluster does not reach it. -/
inductive HbmAccess where
  | denied | queued | held | lost
  deriving DecidableEq, Repr

/-- R362, R384, R425: the decision on stoker n's access to HBM address a. -/
def Dev.hbmAccess (d : Dev) (n : Nat) (write : Bool) (a : Nat) : HbmAccess :=
  let req := 24 + n / 16
  if d.admits req (d.secureOf (.stoker n)) write a = false then .denied
  else if (d.arbOn (d.physPch a) && d.reqPresent (d.physPch a) req) = false then .lost
  else if d.queueRoom (d.physPch a) req then .queued else .held

/-- R425: stoker n's transaction at HBM address a, one access of its cluster's requester. -/
def Dev.coreTxn (d : Dev) (n : Nat) (write : Bool) (a len : Nat) (data : List Byte) : Txn :=
  { req := 24 + n / 16, secure := d.secureOf (.stoker n), write := write, addr := a, len := len, data := data, stream := none, stamp := 0,
    left := 1, door := none, order := 0, core := some (n, d.stk.loads) }

/-- R384: stoker n's instruction waits for room in the queue; one held back counts once. -/
def Dev.heldBack (d : Dev) (n a : Nat) : Dev :=
  if (d.core n).stall then d
  else (d.setCore n { d.core n with stall := true }).count ARB_QUEUE_FULL_CNT.sat ARB_QUEUE_FULL_CNT.count 1 (d.physPch a)

/-! ### Arithmetic -/

/-- OP and OP-IMM. -/
def rvAlu (f : Nat) (alt : Bool) (a b : Word) : Word :=
  let sh := b.toNat % 32
  match f with
  | 0 => if alt then a - b else a + b
  | 1 => a <<< sh
  | 2 => if a.toInt < b.toInt then 1 else 0
  | 3 => if a.toNat < b.toNat then 1 else 0
  | 4 => a ^^^ b
  | 5 => if alt then a.sshiftRight sh else a >>> sh
  | 6 => a ||| b
  | _ => a &&& b

/-- The M extension; a division by zero and the quotient that overflows give what that extension lays down. -/
def rvMulDiv (f : Nat) (a b : Word) : Word :=
  match f with
  | 0 => a * b
  | 1 => BitVec.ofInt 32 (a.toInt * b.toInt / ((2 ^ 32 : Nat) : Int))
  | 2 => BitVec.ofInt 32 (a.toInt * (b.toNat : Int) / ((2 ^ 32 : Nat) : Int))
  | 3 => BitVec.ofNat 32 (a.toNat * b.toNat / 2 ^ 32)
  | 4 => if b = 0 then BitVec.ofInt 32 (-1) else BitVec.ofInt 32 (a.toInt.tdiv b.toInt)
  | 5 => if b = 0 then BitVec.ofInt 32 (-1) else BitVec.ofNat 32 (a.toNat / b.toNat)
  | 6 => if b = 0 then a else BitVec.ofInt 32 (a.toInt.tmod b.toInt)
  | _ => if b = 0 then a else BitVec.ofNat 32 (a.toNat % b.toNat)

/-- An AMO's new value from the old one. -/
def rvAmoOp (f5 : Nat) (old b : Word) : Word :=
  match f5 with
  | 0 => old + b
  | 1 => b
  | 4 => old ^^^ b
  | 8 => old ||| b
  | 12 => old &&& b
  | 16 => if b.toInt < old.toInt then b else old
  | 20 => if old.toInt < b.toInt then b else old
  | 24 => if b.toNat < old.toNat then b else old
  | _ => if old.toNat < b.toNat then b else old

/-- A branch is taken. -/
def rvTaken (f : Nat) (a b : Word) : Bool :=
  match f with
  | 0 => a == b
  | 1 => a != b
  | 4 => decide (a.toInt < b.toInt)
  | 5 => decide (b.toInt ≤ a.toInt)
  | 6 => decide (a.toNat < b.toNat)
  | _ => decide (b.toNat ≤ a.toNat)

/-- The bytes a load or store of this funct3 moves. -/
def rvSize (f : Nat) : Nat := 2 ^ (f % 4)

/-! ### Completing an instruction -/

/-- The instruction of stoker n completes with an effect on its core. -/
def completeOp (n : Nat) (pc : Word) (f : StkCore → StkCore) (s : State) : State :=
  onDev s (fun d => d.setCore n ((f (d.core n)).retire pc))

/-- Stoker n still stands at the instruction that core `c` began: nothing that this instruction waited for has reset it. -/
def sameCore (c c' : StkCore) : Bool :=
  c'.alive && c'.pc == c.pc && c'.released == c.released && c'.instret == c.instret

/-- Stoker n takes a trap. -/
def stokerTrap (n : Nat) (intr : Bool) (cause tval : Nat) (s : State) : State :=
  onDev s (fun d => d.setCore n ((d.core n).trap intr cause tval))

/-- R427: a load of stoker n from HBM address a: queued, it blocks the stoker until its data returns; denied, it gets 0x0BAD_F00D. -/
def stokerHbmLoad (n a f rd : Nat) (pc : Word) (s : State) : State :=
  match s.dev.hbmAccess n false a with
  | .denied =>
    completeOp n pc (fun c => c.setReg rd (rvExtend f (leNat (deniedBytes a (rvSize f)))))
      (onDev s (fun d => d.deny (24 + n / 16) (d.secureOf (.stoker n)) false (txnBase a (rvSize f))))
  | .lost =>
    completeOp n pc (fun c => c.setReg rd (rvExtend f (leNat (s.dev.freeBytes (rvSize f)))))
      (onDev s (fun d => { d with free := d.free + rvSize f }))
  | .held => onDev s (fun d => d.heldBack n a)
  | .queued => onDev s (fun d =>
      let d1 := (d.enqueueTxn (d.physPch a) (d.coreTxn n false a (rvSize f) [])).setCore n
        { d.core n with load := some ⟨d.stk.loads, f, rd, pc⟩ }
      { d1 with stk := { d1.stk with loads := d1.stk.loads + 1 } })

/-- R427: a store of stoker n to HBM address a is posted into its arbiter's queue; a denied one is dropped. -/
def stokerHbmStore (n a len v : Nat) (pc : Word) (s : State) : State :=
  match s.dev.hbmAccess n true a with
  | .denied => completeOp n pc id (onDev s (fun d => d.deny (24 + n / 16) (d.secureOf (.stoker n)) true (txnBase a len)))
  | .lost => completeOp n pc id s
  | .held => onDev s (fun d => d.heldBack n a)
  | .queued => completeOp n pc id (onDev s (fun d => d.enqueueTxn (d.physPch a) (d.coreTxn n true a len (leBytes len v))))

/-- A store of stoker n has not completed: one to HBM that has not entered the write queue (R365), or a doorbell write that waits for its
grant (R441). -/
def Dev.storesWait (d : Dev) (n : Nat) : Bool :=
  (List.range 64).any (fun i => ((d.arbI i).queue (24 + n / 16)).any (fun t => t.write && t.core.any (fun c => c.1 == n))) ||
  d.doorsWaiting.any (fun t => t.door.any (fun w => initCode w == n))

/-- The FENCE of stoker n: its posted stores reach their blocks; it completes when none waits any more, and waits where it stands until
then (R427). -/
def stokerFence (n : Nat) (pc : Word) (s : State) : State :=
  let s1 := drainPosted (fun x => initCode x.who == initCode (.stoker n)) s
  if sameCore (s.dev.core n) (s1.dev.core n) && ! s1.dev.storesWait n then completeOp n pc id s1 else s1

/-- A CSR instruction: rd takes the old value where it is read, and `w` gives the new one where it is written. -/
def stokerCsr (n rd k : Nat) (reads : Bool) (w : Option (Nat → Nat)) (pc : Word) (tval : Nat) (s : State) : State :=
  let c := s.dev.core n
  match c.csrValue n s.dev.ticks k with
  | none => stokerTrap n false 2 tval s
  | some old =>
    if c.csrAllowed k = false ∨ (w.isSome ∧ k / 1024 = 3) then stokerTrap n false 2 tval s
    else completeOp n pc (fun c =>
      let c1 := if reads && k == 0x7D0 then c.popClaim else c
      let c2 := match w with
        | none => c1
        | some f => c1.csrWrite s.dev.ticks k (f old % 2 ^ 32)
      if reads then c2.setReg rd (BitVec.ofNat 32 old) else c2) s

/-! ### One instruction -/

/-- The word of local memory at a. -/
def StkCore.word (c : StkCore) (a : Nat) : Word := BitVec.ofNat 32 (leNat (c.bytes a 4))

/-- LR, SC and AMO. -/
def stokerAtomic (n : Nat) (op : Rv) (pc : Word) (s : State) : State :=
  let c := s.dev.core n
  match op with
  | .lr rd rs1 =>
    let a := (c.reg rs1).toNat
    (match c.atomicFault a false with
    | some e => stokerTrap n false e a s
    | none => completeOp n pc (fun c => { c.setReg rd (c.word a) with resv := some a }) s)
  | .sc rd rs1 rs2 =>
    let a := (c.reg rs1).toNat
    (match c.atomicFault a true with
    | some e => stokerTrap n false e a s
    | none =>
      if c.resv = some a then
        completeOp n pc (fun c => { (c.putBytes a (leBytes 4 (c.reg rs2).toNat)).setReg rd 0 with resv := none }) s
      else completeOp n pc (fun c => { c.setReg rd 1 with resv := none }) s)
  | .amo f5 rd rs1 rs2 =>
    let a := (c.reg rs1).toNat
    (match c.atomicFault a true with
    | some e => stokerTrap n false e a s
    | none => completeOp n pc (fun c =>
        (c.putBytes a (leBytes 4 (rvAmoOp f5 (c.word a) (c.reg rs2)).toNat)).setReg rd (c.word a)) s)
  | _ => s

/-- Stoker n executes a decoded instruction of `len` bytes; `raw` are its bits, for mtval. -/
def stokerExec (n raw len : Nat) (op : Rv) (s : State) : State :=
  let c := s.dev.core n
  let next := c.pc + BitVec.ofNat 32 len
  match op with
  | .lui rd imm => completeOp n next (fun c => c.setReg rd imm) s
  | .auipc rd imm => completeOp n next (fun c => c.setReg rd (c.pc + imm)) s
  | .jal rd off => completeOp n (c.pc + off) (fun c => c.setReg rd next) s
  | .jalr rd rs1 off => completeOp n ((c.reg rs1 + off) &&& 0xFFFFFFFE) (fun c => c.setReg rd next) s
  | .branch f rs1 rs2 off => completeOp n (if rvTaken f (c.reg rs1) (c.reg rs2) then c.pc + off else next) id s
  | .load f rd rs1 off =>
    let a := (c.reg rs1 + off).toNat
    (match c.dataFault a (rvSize f) false with
    | some e => stokerTrap n false e a s
    | none =>
      if inWindow a then stokerHbmLoad n (c.hbmAddr a) f rd next s
      else
      let r := stokerLoad n a (rvSize f) s
      if sameCore c (r.1.dev.core n) then completeOp n next (fun c => c.setReg rd (rvExtend f r.2)) r.1 else r.1)
  | .store f rs1 rs2 off =>
    let a := (c.reg rs1 + off).toNat
    (match c.dataFault a (rvSize f) true with
    | some e => stokerTrap n false e a s
    | none =>
      if inWindow a then stokerHbmStore n (c.hbmAddr a) (rvSize f) (c.reg rs2).toNat next s
      else completeOp n next id (stokerStore n a (rvSize f) (c.reg rs2).toNat s))
  | .opImm f alt rd rs1 imm => completeOp n next (fun c => c.setReg rd (rvAlu f alt (c.reg rs1) imm)) s
  | .op f alt rd rs1 rs2 => completeOp n next (fun c => c.setReg rd (rvAlu f alt (c.reg rs1) (c.reg rs2))) s
  | .muldiv f rd rs1 rs2 => completeOp n next (fun c => c.setReg rd (rvMulDiv f (c.reg rs1) (c.reg rs2))) s
  | .lr rd rs1 => stokerAtomic n (.lr rd rs1) next s
  | .sc rd rs1 rs2 => stokerAtomic n (.sc rd rs1 rs2) next s
  | .amo f5 rd rs1 rs2 => stokerAtomic n (.amo f5 rd rs1 rs2) next s
  | .csr f rd rs1 k =>
    let v := if 4 < f then rs1 else (c.reg rs1).toNat
    let w : Option (Nat → Nat) :=
      if f % 4 = 1 then some (fun _ => v)
      else if rs1 = 0 then none
      else if f % 4 = 2 then some (fun old => old ||| v)
      else some (fun old => clearBits old v)
    stokerCsr n rd k (f % 4 != 1 || rd != 0) w next raw s
  | .fence => stokerFence n next s
  | .fenceI => completeOp n next id s
  | .ecall => stokerTrap n false (if c.machine then 11 else 8) 0 s
  | .ebreak => stokerTrap n false 3 c.pc.toNat s
  | .mret =>
    if c.machine then onDev s (fun d => d.setCore n { (d.core n).mret with instret := ((d.core n).instret + 1) % 2 ^ 64 })
    else stokerTrap n false 2 raw s
  | .wfi =>
    if c.machine = false ∧ c.tw then stokerTrap n false 2 raw s
    else completeOp n next (fun c => if c.ready s.dev.ticks = 0 then { c with run := 2 } else c) s
  | .illegal => stokerTrap n false 2 raw s

/-- The half-word of local memory at a, where a fetch may read it (R426). -/
def StkCore.fetchHalf (c : StkCore) (a : Nat) : Option Nat :=
  if a + 2 ≤ localBytes ∧ c.pmpOk c.machine 2 a 2 then some (leNat (c.bytes a 2)) else none

/-- Stoker n fetches and executes the instruction at its program counter. -/
def stokerFetch (n : Nat) (s : State) : State :=
  let c := s.dev.core n
  let pc := c.pc.toNat
  match c.fetchHalf pc with
  | none => stokerTrap n false 1 pc s
  | some h =>
    if rvLength h = 2 then stokerExec n h 2 (rvDecode h) s
    else match c.fetchHalf (pc + 2) with
      | none => stokerTrap n false 1 (pc + 2) s
      | some h2 => stokerExec n (h + h2 * 65536) 4 (rvDecode (h + h2 * 65536)) s

/-- Stoker n goes on, unless it waits for an HBM load: an interrupt that is pending and enabled is taken; else an instruction runs. One that waits for an
interrupt wakes when one that mie enables is pending. -/
def stokerStep (n : Nat) (s : State) : State :=
  let c := s.dev.core n
  if c.load.isSome ∨ (c.run = 2 ∧ c.ready s.dev.ticks = 0) then s
  else
    let s1 := onDev s (fun d => d.setCore n { c with run := 1 })
    match c.interrupt s.dev.ticks with
    | some k => stokerTrap n true k 0 s1
    | none => stokerFetch n s1

/-! ### The commands -/

/-- Stoker n executes instructions: the clusters have power, it runs and waits for no load. -/
def Dev.executes (d : Dev) (n : Nat) : Bool := d.stkRuns && (d.core n).run == 1 && (d.core n).load.isNone

/-- STOKER_INSTRUCTION (R423). -/
def execStokerInstruction (n : Nat) (s : State) : Res :=
  .next (if s.dev.stkRuns && (s.dev.core n).alive then stokerStep n s else s)

/-- STOKER_FENCE (R427): stoker n executes a FENCE. -/
def execStokerFence (n : Nat) (s : State) : Res :=
  .next (if s.dev.executes n then stokerFence n ((s.dev.core n).pc + 4) s else s)

/-- CLAIM_READ (R428): stoker n executes a read of claim into register rd. -/
def execClaimRead (n rd : Nat) (s : State) : Res :=
  .next (if s.dev.executes n then
      stokerCsr n (rd % 32) 0x7D0 true none ((s.dev.core n).pc + 4) (0x7D002073 + rd % 32 * 128) s
    else s)

/-- A 32-bit CSR write of v by stoker n, whose destination register is x0; the instruction's bits in mtval are free. -/
def stokerCsrWrite (n k v : Nat) (s : State) : State :=
  if s.dev.executes n then
    stokerCsr n 0 k false (some (fun _ => v)) ((s.dev.core n).pc + 4) (s.dev.freeVal 32) (onDev s Dev.nextFree)
  else s

/-- CLAIMCTL_WRITE (R429): stoker n executes a write of claimctl. -/
def execClaimctlWrite (n v : Nat) (s : State) : Res := .next (stokerCsrWrite n 0x7D1 v s)

/-- WDKICK_WRITE (R431): stoker n executes a write of wdkick. -/
def execWdkickWrite (n : Nat) (s : State) : Res := .next (stokerCsrWrite n 0x7CA 0 s)

/-- HBMWIN_WRITE (R425): stoker n executes a write of hbmwin w. -/
def execHbmwinWrite (n w v : Nat) (s : State) : Res := .next (if w < 4 then stokerCsrWrite n (0x7C0 + w) v s else s)

/-- MACHINE_TIMER_INTERRUPT (R423): stoker n's time reaches mtimecmp, and a stoker that waits for an interrupt goes on. -/
def execMachineTimerInterrupt (n : Nat) (s : State) : Res :=
  nextDev s (fun d =>
    let c := d.core n
    if d.stkRuns && c.alive then (d.waitTick (c.released + (c.timecmp + 3) / 4)).setCore n { c with run := 1 } else d)

end Sys2Proof.Machine
end

