-- ==== Sys2Proof/Machine/TwoD.lean ====
section
/-!
DEFINITION. The 2-D engine (10_codec_2d.md R411 to R421): formats, rectangle checks, overlap, and its jobs by rows.
-/
namespace Sys2Proof.Machine

/-! ### Checks (R412, R414, R416) -/

/-- The last HBM byte address. -/
def hbmTop : Nat := 0xBFFFFFFFF

/-- R412: a surface rectangle in a pixel format. -/
def surfaceOk (fmt base pitch x y w h : Nat) : Bool :=
  decide (w ≤ 16384) && decide (h ≤ 16384) && base % 64 == 0 && pitch % 64 == 0 && decide (64 ≤ pitch) &&
  decide (pitch ≤ 131072) && decide ((x + w) * pixelBytes fmt ≤ pitch) && decide ((extent fmt base pitch x y w h).2 ≤ hbmTop)

/-- R412: a GLYPH source. -/
def glyphOk (base pitch x y w h : Nat) : Bool :=
  decide (w ≤ 16384) && decide (h ≤ 16384) && decide (1 ≤ pitch) && decide (pitch ≤ 65535) && decide (x + w ≤ 8 * pitch) &&
  decide ((extent 15 base pitch x y w h).2 ≤ hbmTop)

/-- R414: a format pair that COPY and KEY_COPY support. -/
def pairOk (dst src : Nat) : Bool :=
  decide (dst ≤ 3) && decide (src ≤ 3) &&
  (dst == src || (dst == 0 && src == 3) || (dst == 3 && src == 0) || (dst == 1 && src == 2) || (dst == 2 && src == 1))

/-- The 2-D descriptor's opcode and rectangle origins. -/
def Job.tOp (j : Job) : Nat := j.w 0x20 % 256
def Job.dstX (j : Job) : Nat := j.w 0x30 % 2 ^ 16
def Job.dstY (j : Job) : Nat := j.w 0x30 / 2 ^ 16
def Job.srcX (j : Job) : Nat := j.w 0x44 % 2 ^ 16
def Job.srcY (j : Job) : Nat := j.w 0x44 / 2 ^ 16

/-- R412, R414, R416: the status that refuses the job before any access, or 0. -/
def twdCheck (j : Job) : Nat :=
  let dstOk := surfaceOk j.dstFmt (j.addr 0x24) j.dstPitch j.dstX j.dstY j.rectW j.rectH
  let srcOk := ! j.hasSrc ||
    (if j.srcFmt = 15 then glyphOk (j.addr 0x38) j.srcPitch j.srcX j.srcY j.rectW j.rectH
     else surfaceOk j.srcFmt (j.addr 0x38) j.srcPitch j.srcX j.srcY j.rectW j.rectH)
  let fmtOk := match j.tOp with
    | 2 => decide (j.dstFmt ≤ 3)
    | 4 => decide (j.dstFmt ≤ 3) && j.srcFmt == 15
    | _ => pairOk j.dstFmt j.srcFmt
  let meets := j.hasSrc && rangesMeet j.dstExtent j.srcExtent
  if (dstOk && srcOk) = false then 1
  else if fmtOk = false then 2
  else if meets && j.srcFmt != j.dstFmt then 3
  else if meets && j.srcPitch != j.dstPitch then 4
  else 0

/-- R417: the walk is descending. -/
def Job.descending (j : Job) : Bool := j.hasSrc && decide (j.srcExtent.1 < j.dstExtent.1)

/-! ### Pixels (R411, R413, R414) -/

/-- R414: a pixel value converted between formats. -/
def convertPixel (dst src p : Nat) : Nat :=
  if src = 1 ∧ dst = 2 then
    let c (k : Nat) : Nat := bits p (8 * k + 7) (8 * k) * 4 + bits p (8 * k + 7) (8 * k) / 64
    c 0 + c 1 * 2 ^ 10 + c 2 * 2 ^ 20 + (bits p 31 24 * 3 + 127) / 255 * 2 ^ 30
  else if src = 2 ∧ dst = 1 then
    let c (k : Nat) : Nat := (bits p (10 * k + 9) (10 * k) * 255 + 511) / 1023
    c 0 + c 1 * 2 ^ 8 + c 2 * 2 ^ 16 + bits p 31 30 * 85 * 2 ^ 24
  else p

/-- A pixel's bytes, or as many bytes left unwritten. -/
def pixelOut (n : Nat) (p : Option Nat) : List (Option Byte) :=
  match p with
  | some v => (leBytes n v).map some
  | none => List.replicate n none

/-- n destination pixels of one row from its pixel p on, from the source bytes that hold their source pixels; none is not written. -/
def rowPixels (j : Job) (src : List Byte) (p n : Nat) : List (Option Nat) :=
  let nb := pixelBytes j.srcFmt
  (List.range n).map (fun i =>
    let x := p + i
    match j.tOp with
    | 2 => some (j.w 0x48)
    | 4 =>
      let b := (src.getD ((j.srcX + x) / 8 - (j.srcX + p) / 8) 0).toNat / 2 ^ (7 - (j.srcX + x) % 8) % 2
      if b = 1 then some (j.w 0x48) else if bit (j.w 0x20) 16 then none else some (j.w 0x4C)
    | 3 =>
      let v := leAt src (i * nb) nb
      if v &&& j.w 0x54 = j.w 0x50 &&& j.w 0x54 then none else some (convertPixel j.dstFmt j.srcFmt v)
    | _ => some (convertPixel j.dstFmt j.srcFmt (leAt src (i * nb) nb)))

/-! ### Access -/

/-- Store the bytes present, from an address upward (byte enables, R413). -/
def hbmPutMasked : List Host.Cell → Nat → List (Option Byte) → List Host.Cell
  | m, _, [] => m
  | m, a, some b :: bs => hbmPutMasked (hbmPut m a b) (a + 1) bs
  | m, a, none :: bs => hbmPutMasked m (a + 1) bs

/-- One masked write transaction (R362, R381); none leaves when no byte is enabled. -/
def writeOneMasked (s : State) (req : Nat) (secure : Bool) (a : Nat) (bs : List (Option Byte)) : State × Bool :=
  if bs.all Option.isNone then (s, false)
  else if s.dev.admits req secure true a then
    if s.dev.pchFailed (s.dev.physPch a) then (s, false)
    else (onDev { s with hbm := hbmPutMasked s.hbm a bs } (fun d => d.reachDram a true), false)
  else (onDev s (fun d => d.deny req secure true (txnBase a bs.length)), true)

/-- The bytes of n pixels of source row y from pixel p on, and whether a read failed; FILL reads none. -/
def twdSource (s : State) (j : Job) (y p n : Nat) : State × Bool × List Byte :=
  let row := j.addr 0x38 + (j.srcY + y) * j.srcPitch
  if j.hasSrc = false ∨ n = 0 then (s, false, [])
  else if j.srcFmt = 15 then
    readHbmStop s 21 (s.dev.ringSecure j.ring) (row + (j.srcX + p) / 8) ((j.srcX + p + n - 1) / 8 - (j.srcX + p) / 8 + 1) j.descending
  else readHbmStop s 21 (s.dev.ringSecure j.ring) (row + (j.srcX + p) * pixelBytes j.srcFmt) (n * pixelBytes j.srcFmt) j.descending

/-- R417: the first and last pixel, the last excluded, of row y's destination burst i in walk order; a burst is 32 aligned bytes. -/
def Job.burstPixels (j : Job) (y i : Nat) : Nat × Nat :=
  let nb := pixelBytes j.dstFmt
  let a := j.addr 0x24 + (j.dstY + y) * j.dstPitch + j.dstX * nb
  let last := (a + j.rectW * nb - 1) / 32
  let b := if j.descending then last - i else a / 32 + i
  ((max a (b * 32) - a) / nb, (min (a + j.rectW * nb) ((b + 1) * 32) - a) / nb)

/-- The destination bursts of row y. -/
def Job.rowBursts (j : Job) (y : Nat) : Nat :=
  let nb := pixelBytes j.dstFmt
  let a := j.addr 0x24 + (j.dstY + y) * j.dstPitch + j.dstX * nb
  (a + j.rectW * nb - 1) / 32 - a / 32 + 1

/-- R417: one burst of row y: its source is read before it is written; the state, and the status of a stop. -/
def twdBurst (j : Job) (y i : Nat) (st : State × Option Nat) : State × Option Nat :=
  match st.2 with
  | some _ => st
  | none =>
    let nb := pixelBytes j.dstFmt
    let (p, q) := j.burstPixels y i
    let (s1, err, src) := twdSource st.1 j y p (q - p)
    if err then (s1, some 5)
    else
      let (s2, denied) := writeOneMasked s1 21 (s1.dev.ringSecure j.ring) (j.addr 0x24 + (j.dstY + y) * j.dstPitch + (j.dstX + p) * nb)
        ((rowPixels j src p (q - p)).flatMap (pixelOut nb))
      (s2, if denied then some 6 else none)

/-! ### Jobs -/

/-- Progress word 0 of a 2-D job. -/
def Job.tProgress (j : Job) (status : Nat) : List Nat :=
  [status * 2 ^ 24 + b2n j.descending * 2 ^ 16 + j.units, 0, 0, 0, 0]

/-- R417, R421: the job's next row in walk order, burst by burst. -/
def twdRow (s : State) (j : Job) : State :=
  let y := if j.descending then j.rectH - 1 - j.units else j.units
  let (s1, stop) := forUp (j.rowBursts y) (fun i st => twdBurst j y i st) (s, none)
  match stop with
  | some status => onDev s1 (fun d => d.finishJob j (j.tProgress status))
  | none =>
    let j1 := { j with units := j.units + 1 }
    if j.rectH ≤ j1.units then onDev s1 (fun d => d.finishJob j1 (j1.tProgress 0))
    else onDev s1 (fun d => d.setJob { j1 with progress := j1.tProgress 0 })

/-- The 2-D engine may start job j: it runs, executes fewer than 4 jobs, and no earlier fetched job conflicts (R418). -/
def Dev.twdFree (d : Dev) (j : Job) : Bool :=
  d.engineOn 0x51 && decide ((d.runningJobs 0x51).length < 4) && ! d.twdBlocked j

/-- A 2-D job starts, or is refused before any access. -/
def Dev.twdBegin (d : Dev) (j : Job) : Dev :=
  let j1 := { j with conflict := false, state := 2 }
  if twdCheck j = 0 then d.setJob { j1 with progress := j1.tProgress 0 } else d.finishJob j1 (j1.tProgress (twdCheck j))

/-- The ring's next job starts when it is a 2-D job of this opcode and nothing holds it back. -/
def Dev.twdStart (d : Dev) (r op : Nat) : Dev :=
  match d.nextToStart r with
  | some j => if j.engine == 0x51 && j.tOp == op && d.twdFree j then d.twdBegin j else d
  | none => d

/-- TWD_COPY (R413): ring r's next job. -/
def execTwdCopy (r : Nat) (s : State) : Res := nextDev s (fun d => d.twdStart r 1)

/-- TWD_FILL (R413). -/
def execTwdFill (r : Nat) (s : State) : Res := nextDev s (fun d => d.twdStart r 2)

/-- KEY_COPY (R413). -/
def execKeyCopy (r : Nat) (s : State) : Res := nextDev s (fun d => d.twdStart r 3)

/-- GLYPH (R413). -/
def execGlyph (r : Nat) (s : State) : Res := nextDev s (fun d => d.twdStart r 4)

/-- TWD_ROW_DONE (R421): the running 2-D job in an in-flight entry handles its next row. -/
def execTwdRowDone (r slot : Nat) (s : State) : Res :=
  match s.dev.jobAt r slot with
  | some j =>
    if j.engine == 0x51 && j.state == 2 && ! j.finished && s.dev.engineOn 0x51 then .next (twdRow s j) else .next s
  | none => .next s

/-- TWD_CONFLICT_CLEAR (R418): the jobs that the waiting job in an in-flight entry conflicted with have completed; it starts when
it is its ring's next. -/
def execTwdConflictClear (r slot : Nat) (s : State) : Res :=
  nextDev s (fun d =>
    match d.jobAt r slot with
    | some j =>
      if j.engine == 0x51 && j.state == 1 && j.conflict && ! d.twdBlocked j then
        let j1 := { j with conflict := false }
        let d1 := d.setJob j1
        if d1.nextToStart r == some j1 && d1.twdFree j1 then d1.twdBegin j1 else d1
      else d
    | none => d)

end Sys2Proof.Machine
end

