-- ==== Sys2Proof/Machine/Dispatch.lean ====
section
/-!
DEFINITION. The dispatch: one arm per command, each one direct call of that command's meaning.
-/
namespace Sys2Proof.Machine

def exec (i : Instr) (s : State) : Host.Outcome State Fault Refusal :=
  match i with
  | .registerWrite who a v => Sys2Proof.Machine.execRegisterWrite who a v s
  | .wideFieldRead who a => Sys2Proof.Machine.execWideFieldRead who a s
  | .eventEnableWrite who a v => Sys2Proof.Machine.execEventEnableWrite who a v s
  | .eventStatusClear who a v events => Sys2Proof.Machine.execEventStatusClear who a v events s
  | .counterClear who a v coincide => Sys2Proof.Machine.execCounterClear who a v coincide s
  | .lineStart g => Sys2Proof.Machine.execLineStart g s
  | .framePacket e udp p => Sys2Proof.Machine.execFramePacket e udp p s
  | .dataPacket e udp p => Sys2Proof.Machine.execDataPacket e udp p s
  | .parityPacket e udp p => Sys2Proof.Machine.execParityPacket e udp p s
  | .ltableCommit who v => Sys2Proof.Machine.execLtableCommit who v s
  | .bandRowFetch g u vr row => Sys2Proof.Machine.execBandRowFetch g u vr row s
  | .sliceFailure sl cause inPacket => Sys2Proof.Machine.execSliceFailure sl cause inPacket s
  | .sliceForceFail who v inPacket => Sys2Proof.Machine.execSliceForceFail who v inPacket s
  | .sliceTakeoverCmd who v => Sys2Proof.Machine.execSliceTakeoverCmd who v s
  | .bellowsWmWrite who v => Sys2Proof.Machine.execBellowsWmWrite who v s
  | .lowMarkRead who sl => Sys2Proof.Machine.execLowMarkRead who sl s
  | .pendingXferWrite who n v => Sys2Proof.Machine.execPendingXferWrite who n v s
  | .ditherOffWrite who n v => Sys2Proof.Machine.execDitherOffWrite who n v s
  | .paletteWrite who bank e high v => Sys2Proof.Machine.execPaletteWrite who bank e high v s
  | .mapCommit who n v => Sys2Proof.Machine.execMapCommit who n v s
  | .mapCheckDone n => Sys2Proof.Machine.execMapCheckDone n s
  | .extensionEnd g => Sys2Proof.Machine.execExtensionEnd g s
  | .commit who g v => Sys2Proof.Machine.execCommit who g v s
  | .cancel who g v => Sys2Proof.Machine.execCancel who g v s
  | .idleEnableWrite who g v => Sys2Proof.Machine.execIdleEnableWrite who g v s
  | .swapSecondCopy n => Sys2Proof.Machine.execSwapSecondCopy n s
  | .trainWrite who n v => Sys2Proof.Machine.execTrainWrite who n v s
  | .portDownWrite who n v => Sys2Proof.Machine.execPortDownWrite who n v s
  | .detectDone n => Sys2Proof.Machine.execDetectDone n s
  | .trainReport n rx slips deskewed => Sys2Proof.Machine.execTrainReport n rx slips deskewed s
  | .trainPhaseTimeout n opens shorts => Sys2Proof.Machine.execTrainPhaseTimeout n opens shorts s
  | .trainRetry n => Sys2Proof.Machine.execTrainRetry n s
  | .echoReceive n rx slips t4 => Sys2Proof.Machine.execEchoReceive n rx slips t4 s
  | .echoTimeout n => Sys2Proof.Machine.execEchoTimeout n s
  | .statusReceive n rx slips at_ => Sys2Proof.Machine.execStatusReceive n rx slips at_ s
  | .checksumReceive n rx slips => Sys2Proof.Machine.execChecksumReceive n rx slips s
  | .telemetryReceive n rx slips => Sys2Proof.Machine.execTelemetryReceive n rx slips s
  | .bcLockLost n inPacket => Sys2Proof.Machine.execBcLockLost n inPacket s
  | .bcSilent n inPacket => Sys2Proof.Machine.execBcSilent n inPacket s
  | .laneMonitorFault n lane short inPacket => Sys2Proof.Machine.execLaneMonitorFault n lane short inPacket s
  | .keepaliveTimer n => Sys2Proof.Machine.execKeepaliveTimer n s
  | .testStart who n v => Sys2Proof.Machine.execTestStart who n v s
  | .testEnd n errors => Sys2Proof.Machine.execTestEnd n errors s
  | .mgmtReply ch rx slips => Sys2Proof.Machine.execMgmtReply ch rx slips s
  | .mgmtReplyTimeout ch => Sys2Proof.Machine.execMgmtReplyTimeout ch s
  | .busAbSwap m => Sys2Proof.Machine.execBusAbSwap m s
  | .busShort m => Sys2Proof.Machine.execBusShort m s
  | .busOpen m => Sys2Proof.Machine.execBusOpen m s
  | .busRetry m short => Sys2Proof.Machine.execBusRetry m short s
  | .rescan who v => Sys2Proof.Machine.execRescan who v s
  | .statusPoll n => Sys2Proof.Machine.execStatusPoll n s
  | .powerUp who n v => Sys2Proof.Machine.execPowerUp who n v s
  | .biasPoll n => Sys2Proof.Machine.execBiasPoll n s
  | .powerUpTimeout n => Sys2Proof.Machine.execPowerUpTimeout n s
  | .wallUp who v => Sys2Proof.Machine.execWallUp who v s
  | .powerDown who n v => Sys2Proof.Machine.execPowerDown who n v s
  | .dischargePoll n => Sys2Proof.Machine.execDischargePoll n s
  | .dischargeTimeout n => Sys2Proof.Machine.execDischargeTimeout n s
  | .freezeWrite who n v => Sys2Proof.Machine.execFreezeWrite who n v s
  | .partialWriteJob ring => Sys2Proof.Machine.execPartialWriteJob ring s
  | .partialWritePacket ring slot => Sys2Proof.Machine.execPartialWritePacket ring slot s
  | .partialWriteResume ring slot => Sys2Proof.Machine.execPartialWriteResume ring slot s
  | .heartbeatRefresh who v => Sys2Proof.Machine.execHeartbeatRefresh who v s
  | .heartbeatExpiry => Sys2Proof.Machine.execHeartbeatExpiry s
  | .holdTimeout n => Sys2Proof.Machine.execHoldTimeout n s
  | .fadeStep n => Sys2Proof.Machine.execFadeStep n s
  | .levelWrite who n v => Sys2Proof.Machine.execLevelWrite who n v s
  | .hbmRequest req src write addr len data stream door => Sys2Proof.Machine.execHbmRequest req src write addr len data stream door s
  | .arbiterDecision a clocks => Sys2Proof.Machine.execArbiterDecision a clocks s
  | .arbWindowStart a => Sys2Proof.Machine.execArbWindowStart a s
  | .arbConfigWrite who a r v => Sys2Proof.Machine.execArbConfigWrite who a r v s
  | .hbmReadReturn p k err => Sys2Proof.Machine.execHbmReadReturn p k err s
  | .hbmWriteRetire p err => Sys2Proof.Machine.execHbmWriteRetire p err s
  | .cordEnd p => Sys2Proof.Machine.execCordEnd p s
  | .cordWmWrite who v => Sys2Proof.Machine.execCordWmWrite who v s
  | .refreshDue p bank => Sys2Proof.Machine.execRefreshDue p bank s
  | .hbmTempChange stack raised => Sys2Proof.Machine.execHbmTempChange stack raised s
  | .periodicTrainingDue p => Sys2Proof.Machine.execPeriodicTrainingDue p s
  | .trainingRunStart p => Sys2Proof.Machine.execTrainingRunStart p s
  | .trainingRunEnd p margin => Sys2Proof.Machine.execTrainingRunEnd p margin s
  | .trainingDefer p => Sys2Proof.Machine.execTrainingDefer p s
  | .hbmBootTrainingDone fails => Sys2Proof.Machine.execHbmBootTrainingDone fails s
  | .compress ring => Sys2Proof.Machine.execCompress ring s
  | .decompress ring => Sys2Proof.Machine.execDecompress ring s
  | .compare ring => Sys2Proof.Machine.execCompare ring s
  | .codecBlockRowDone ring slot => Sys2Proof.Machine.execCodecBlockRowDone ring slot s
  | .twdCopy ring => Sys2Proof.Machine.execTwdCopy ring s
  | .twdFill ring => Sys2Proof.Machine.execTwdFill ring s
  | .keyCopy ring => Sys2Proof.Machine.execKeyCopy ring s
  | .glyph ring => Sys2Proof.Machine.execGlyph ring s
  | .twdRowDone ring slot => Sys2Proof.Machine.execTwdRowDone ring slot s
  | .twdConflictClear ring slot => Sys2Proof.Machine.execTwdConflictClear ring slot s
  | .dmaCopy ring => Sys2Proof.Machine.execDmaCopy ring s
  | .dmaFill ring => Sys2Proof.Machine.execDmaFill ring s
  | .dmaProgress ring slot => Sys2Proof.Machine.execDmaProgress ring slot s
  | .exportJob r => Sys2Proof.Machine.execExport r s
  | .descriptorFetch ring => Sys2Proof.Machine.execDescriptorFetch ring s
  | .completionWrite ring slot => Sys2Proof.Machine.execCompletionWrite ring slot s
  | .completionResume ring => Sys2Proof.Machine.execCompletionResume ring s
  | .piWrite who ring value => Sys2Proof.Machine.execPiWrite who ring value s
  | .ciWrite who ring value => Sys2Proof.Machine.execCiWrite who ring value s
  | .ringPark who ring => Sys2Proof.Machine.execRingPark who ring s
  | .ringUnpark who ring => Sys2Proof.Machine.execRingUnpark who ring s
  | .ringReassign who ring => Sys2Proof.Machine.execRingReassign who ring s
  | .clearInflight who ring => Sys2Proof.Machine.execClearInflight who ring s
  | .ifSelWrite who value => Sys2Proof.Machine.execIfSelWrite who value s
  | .lockAcquire who lock => Sys2Proof.Machine.execLockAcquire who lock s
  | .lockRelease who lock value => Sys2Proof.Machine.execLockRelease who lock value s
  | .stokerInstruction n => Sys2Proof.Machine.execStokerInstruction n s
  | .stokerFence n => Sys2Proof.Machine.execStokerFence n s
  | .claimRead n rd => Sys2Proof.Machine.execClaimRead n rd s
  | .claimctlWrite n v => Sys2Proof.Machine.execClaimctlWrite n v s
  | .wdkickWrite n => Sys2Proof.Machine.execWdkickWrite n s
  | .hbmwinWrite n w v => Sys2Proof.Machine.execHbmwinWrite n w v s
  | .stokerWatchdogExpiry n fuses => Sys2Proof.Machine.execStokerWatchdogExpiry n fuses s
  | .stokerEccError n corrected fuses => Sys2Proof.Machine.execStokerEccError n corrected fuses s
  | .stokerForceFail who n v fuses => Sys2Proof.Machine.execStokerForceFail who n v fuses s
  | .stokerReset who n v fuses => Sys2Proof.Machine.execStokerReset who n v fuses s
  | .pcieLinkLoss => Sys2Proof.Machine.execPcieLinkLoss s
  | .pcieFlr => Sys2Proof.Machine.execPcieFlr s
  | .ethLinkUp e => Sys2Proof.Machine.execEthLinkUp e s
  | .ethLinkDown e => Sys2Proof.Machine.execEthLinkDown e s
  | .anRestart who e v => Sys2Proof.Machine.execAnRestart who e v s
  | .ethFrameReceive e bytes pcsErr macErr => Sys2Proof.Machine.execEthFrameReceive e bytes pcsErr macErr s
  | .controlQueueDeliver q => Sys2Proof.Machine.execControlQueueDeliver q s
  | .transmitFrame q => Sys2Proof.Machine.execTransmitFrame q s
  | .transmitComplete q pcsErr macErr => Sys2Proof.Machine.execTransmitComplete q pcsErr macErr s
  | .queueIndexWrite who q head v => Sys2Proof.Machine.execQueueIndexWrite who q head v s
  | .tbRateWrite who b v => Sys2Proof.Machine.execTbRateWrite who b v s
  | .tbStepGo who b v => Sys2Proof.Machine.execTbStepGo who b v s
  | .tbSet who b v => Sys2Proof.Machine.execTbSet who b v s
  | .tbDisciplineWrite who b v => Sys2Proof.Machine.execTbDisciplineWrite who b v s
  | .snapshotTake who v => Sys2Proof.Machine.execSnapshotTake who v s
  | .genlockLost b => Sys2Proof.Machine.execGenlockLost b s
  | .tpoArm who o v => Sys2Proof.Machine.execTpoArm who o v s
  | .tpoDisarm who o v => Sys2Proof.Machine.execTpoDisarm who o v s
  | .tpoEdge o => Sys2Proof.Machine.execTpoEdge o s
  | .captureEdge c rising => Sys2Proof.Machine.execCaptureEdge c rising s
  | .captureOvervolt c exceeds => Sys2Proof.Machine.execCaptureOvervolt c exceeds s
  | .captureStampRead who c => Sys2Proof.Machine.execCaptureStampRead who c s
  | .nonceDraw who => Sys2Proof.Machine.execNonceDraw who s
  | .nonceExpiry => Sys2Proof.Machine.execNonceExpiry s
  | .tokenCheck who => Sys2Proof.Machine.execTokenCheck who s
  | .tokenCheckDone => Sys2Proof.Machine.execTokenCheckDone s
  | .mbxCheck v => Sys2Proof.Machine.execMbxCheck v s
  | .mbxClose v => Sys2Proof.Machine.execMbxClose v s
  | .mbxNewNonce v => Sys2Proof.Machine.execMbxNewNonce v s
  | .programKey who v => Sys2Proof.Machine.execProgramKey who v s
  | .revokeKey who v => Sys2Proof.Machine.execRevokeKey who v s
  | .programImageKey who v => Sys2Proof.Machine.execProgramImageKey who v s
  | .programClass who v => Sys2Proof.Machine.execProgramClass who v s
  | .programWall who v => Sys2Proof.Machine.execProgramWall who v s
  | .raise who v => Sys2Proof.Machine.execRaise who v s
  | .disablePort who v => Sys2Proof.Machine.execDisablePort who v s
  | .advanceRollback who v => Sys2Proof.Machine.execAdvanceRollback who v s
  | .advanceLifecycle who v => Sys2Proof.Machine.execAdvanceLifecycle who v s
  | .otpCommandComplete failed => Sys2Proof.Machine.execOtpCommandComplete failed s
  | .recordWrite => Sys2Proof.Machine.execRecordWrite s
  | .recordRewrite => Sys2Proof.Machine.execRecordRewrite s
  | .recorderClear who v => Sys2Proof.Machine.execRecorderClear who v s
  | .kilnMeasurement item inst => Sys2Proof.Machine.execKilnMeasurement item inst s
  | .kilnMeasurementDone item inst vals codes => Sys2Proof.Machine.execKilnMeasurementDone item inst vals codes s
  | .kilnCorrectionApply item inst => Sys2Proof.Machine.execKilnCorrectionApply item inst s
  | .kilnDeferred item inst => Sys2Proof.Machine.execKilnDeferred item inst s
  | .powerOnReset b => Sys2Proof.Machine.execPowerOnReset b s
  | .brownOut b => Sys2Proof.Machine.execBrownOut b s
  | .coldPinReset b => Sys2Proof.Machine.execColdPinReset b s
  | .coldRegisterReset who v b => Sys2Proof.Machine.execColdRegisterReset who v b s
  | .warmReset who v b => Sys2Proof.Machine.execWarmReset who v b s
  | .thermalTrip fuses => Sys2Proof.Machine.execThermalTrip fuses s
  | .thermalRelease k => Sys2Proof.Machine.execThermalRelease k s
  | .clockFault r fuses => Sys2Proof.Machine.execClockFault r fuses s
  | .clockRestored r k => Sys2Proof.Machine.execClockRestored r k s
  | .blockReset who v inPacket => Sys2Proof.Machine.execBlockReset who v inPacket s
  | .blockResetDone port n => Sys2Proof.Machine.execBlockResetDone port n s
  | .portReset who m v inPacket => Sys2Proof.Machine.execPortReset who m v inPacket s
  | .smoulderEnter who v => Sys2Proof.Machine.execSmoulderEnter who v s
  | .wakePin b => Sys2Proof.Machine.execWakePin b s
  | .smoulderWakeTimer b => Sys2Proof.Machine.execSmoulderWakeTimer b s
  | .powerFailWarning => Sys2Proof.Machine.execPowerFailWarning s
  | .powerRestored => Sys2Proof.Machine.execPowerRestored s
  | .loadVerifyDone => Sys2Proof.Machine.execLoadVerifyDone s
  | .loadApplyDone fails => Sys2Proof.Machine.execLoadApplyDone fails s
  | .relightStart who v => Sys2Proof.Machine.execRelightStart who v s
  | .abortRelight who v => Sys2Proof.Machine.execAbortRelight who v s
  | .confirmGood who v => Sys2Proof.Machine.execConfirmGood who v s
  | .relightVerifyDone => Sys2Proof.Machine.execRelightVerifyDone s
  | .relightApplyDone fails => Sys2Proof.Machine.execRelightApplyDone fails s
  | .supervisorReadyTimeout => Sys2Proof.Machine.execSupervisorReadyTimeout s
  | .livePatchSubmit who b => Sys2Proof.Machine.execLivePatchSubmit who b s
  | .livePatchVerified => Sys2Proof.Machine.execLivePatchVerified s
  | .flashSlotWrite who slot b => Sys2Proof.Machine.execFlashSlotWrite who slot b s
  | .flashWriteDone ok => Sys2Proof.Machine.execFlashWriteDone ok s
  | .registerRead who a => Sys2Proof.Machine.execRegisterRead who a s
  | .pcieLinkUp => Sys2Proof.Machine.execPcieLinkUp s
  | .powerFailNReturnsHigh b => Sys2Proof.Machine.execPowerFailNReturnsHigh b s
  | .busBiasRestored m => Sys2Proof.Machine.execBusBiasRestored m s
  | .machineTimerInterrupt n => Sys2Proof.Machine.execMachineTimerInterrupt n s

end Sys2Proof.Machine
end

