-- ==== Sys2Proof/WellFormed.lean ====
section
/-!
DEFINITION. The commands whose operands name things the device has: indices inside their arrays (01_architecture.md R32 and the chapters'
tables), values of 32 bits, initiators that exist (R48). An ill-formed command has a meaning too; these are the ones the manual speaks of.
-/
namespace Sys2Proof

/-- A 32-bit value or address. -/
def wordOk (v : Nat) : Bool := decide (v < 2 ^ 32)

/-- A tile port. -/
def portOk (n : Nat) : Bool := decide (n < 96)

/-- An initiator the device has. -/
def initiatorOk : Initiator → Bool
  | .stoker n => decide (n < 64)
  | .posted n _ => decide (n < 64)
  | .engine n => decide (n < 3)
  | .bar0 => true
  | .mailbox => true
  | .jtag => true

/-- Kiln readings of 32 sensors, 8 monitors and 24 port groups (R556, R557). -/
def kilnOk (k : KilnReadings) : Bool := k.temps.length == 32 && k.mons.length == 8 && k.groups.length == 24

/-- The circumstances of a reset: fuse bits of one OTP command, words of one record. -/
def circsOk (b : BootCircs) : Bool := decide (b.fuses < 8193) && b.torn.all (fun t => decide (t < 64)) && kilnOk b.kiln

/-- The requester numbers that a source has (09_memory_arbitration.md, requester table). -/
def srcFits (req : Nat) : ReqSrc → Bool
  | .block => decide (req < 20) || req == 29
  | .ring r => ((decide (20 ≤ req) && decide (req < 24)) || req == 30) && decide (r < 4096)
  | .stoker n => req == 24 + n / 16 && decide (n < 64)
  | .bar0 => req == 28
  | .mailbox => req == 28

/-- A well-formed command. -/
def Instr.wf : Instr → Bool
  | .registerWrite who a v => initiatorOk who && wordOk a && wordOk v
  | .wideFieldRead who a => initiatorOk who && wordOk a
  | .eventEnableWrite who a v => initiatorOk who && wordOk a && wordOk v
  | .eventStatusClear who a v events => initiatorOk who && wordOk a && wordOk v && events.all (fun x => decide (x < 582))
  | .counterClear who a v _ => initiatorOk who && wordOk a && wordOk v
  | .lineStart g => decide (g < 4)
  | .framePacket e udp p => decide (e < 4) && decide (udp < 65536) && decide (p.length < 65536)
  | .dataPacket e udp p => decide (e < 4) && decide (udp < 65536) && decide (p.length < 65536)
  | .parityPacket e udp p => decide (e < 4) && decide (udp < 65536) && decide (p.length < 65536)
  | .ltableCommit who v => initiatorOk who && wordOk v
  | .bandRowFetch g u vr _ => decide (g < 4) && decide (u < 16) && decide (vr < 16)
  | .sliceFailure sl cause _ => decide (sl < 100) && decide (cause < 6)
  | .sliceForceFail who v _ => initiatorOk who && wordOk v
  | .sliceTakeoverCmd who v => initiatorOk who && wordOk v
  | .bellowsWmWrite who v => initiatorOk who && wordOk v
  | .lowMarkRead who sl => initiatorOk who && decide (sl < 100)
  | .pendingXferWrite who n v => initiatorOk who && portOk n && wordOk v
  | .ditherOffWrite who n v => initiatorOk who && portOk n && wordOk v
  | .paletteWrite who bank e _ v => initiatorOk who && decide (bank < 2) && decide (e < 256) && wordOk v
  | .mapCommit who n v => initiatorOk who && portOk n && wordOk v
  | .mapCheckDone n => portOk n
  | .extensionEnd g => decide (g < 4)
  | .commit who g v => initiatorOk who && decide (g < 4) && wordOk v
  | .cancel who g v => initiatorOk who && decide (g < 4) && wordOk v
  | .idleEnableWrite who g v => initiatorOk who && decide (g < 4) && wordOk v
  | .swapSecondCopy n => portOk n
  | .trainWrite who n v => initiatorOk who && portOk n && wordOk v
  | .portDownWrite who n v => initiatorOk who && portOk n && wordOk v
  | .detectDone n => portOk n
  | .trainReport n rx _ _ => portOk n && decide (rx.length < 65536) && rx.all (fun x => decide (x < 1024))
  | .trainPhaseTimeout n opens shorts => portOk n && decide (opens < 16) && decide (shorts < 16)
  | .trainRetry n => portOk n
  | .echoReceive n rx _ _ => portOk n && decide (rx.length < 65536) && rx.all (fun x => decide (x < 1024))
  | .echoTimeout n => portOk n
  | .statusReceive n rx _ _ => portOk n && decide (rx.length < 65536) && rx.all (fun x => decide (x < 1024))
  | .checksumReceive n rx _ => portOk n && decide (rx.length < 65536) && rx.all (fun x => decide (x < 1024))
  | .telemetryReceive n rx _ => portOk n && decide (rx.length < 65536) && rx.all (fun x => decide (x < 1024))
  | .bcLockLost n _ => portOk n
  | .bcSilent n _ => portOk n
  | .laneMonitorFault n lane _ _ => portOk n && decide (lane < 4)
  | .keepaliveTimer n => portOk n
  | .testStart who n v => initiatorOk who && portOk n && wordOk v
  | .testEnd n errors => portOk n && wordOk errors
  | .mgmtReply ch rx _ => (decide (ch < 12) || (decide (100 ≤ ch) && decide (ch < 196))) && decide (rx.length < 65536) && rx.all (fun x => decide (x < 1024))
  | .mgmtReplyTimeout ch => (decide (ch < 12) || (decide (100 ≤ ch) && decide (ch < 196)))
  | .busAbSwap m => decide (m < 12)
  | .busShort m => decide (m < 12)
  | .busOpen m => decide (m < 12)
  | .busRetry m _ => decide (m < 12)
  | .rescan who v => initiatorOk who && wordOk v
  | .statusPoll n => portOk n
  | .powerUp who n v => initiatorOk who && portOk n && wordOk v
  | .biasPoll n => portOk n
  | .powerUpTimeout n => portOk n
  | .wallUp who v => initiatorOk who && wordOk v
  | .powerDown who n v => initiatorOk who && portOk n && wordOk v
  | .dischargePoll n => portOk n
  | .dischargeTimeout n => portOk n
  | .freezeWrite who n v => initiatorOk who && portOk n && wordOk v
  | .partialWriteJob ring => decide (ring < 4096)
  | .partialWritePacket ring slot => decide (ring < 4096) && decide (slot < 8)
  | .partialWriteResume ring slot => decide (ring < 4096) && decide (slot < 8)
  | .heartbeatRefresh who v => initiatorOk who && wordOk v
  | .heartbeatExpiry => true
  | .holdTimeout n => portOk n
  | .fadeStep n => portOk n
  | .levelWrite who n v => initiatorOk who && portOk n && wordOk v
  | .hbmRequest req src _ addr len data _ door => decide (req < 32) && srcFits req src && decide (addr < 2 ^ 36) && decide (len < 257) && decide (data.length < 65536) && door.all initiatorOk
  | .arbiterDecision a clocks => decide (a < 71) && decide (clocks < 2 ^ 32)
  | .arbWindowStart a => decide (a < 71)
  | .arbConfigWrite who a r v => initiatorOk who && decide (a < 71) && r.all (fun x => decide (x < 32)) && wordOk v
  | .hbmReadReturn p _ err => decide (p < 64) && decide (err < 5)
  | .hbmWriteRetire p err => decide (p < 64) && decide (err < 5)
  | .cordEnd p => decide (p < 64)
  | .cordWmWrite who v => initiatorOk who && wordOk v
  | .refreshDue p bank => decide (p < 64) && decide (bank < 32)
  | .hbmTempChange stack _ => decide (stack < 2)
  | .periodicTrainingDue p => decide (p < 64)
  | .trainingRunStart p => decide (p < 64)
  | .trainingRunEnd p margin => decide (p < 64) && decide (margin < 256)
  | .trainingDefer p => decide (p < 64)
  | .hbmBootTrainingDone fails => fails.all (fun x => decide (x < 64))
  | .compress ring => decide (ring < 4096)
  | .decompress ring => decide (ring < 4096)
  | .compare ring => decide (ring < 4096)
  | .codecBlockRowDone ring slot => decide (ring < 4096) && decide (slot < 8)
  | .twdCopy ring => decide (ring < 4096)
  | .twdFill ring => decide (ring < 4096)
  | .keyCopy ring => decide (ring < 4096)
  | .glyph ring => decide (ring < 4096)
  | .twdRowDone ring slot => decide (ring < 4096) && decide (slot < 8)
  | .twdConflictClear ring slot => decide (ring < 4096) && decide (slot < 8)
  | .dmaCopy ring => decide (ring < 4096)
  | .dmaFill ring => decide (ring < 4096)
  | .dmaProgress ring slot => decide (ring < 4096) && decide (slot < 8)
  | .exportJob r => decide (r < 4096)
  | .descriptorFetch ring => decide (ring < 4096)
  | .completionWrite ring slot => decide (ring < 4096) && decide (slot < 8)
  | .completionResume ring => decide (ring < 4096)
  | .piWrite who ring value => initiatorOk who && decide (ring < 4096) && wordOk value
  | .ciWrite who ring value => initiatorOk who && decide (ring < 4096) && wordOk value
  | .ringPark who ring => initiatorOk who && decide (ring < 4096)
  | .ringUnpark who ring => initiatorOk who && decide (ring < 4096)
  | .ringReassign who ring => initiatorOk who && decide (ring < 4096)
  | .clearInflight who ring => initiatorOk who && decide (ring < 4096)
  | .ifSelWrite who value => initiatorOk who && wordOk value
  | .lockAcquire who lock => initiatorOk who && decide (lock < 256)
  | .lockRelease who lock value => initiatorOk who && decide (lock < 256) && wordOk value
  | .stokerInstruction n => decide (n < 64)
  | .stokerFence n => decide (n < 64)
  | .claimRead n rd => decide (n < 64) && decide (rd < 32)
  | .claimctlWrite n v => decide (n < 64) && wordOk v
  | .wdkickWrite n => decide (n < 64)
  | .hbmwinWrite n w v => decide (n < 64) && decide (w < 4) && wordOk v
  | .stokerWatchdogExpiry n fuses => decide (n < 64) && decide (fuses < 8193)
  | .stokerEccError n _ fuses => decide (n < 64) && decide (fuses < 8193)
  | .stokerForceFail who n v fuses => initiatorOk who && decide (n < 64) && wordOk v && decide (fuses < 8193)
  | .stokerReset who n v fuses => initiatorOk who && decide (n < 64) && wordOk v && decide (fuses < 8193)
  | .pcieLinkLoss => true
  | .pcieFlr => true
  | .ethLinkUp e => decide (e < 4)
  | .ethLinkDown e => decide (e < 4)
  | .anRestart who e v => initiatorOk who && decide (e < 4) && wordOk v
  | .ethFrameReceive e bytes _ _ => decide (e < 4) && decide (bytes.length < 65536)
  | .controlQueueDeliver q => decide (q < 16)
  | .transmitFrame q => decide (q < 16)
  | .transmitComplete q _ _ => decide (q < 16)
  | .queueIndexWrite who q _ v => initiatorOk who && decide (q < 16) && wordOk v
  | .tbRateWrite who b v => initiatorOk who && decide (b < 4) && wordOk v
  | .tbStepGo who b v => initiatorOk who && decide (b < 4) && wordOk v
  | .tbSet who b v => initiatorOk who && decide (b < 4) && wordOk v
  | .tbDisciplineWrite who b v => initiatorOk who && decide (b < 4) && wordOk v
  | .snapshotTake who v => initiatorOk who && wordOk v
  | .genlockLost b => decide (b < 4)
  | .tpoArm who o v => initiatorOk who && decide (o < 8) && wordOk v
  | .tpoDisarm who o v => initiatorOk who && decide (o < 8) && wordOk v
  | .tpoEdge o => decide (o < 8)
  | .captureEdge c _ => decide (c < 8)
  | .captureOvervolt c _ => decide (c < 8)
  | .captureStampRead who c => initiatorOk who && decide (c < 8)
  | .nonceDraw who => initiatorOk who
  | .nonceExpiry => true
  | .tokenCheck who => initiatorOk who
  | .tokenCheckDone => true
  | .mbxCheck v => wordOk v
  | .mbxClose v => wordOk v
  | .mbxNewNonce v => wordOk v
  | .programKey who v => initiatorOk who && wordOk v
  | .revokeKey who v => initiatorOk who && wordOk v
  | .programImageKey who v => initiatorOk who && wordOk v
  | .programClass who v => initiatorOk who && wordOk v
  | .programWall who v => initiatorOk who && wordOk v
  | .raise who v => initiatorOk who && wordOk v
  | .disablePort who v => initiatorOk who && wordOk v
  | .advanceRollback who v => initiatorOk who && wordOk v
  | .advanceLifecycle who v => initiatorOk who && wordOk v
  | .otpCommandComplete failed => failed.all (fun x => decide (x < 8192))
  | .recordWrite => true
  | .recordRewrite => true
  | .recorderClear who v => initiatorOk who && wordOk v
  | .kilnMeasurement item inst => decide (item < 16) && decide (inst < 96)
  | .kilnMeasurementDone item inst _ _ => decide (item < 16) && decide (inst < 96)
  | .kilnCorrectionApply item inst => decide (item < 16) && decide (inst < 96)
  | .kilnDeferred item inst => decide (item < 16) && decide (inst < 96)
  | .powerOnReset b => circsOk b
  | .brownOut b => circsOk b
  | .coldPinReset b => circsOk b
  | .coldRegisterReset who v b => initiatorOk who && wordOk v && circsOk b
  | .warmReset who v b => initiatorOk who && wordOk v && circsOk b
  | .thermalTrip fuses => decide (fuses < 8193)
  | .thermalRelease k => kilnOk k
  | .clockFault r fuses => decide (r < 7) && decide (fuses < 8193)
  | .clockRestored r k => decide (r < 7) && kilnOk k
  | .blockReset who v inPacket => initiatorOk who && wordOk v && inPacket.all portOk
  | .blockResetDone port n => (if port then portOk n else decide (n < 18))
  | .portReset who m v inPacket => initiatorOk who && decide (m < 3) && wordOk v && inPacket.all portOk
  | .smoulderEnter who v => initiatorOk who && wordOk v
  | .wakePin b => circsOk b
  | .smoulderWakeTimer b => circsOk b
  | .powerFailWarning => true
  | .powerRestored => true
  | .loadVerifyDone => true
  | .loadApplyDone fails => fails.all (fun x => decide (x < 100))
  | .relightStart who v => initiatorOk who && wordOk v
  | .abortRelight who v => initiatorOk who && wordOk v
  | .confirmGood who v => initiatorOk who && wordOk v
  | .relightVerifyDone => true
  | .relightApplyDone fails => fails.all (fun x => decide (x < 100))
  | .supervisorReadyTimeout => true
  | .livePatchSubmit who b => initiatorOk who && decide (b.length ≤ 125829120)
  | .livePatchVerified => true
  | .flashSlotWrite who slot b => initiatorOk who && decide (slot < 2) && decide (b.length ≤ 125829120)
  | .flashWriteDone _ => true
  | .registerRead who a => initiatorOk who && wordOk a
  | .pcieLinkUp => true
  | .powerFailNReturnsHigh b => circsOk b
  | .busBiasRestored m => decide (m < 12)
  | .machineTimerInterrupt n => decide (n < 64)

end Sys2Proof
end

