-- ==== Sys2Proof/Safety.lean ====
section
/-!
DEFINITION. What claims about the block are stated in: accesses that the fabric lets through, what a command leaves as it was, events
that have been raised, and the invariants of a run.
-/
namespace Sys2Proof.Machine

/-! ### Accesses and events -/

/-- The fabric lets an access of this initiator to instance [i][j] of register e through (R598). -/
abbrev Lets (s : State) (who : Initiator) (e : RegEnt) (i j : Nat) : Prop := s.dev.writeCase who e i j = .done

/-- Ingest runs, and datagram p from Ethernet port e is wall group g's, with a good common header of packet type typ (R99, R100). -/
abbrev Accepts (d : Dev) (g e udp typ : Nat) (p : List Byte) : Prop :=
  d.ingRuns = true ∧ 16 ≤ p.length ∧
  (List.range 4).find? (fun k => d.streamPort k e udp && d.rd ING_STREAM_CFG.stream_id k == beAt p 4 2) = some g ∧
  beAt p 0 2 = 0x4656 ∧ beAt p 2 1 / 16 = 1 ∧ beAt p 3 1 = typ ∧ beAt p 6 2 = p.length - 16

/-- A DATA (typ 2) or PARITY (typ 3) packet p that group g accepts, of a frame that holds slot sl as y, with parameters `fix` that are in
range and the slot's (R99, R100, R106). -/
abbrev PacketFits (d : Dev) (g e udp typ sl : Nat) (p : List Byte) (y : IngSlot) (fix : PktFix) : Prop :=
  Accepts d g e udp typ p ∧ 0x18 ≤ p.length ∧ (beAt p 0x10 2, beAt p 0x12 1, beAt p 0x14 4) = fix ∧ fixValid fix = true ∧ beAt p 0x13 1 = 0 ∧
  (d.ingG g).admitted (beAt p 8 4) = none ∧ tget (d.ingG g).dead (beAt p 8 4) 0 = 0 ∧ (d.ingG g).slotOf (beAt p 8 4) = some (sl, y) ∧
  tfind (d.ingG g).pending sl = some y ∧ y.fixed = some fix

/-- Registers of every kind of block whose write only stores (R6). -/
def plainRegs : List RegEnt :=
  [GLB_ERR_STATUS.ent, GLB_EVT_ROUTE.ent, ING_LTABLE_LO.ent, ING_STREAM_CFG.ent, RAY_COEFF_SEL.ent, CMP_OVL_CFG.ent, SCN_PHASE.ent,
   TLK_ASYM.ent, TCT_SMK_RECT_A.ent, CDC_CTRL.ent, TWD_DAMPER.ent, NET_TB_SET1.ent, SEC_OTP_DATA.ent, KLN_CFG.ent, FSC_WALL_TRIM.ent]

/-- The status bit of event n is 1. -/
def Dev.eventSet (d : Dev) (n : Nat) : Bool :=
  match evPos n with
  | some p => d.rdBit p.st p.bit p.inst
  | none => false

/-- Instance i of the counter with these fields has counted n more occurrences: none while it is saturated; the count that reaches all ones
saturates it (R43, R44; log entry 6). -/
abbrev Counted (s t : State) (sat cnt : Fld) (i : Nat) (n : Nat := 1) : Prop :=
  (s.dev.rd sat i ≠ 0 → t.dev.rd cnt i = s.dev.rd cnt i ∧ t.dev.rd sat i = s.dev.rd sat i) ∧
  (s.dev.rd sat i = 0 → t.dev.rd cnt i = min (s.dev.rd cnt i + n) 0x7FFFFFFF ∧
    t.dev.rd sat i = b2n (decide (0x7FFFFFFF ≤ s.dev.rd cnt i + n)))

/-- Where no doorbell write of `who` waits and its way to ring r's doorbell is free, the register cells that the arbiter on that way may
change: none where the write passes no arbiter (R441), else the mask of its requester, which no quota masks. -/
def Dev.doorWay (d : Dev) (who : Initiator) (r : Nat) : Option (List Nat) :=
  if (List.range 5).all (fun k => (d.ownDoors who (66 + k)).isEmpty) then
    match d.doorInst r, doorReq who with
    | some i, some q =>
      if d.arbOn i && d.reqPresent i q then
        (if (d.arbI i).holder.isNone && (tget (d.arbI i).held q []).isEmpty &&
            (List.range 32).all (fun p => ((d.arbI i).queue p).isEmpty) && ! d.atQuota i q then
          some [ARB_REQ_STATE.masked.key i q]
        else none)
      else some []
    | _, _ => some []
  else none

/-- No stoker's store waits in the fabric. -/
abbrev NonePosted (s : State) : Prop := s.dev.posted = []

/-! ### What stays as it was -/

/-- The queue, the OTP array, the flash slots and every byte of HBM are as they were. -/
def SameStores (s t : State) : Prop := t.pending = s.pending ∧ t.otp = s.otp ∧ t.flash = s.flash ∧ t.hbm = s.hbm

/-- Register cells other than those with these keys are as they were. -/
def CellsKept (s t : State) (keys : List Nat) : Prop := ∀ k, k ∉ keys → tfind t.dev.regs k = tfind s.dev.regs k

/-- Register cells outside these blocks are as they were. -/
def BlocksKept (s t : State) (blocks : List Nat) : Prop := ∀ k, blockOf (k / 32) ∉ blocks → tfind t.dev.regs k = tfind s.dev.regs k

/-- Nothing but the register cells with these keys changes. -/
def OnlyCells (s t : State) (keys : List Nat) : Prop :=
  t = { s with dev := { s.dev with regs := t.dev.regs } } ∧ CellsKept s t keys

/-- Nothing changes but these register cells and what raising an event may reach: the recorder's own registers and queue, claim queues,
and messages. -/
def RaisedOnly (s t : State) (keys : List Nat) : Prop :=
  t = { s with dev := { s.dev with regs := t.dev.regs, out := t.dev.out, evr := t.dev.evr, stk := t.dev.stk } } ∧
  ∀ k, k ∉ keys → blockOf (k / 32) ≠ 15 → tfind t.dev.regs k = tfind s.dev.regs k

/-- Outside HBM and the device nothing changes. -/
def KeepsRest (s t : State) : Prop := t.pending = s.pending ∧ t.otp = s.otp ∧ t.flash = s.flash

/-- Every byte of HBM outside these ranges, each an address and a length, reads as it did. -/
def HbmKept (s t : State) (ranges : List (Nat × Nat)) : Prop :=
  ∀ x, (∀ p ∈ ranges, x < p.1 ∨ p.1 + p.2 ≤ x) → hbmGet t.hbm x = hbmGet s.hbm x

/-- The regions admit this requester's writes to every byte of [a, a + n), and no pseudo-channel that holds one has failed. -/
def WritesReach (d : Dev) (req : Nat) (sec : Bool) (a n : Nat) : Prop :=
  ∀ x, a ≤ x → x < a + n → d.admits req sec true x = true ∧ d.pchFailed (d.physPch x) = false

/-- The regions admit this requester's reads of every byte of [a, a + n), and no pseudo-channel that holds one has failed. -/
def ReadsReach (d : Dev) (req : Nat) (sec : Bool) (a n : Nat) : Prop :=
  ∀ x, a ≤ x → x < a + n → d.admits req sec false x = true ∧ d.pchFailed (d.physPch x) = false

/-- The job in this in-flight entry has finished with these progress words. -/
def JobEnds (t : State) (r slot : Nat) (p : List Nat) : Prop :=
  (t.dev.jobAt r slot).map (fun k => (k.finished, k.progress)) = some (true, p)

/-- Nothing but the in-flight jobs changes. -/
def OnlyJobs (s t : State) : Prop := t = { s with dev := { s.dev with jobs := t.dev.jobs } }

/-! ### Invariants of a run -/

/-- A fuse that reads 1 in one array reads 1 in the other (R521: no command clears a bit). -/
def otpGrows (o o' : Tab Nat) : Prop := ∀ w b, (tget o w 0).testBit b = true → (tget o' w 0).testBit b = true

end Sys2Proof.Machine

namespace Sys2Proof

/-- The commands that may program fuses: the end of an OTP command, every reset and what may bring one about, a stoker's earlier store
to the same block among it, which a doorbell write brings too. -/
def Instr.mayReset : Instr → Bool
  | .otpCommandComplete _ | .powerOnReset _ | .brownOut _ | .coldPinReset _ | .coldRegisterReset _ _ _ | .warmReset _ _ _ => true
  | .thermalTrip _ | .clockFault _ _ | .wakePin _ | .smoulderWakeTimer _ | .powerFailNReturnsHigh _ => true
  | .stokerWatchdogExpiry _ _ | .stokerEccError _ _ _ | .stokerForceFail _ _ _ _ | .stokerReset _ _ _ _ => true
  | .registerWrite _ _ _ | .eventEnableWrite _ _ _ | .eventStatusClear _ _ _ _ | .counterClear _ _ _ _ => true
  | .registerRead _ _ | .wideFieldRead _ _ | .lowMarkRead _ _ | .lockAcquire _ _ | .captureStampRead _ _ => true
  | .stokerInstruction _ | .stokerFence _ | .blockReset _ _ _ | .portReset _ _ _ _ | .smoulderEnter _ _ => true
  | .piWrite _ _ _ | .ciWrite _ _ _ | .ringPark _ _ | .ringUnpark _ _ | .ringReassign _ _ | .clearInflight _ _ | .ifSelWrite _ _ => true
  | .lockRelease _ _ _ => true
  | .hbmRequest _ _ _ _ _ _ _ door => door.isSome
  | _ => false

end Sys2Proof
end

