-- ==== Sys2Proof/Certificates/Slice0/Obligations.lean ====
section
/-!
DEFINITION. The statements about the block, each a proposition that the provers prove.
-/
open Sys2Proof Sys2Proof.Machine

/-- A step runs the command at the front of the queue (R26 (01_architecture.md; the command queue is the form of the model: log
entry 70)). For every command c and state s, step of s with c at the front of its queue is exec of c on s with the queue's rest. -/
def Obligations.StepRunsFront : Prop :=
  ∀ (c : Instr) (s : State), step { s with pending := c :: s.pending } = exec c s

/-- An empty queue lets one 4 ns tick pass (R471, R26 (the tick of an empty queue is the model's choice: log entry 15)). On an empty
queue a step answers a next state in which the device's clock is one tick further; where no posted write waits, the stores, the
queue, every register and every sub-state but the clock and the time bases are as they were. -/
def Obligations.IdleStepIsOneTick : Prop :=
  (∀ (s : State), s.pending = [] → NonePosted s →
    ∃ t, step s = .next t ∧ t.dev.ticks = s.dev.ticks + 1 ∧ SameStores s t ∧
      t.dev = { s.dev with ticks := t.dev.ticks, net := { s.dev.net with tbs := t.dev.net.tbs } }) ∧
  ∀ (s : State) (x : Posted) (rest : List Posted), s.pending = [] → s.dev.posted = x :: rest →
    ∃ t, step s = .next t ∧ t = controlWrite x.who x.addr x.value (onDev s (fun d => { d.advance 1 with posted := rest }))

/-- After reset every field reads its Reset entry, and the identity registers read as the manual lists them (R11, R1, R34 (model's
choices: log entries 1, 2, 69)). At State.reset every register field of every index holds the number of its Reset column, a field
whose column gives no number reading 0 (the model's choice: log entry 1); the part number is 0x9600 and the stepping 0x00B0; no
command waits. That no fuse is programmed, the flash slots are empty and no HBM byte is listed is the model's choice (log entry 2),
and so is the moment that State.reset stands for (log entry 69). -/
def Obligations.ResetLeavesResetEntries : Prop :=
  (∀ (f : Fld) (i j : Nat), State.reset.dev.rd f i j = f.rst) ∧
  State.reset.dev.rd GLB_IDENTITY.part_number = 0x9600 ∧ State.reset.dev.rd GLB_IDENTITY.stepping = 0x00B0 ∧
  State.reset.pending = [] ∧ State.reset.otp = [] ∧ State.reset.flash = [] ∧ State.reset.hbm = []

/-- The state after reset has its HBM contents in canonical form (the model's choice of what unwritten HBM holds (log entry 2)).
Memory.wf holds of the HBM contents at State.reset, and the read of every address there gives 0: both are the model's choice (log
entry 2). -/
def Obligations.ResetMeetsInvariant : Prop :=
  Memory.wf State.reset.hbm = true ∧ ∀ a, hbmGet State.reset.hbm a = 0

/-- Every step keeps the HBM contents in canonical form (R353, R362, R363, R568 (09_memory_arbitration.md, contents of HBM)). From
every state whose HBM contents are in canonical form (addresses rise strictly and no listed byte is 0), every step that answers a
next state leaves them in canonical form: whatever command runs, including DMA, 2-D, codec, ingest, loads and resets. -/
def Obligations.StepKeepsMemoryForm : Prop :=
  ∀ (s t : State), Memory.wf s.hbm = true → step s = .next t → Memory.wf t.hbm = true

/-- No step clears a fuse (R520, R521, R522 (13_security.md, the OTP array)). For every state and every step that answers a next
state, a bit of the OTP array that was 1 is 1: programming, an interrupted command at a reset, and every other command only set
bits. -/
def Obligations.StepNeverClearsFuse : Prop :=
  ∀ (s t : State), step s = .next t → otpGrows s.otp t.otp

/-- Only the end of an OTP command and what may bring a reset about can change the OTP array (R520, R524, R525, R562
(13_security.md)). A command that is not OTP_COMMAND_COMPLETE, no reset, and neither a register access nor a stoker instruction
through which a reset can be ordered (a write row of GLB or STK, before which earlier stores of its writer to that block take
effect, is one, and a doorbell write that queues at an arbiter) leaves the OTP array exactly as it was: no packet, job, frame,
exchange, measurement or time command reaches it. -/
def Obligations.OtherCommandsKeepOtp : Prop :=
  ∀ (c : Instr) (s t : State), c.mayReset = false → exec c s = .next t → t.otp = s.otp

/-- A command's effect never reaches the queue, and every command completes (R26 (the model's command queue; log entry 70)). For
every command and every state exec answers a next state, and that state's queue of waiting commands is the one before. -/
def Obligations.ExecKeepsQueue : Prop :=
  ∀ (c : Instr) (s : State), ∃ t, exec c s = .next t ∧ t.pending = s.pending

/-- An access to an address that names no register (R31, R27, R28 (01_architecture.md), R598, model's choices (log entries 15 and
88)). REGISTER_WRITE and REGISTER_READ of an address that names no register complete for every initiator and value, after the
initiator's earlier stores to that block (R27, R28; that they wait at all is the model's choice: log entry 15). Addresses inside a
block at which no register stands, and addresses that are no multiple of 4, count as unmapped (read from the spec by inference: log
entry 88). The write changes nothing but GLB_ERR_STATUS.unmapped, which is 1 after both, and the read returns 0xDEAD0ADD. -/
def Obligations.UnmappedAccess : Prop :=
  ∀ (who : Initiator) (a v : Nat) (s : State), regAt a = none →
    let u := settled who a s
    (exec (.registerWrite who a v) s = .next (onDev u (fun d => d.wr GLB_ERR_STATUS.unmapped 1))) ∧
    (exec (.registerRead who a) s =
      .next (onDev u (fun d => (d.wr GLB_ERR_STATUS.unmapped 1).emit (.readData (initCode who) a 0xDEAD0ADD)))) ∧
    (onDev u (fun d => d.wr GLB_ERR_STATUS.unmapped 1)).dev.rd GLB_ERR_STATUS.unmapped = 1

/-- A blocked access returns 0x0BADF00D or is dropped, and is recorded whatever else holds (R8 (00_scope.md), R503 (13_security.md),
R598). For every initiator and every register of the map whose access the fabric blocks, in whatever domain state: REGISTER_WRITE
changes no register but the record of the access (SEC_BLOCK_ADDR, SEC_BLOCK_INFO, SEC_BLOCK_CNT, the status of SEC_BLOCKED) and the
recorder's own, and no store; REGISTER_READ does the same and returns 0x0BADF00D; after both SEC_BLOCKED is set and SEC_BLOCK_ADDR,
the initiator and the direction are those of the access. -/
def Obligations.BlockedAccess : Prop :=
  ∀ (who : Initiator) (a v : Nat) (e : RegEnt) (i j : Nat) (s : State), regAt a = some (e, i, j) →
    let b := beforeWrite who a s
    let u := settled who a s
    let keys := [SEC_BLOCK_ADDR.addr.key 0 0, SEC_BLOCK_INFO.initiator.key 0 0, SEC_BLOCK_INFO.write.key 0 0, SEC_BLOCK_CNT.sat.key 0 0,
      SEC_BLOCK_CNT.count.key 0 0, SEC_EVT_STATUS.status.key 0 0]
    (b.dev.writeCase who e i j = .blocked → ∃ t, exec (.registerWrite who a v) s = .next t ∧ RaisedOnly b t keys ∧ t.dev.eventSet 512 = true ∧
      t.dev.rd SEC_BLOCK_ADDR.addr = a % 2 ^ 32 ∧ t.dev.rd SEC_BLOCK_INFO.initiator = initCode who % 2 ^ 8 ∧ t.dev.rd SEC_BLOCK_INFO.write = 1) ∧
    (u.dev.writeCase who e i j = .blocked → ∃ t, exec (.registerRead who a) s = .next t ∧ RaisedOnly u t keys ∧ t.dev.eventSet 512 = true ∧
      t.dev.rd SEC_BLOCK_ADDR.addr = a % 2 ^ 32 ∧ t.dev.rd SEC_BLOCK_INFO.initiator = initCode who % 2 ^ 8 ∧ t.dev.rd SEC_BLOCK_INFO.write = 0 ∧
      t.dev.out.head? = some (.readData (initCode who) a 0x0BADF00D))

/-- An access to a register whose domain is off or in reset (R30 (01_architecture.md), R598). For every initiator and every register
the fabric would not block, whose domain is off or held in reset: REGISTER_WRITE leaves the state as it is (after the initiator's
earlier stores to that block), and REGISTER_READ returns 0xDEAD0FF0 and sets GLB_ERR_STATUS.domain_off, and changes nothing else;
and the waiting stores to the block count for sync_pending only where one is to a register that is on. -/
def Obligations.DomainOffAccess : Prop :=
  ∀ (who : Initiator) (a v : Nat) (e : RegEnt) (i j : Nat) (s : State), regAt a = some (e, i, j) →
    let b := beforeWrite who a s
    let u := settled who a s
    (b.dev.writeCase who e i j = .off → exec (.registerWrite who a v) s = .next b) ∧
    (u.dev.writeCase who e i j = .off → exec (.registerRead who a) s =
      .next (onDev u (fun d => (d.wr GLB_ERR_STATUS.domain_off 1).emit (.readData (initCode who) a 0xDEAD0FF0)))) ∧
    ((∀ p ∈ s.dev.posted, blockOf p.addr = blockOf a → s.dev.addrOn p.addr = false) →
      (∀ p ∈ s.dev.doorsWaiting, blockOf p.addr = blockOf a → s.dev.addrOn p.addr = false) → s.dev.syncPending (blockOf a) = false)

/-- A read that the fabric lets through returns the register's word and changes nothing but the reader's latches (R28, R48
(01_architecture.md), R6 (00_scope.md)). For every register but the three that a read changes (STK_LOCK_ACQ, RAY_SLICE_LEAD,
NET_CAP_STAMP0): REGISTER_READ and WIDE_FIELD_READ complete after the reader's earlier stores to that block; a higher word of a wide
field comes from the reader's own latch, every other word is the register's as the reader's world sees it; the words above the word
read are latched for this reader, and nothing else changes but what has left the device. -/
def Obligations.ReadReturnsTheWord : Prop :=
  ∀ (who : Initiator) (a : Nat) (e : RegEnt) (i j : Nat) (s : State), regAt a = some (e, i, j) → e.addr ≠ STK_LOCK_ACQ.baseAddr →
    e.addr ≠ RAY_SLICE_LEAD.baseAddr → e.addr ≠ NET_CAP_STAMP0.baseAddr →
    let u := settled who a s
    Lets u who e i j →
    let w := if isHigher e j then u.dev.getLatch who (e.at_ i j) else u.dev.word (u.dev.secureOf who) e i j
    ∃ t, exec (.registerRead who a) s = .next t ∧ exec (.wideFieldRead who a) s = .next t ∧
      t = { u with dev := { u.dev with latch := t.dev.latch, out := .readData (initCode who) a w :: u.dev.out } } ∧
      (j = 0 → ∀ x ∈ wideHigher e.addr, t.dev.getLatch who (x.1.at_ i x.2) = u.dev.word (u.dev.secureOf who) x.1 i x.2) ∧
      ∀ k, (∀ x ∈ wideHigher e.addr, k ≠ latchKey who (x.1.at_ i x.2)) → tfind t.dev.latch k = tfind u.dev.latch k

/-- A plain register write acts bit by bit as the access codes say, and on nothing else (R6, R9 (00_scope.md), R26, R27
(01_architecture.md)). For registers of every kind of block whose write has no effect of its own, every initiator and value:
REGISTER_WRITE completes after the writer's earlier stores to that block; each bit of a read-write field is the written one, a bit
of a W1C field is cleared where 1 is written, a bit of a W1S field is set where 1 is written, bits of other fields stay, and so does
a secure-only bit for a non-secure writer; no other register, no store and no sub-state changes. -/
def Obligations.WriteByAccessCode : Prop :=
  ∀ (who : Initiator) (e : RegEnt) (i j v : Nat) (s : State), e ∈ plainRegs → regAt (e.at_ i j) = some (e, i, j) →
    let u := settled who (e.at_ i j) s
    Lets u who e i j →
    ∃ t, exec (.registerWrite who (e.at_ i j) v) s = .next t ∧ OnlyCells u t (e.fields.map (fun f => f.f.key i j)) ∧
      ∀ f ∈ e.fields, ∀ k < f.f.w, (t.dev.rdBit f.f k i j) =
        if u.dev.secureOf who = false ∧ f.secMask.testBit k = true then u.dev.rdBit f.f k i j
        else match f.acc with
          | .rw => v.testBit (f.f.lo + k)
          | .w1c => u.dev.rdBit f.f k i j && ! v.testBit (f.f.lo + k)
          | .w1s => u.dev.rdBit f.f k i j || v.testBit (f.f.lo + k)
          | _ => u.dev.rdBit f.f k i j

/-- Enabling an event whose status is already 1 sends one message at that moment (R38, R36 (01_architecture.md)). For every event
register pair of the device and every writer that reaches all of it: EVENT_ENABLE_WRITE sets the enable bits as written and changes
no status bit; what leaves the device is one MSI-X message, to the routed vector and with the event's stamp, for each event of that
register that was off, is now on, has its status at 1, is routed to MSI-X and is not secure, and nothing else. -/
def Obligations.EnableSendsWaitingMessages : Prop :=
  ∀ (who : Initiator) (n v : Nat) (p : EvPos) (e : RegEnt) (j : Nat) (s : State), evPos n = some p →
    let a := p.en.addr + p.inst * p.en.s1
    let u := settled who a s
    regAt a = some (e, p.inst, j) → Lets u who e p.inst j → u.dev.secureOf who = true →
    ∃ t l, exec (.eventEnableWrite who a v) s = .next t ∧ t.dev.rdBit p.en p.bit p.inst = v.testBit p.bit ∧
      t = { u with dev := { u.dev with regs := t.dev.regs, out := l ++ u.dev.out, stk := t.dev.stk } } ∧
      CellsKept u t [p.en.key p.inst 0] ∧ l.Nodup ∧
      ∀ o, o ∈ l ↔ ∃ m q, evPos m = some q ∧ q.en = p.en ∧ q.inst = p.inst ∧ u.dev.rdBit q.en q.bit q.inst = false ∧
        t.dev.rdBit q.en q.bit q.inst = true ∧ u.dev.rdBit q.st q.bit q.inst = true ∧ u.dev.rd GLB_EVT_ROUTE.target m = 2 ∧
        u.dev.eventSecure m = false ∧ o = .msix (u.dev.rd GLB_EVT_ROUTE.dest m) m (u.dev.stampOf m)

/-- A write of 1 clears a status bit, and an event in the same cycle wins and sends a new message (R7 (00_scope.md), R38, R40
(01_architecture.md)). For every event n and every writer that reaches all of its status register: EVENT_STATUS_CLEAR with no
coinciding event clears exactly the status bits written with 1 and sends nothing; with event n occurring in the same cycle, n's
status bit reads 1 afterwards, the other bits are as the write leaves them, and where the write clears n's bit (or it was 0), n is
enabled, routed to MSI-X and not secure, its message leaves. -/
def Obligations.StatusClearAgainstSet : Prop :=
  ∀ (who : Initiator) (n v : Nat) (p : EvPos) (e : RegEnt) (s : State), evPos n = some p →
    let a := p.st.addr + p.inst * p.st.s1
    let u := settled who a s
    regAt a = some (e, p.inst, 0) → Lets u who e p.inst 0 → u.dev.secureOf who = true →
    (∃ t, exec (.eventStatusClear who a v []) s = .next t ∧ OnlyCells u t [p.st.key p.inst 0] ∧
      ∀ k < p.st.w, t.dev.rdBit p.st k p.inst = (u.dev.rdBit p.st k p.inst && ! v.testBit k)) ∧
    ∃ t, exec (.eventStatusClear who a v [n]) s = .next t ∧ RaisedOnly u t [p.st.key p.inst 0] ∧ t.dev.rdBit p.st p.bit p.inst = true ∧
      (blockOf a ≠ 15 → ∀ k < p.st.w, k ≠ p.bit → t.dev.rdBit p.st k p.inst = (u.dev.rdBit p.st k p.inst && ! v.testBit k)) ∧
      (u.dev.rdBit p.en p.bit p.inst = true → (v.testBit p.bit = true ∨ u.dev.rdBit p.st p.bit p.inst = false) →
        u.dev.rd GLB_EVT_ROUTE.target n = 2 → u.dev.eventSecure n = false →
        t.dev.out = .msix (u.dev.rd GLB_EVT_ROUTE.dest n) n (u.dev.stampOf n) :: u.dev.out)

/-- A counter write clears the bits written, and a coinciding count is kept only where it may count (R45). For every counter of the
device that the writer reaches: COUNTER_CLEAR clears the count bits written with 1 and sat where bit 31 is written, and nothing
else; with an increment in the same cycle, a write that clears the whole count and leaves sat at 0 leaves the counter at 1, and one
that leaves sat at 1 leaves it as without the increment. -/
def Obligations.CounterClearAgainstCount : Prop :=
  ∀ (who : Initiator) (a v : Nat) (e : RegEnt) (i j : Nat) (sat cnt : Fld) (s : State), regAt a = some (e, i, j) →
    e.counter = some (sat, cnt) →
    let u := settled who a s
    Lets u who e i j → u.dev.rd sat i j ≤ 1 →
    (∃ t, exec (.counterClear who a v false) s = .next t ∧ OnlyCells u t [sat.key i j, cnt.key i j] ∧
      t.dev.rd sat i j = (if v.testBit 31 then 0 else u.dev.rd sat i j) ∧
      (∀ k < 31, t.dev.rdBit cnt k i j = (u.dev.rdBit cnt k i j && ! v.testBit k)) ∧
      (t.dev.rd sat i j = 1 → exec (.counterClear who a v true) s = .next t)) ∧
    (v % 2 ^ 31 = 2 ^ 31 - 1 → (v.testBit 31 = true ∨ u.dev.rd sat i j = 0) →
      ∃ t, exec (.counterClear who a v true) s = .next t ∧ OnlyCells u t [sat.key i j, cnt.key i j] ∧ t.dev.rd sat i j = 0 ∧
        t.dev.rd cnt i j = 1)

/-- The reads that change their register: a low mark, a lock, a stamp (R155 (04_ray_synthesis.md), R457 (11_stokers_rings.md), R493
(12_network_time.md), R6). Where the fabric lets the reader through, after its earlier stores: LOW_MARK_READ returns the lowest lead
and leaves it at 4; LOCK_ACQUIRE of a free lock makes the reader its owner and answers granted, of a lock it owns answers granted
and again, of another's lock answers neither, names the owner and changes no owner; CAPTURE_STAMP_READ removes the oldest stamp of
its input and latches its other words. -/
def Obligations.ReadsThatChange : Prop :=
  (∀ (who : Initiator) (n : Nat) (s : State), n < 100 →
    let u := settled who (RAY_SLICE_LEAD.ent.at_ n 0) s
    Lets u who RAY_SLICE_LEAD.ent n 0 →
    ∃ t, exec (.lowMarkRead who n) s = .next t ∧ OnlyCells u { t with dev := { t.dev with out := u.dev.out } } [RAY_SLICE_LEAD.low_mark.key n 0] ∧
      t.dev.rd RAY_SLICE_LEAD.low_mark n = 4 ∧
      t.dev.out = .readData (initCode who) (RAY_SLICE_LEAD.ent.at_ n 0) (u.dev.rd RAY_SLICE_LEAD.low_mark n * 2 ^ 16 +
        u.dev.rd RAY_SLICE_LEAD.lead n) :: u.dev.out) ∧
  (∀ (who : Initiator) (n c : Nat) (s : State), n < 256 → endpointOf who = some c → c < 255 →
    let u := settled who (STK_LOCK_ACQ.ent.at_ n 0) s
    Lets u who STK_LOCK_ACQ.ent n 0 → u.dev.rd STK_LOCK_ACQ.granted n = 0 → u.dev.rd STK_LOCK_ACQ.again n = 0 →
    let word (g r o : Nat) := g * 2 ^ 31 + r * 2 ^ 30 + u.dev.rd STK_LOCK_ACQ.abandoned n * 2 ^ 29 + u.dev.rd STK_LOCK_ACQ.last_owner n * 256 + o
    let o := u.dev.rd STK_LOCK_ACQ.owner n
    ∃ t, exec (.lockAcquire who n) s = .next t ∧
      t.dev.rd STK_LOCK_ACQ.owner n = (if o = 0xFF then c else o) ∧
      t.dev.out = .readData (initCode who) (STK_LOCK_ACQ.ent.at_ n 0)
        (if o = 0xFF then word 1 0 c else if o = c then word 1 1 c else word 0 0 o) :: u.dev.out) ∧
  ∀ (who : Initiator) (n x : Nat) (r : Bool) (rest : List (Nat × Bool)) (s : State), n < 8 →
    let u := settled who (NET_CAP_STAMP0.ent.at_ n 0) s
    Lets u who NET_CAP_STAMP0.ent n 0 → tget u.dev.net.capFifo n [] = (x, r) :: rest →
    ∃ t, exec (.captureStampRead who n) s = .next t ∧ tget t.dev.net.capFifo n [] = rest ∧
      t.dev.out = .readData (initCode who) (NET_CAP_STAMP0.ent.at_ n 0) (2 ^ 31 + b2n r * 2 ^ 30 + tFraction x) :: u.dev.out ∧
      t.dev.getLatch who (NET_CAP_STAMP1.ent.at_ n 0) = tNanos x ∧ SameStores u t

/-- A FRAME packet of a new frame claims the lowest free slot with its header, and changes nothing else (R102, R106, R111, R112
(03_scene_stream.md)). For every well-formed FRAME packet of a frame that its group neither holds, has dropped nor has admitted,
that is newer than every frame held, that fits its slot, and whose presentation time is later than the scanned frame's, where a slot
is free: FRAME_PACKET completes, the lowest free slot of the group (which one is the model's choice: log entry 128) holds the frame
with its payload parameters, which earlier packets of the frame must have fixed alike, presentation time, layers and bytes and no
DATA packet, and nothing else of the state changes. -/
def Obligations.FrameClaimsSlot : Prop :=
  ∀ (g e udp sl : Nat) (p : List Byte) (s : State), Accepts s.dev g e udp 1 p →
    let x := s.dev.ingG g
    let f := beAt p 8 4
    0x24 ≤ p.length → beAt p 6 2 = 20 + 48 * (beAt p 0x1C 4 % 32) → frameValid p = true →
    x.admitted f = none → tget x.dead f 0 ≠ 1 → x.slotOf f = none → (∀ h ∈ x.held, newer f h = true) →
    (∀ w, tfind x.fixes f = some w → w = frameFix p) → beAt p 0x20 4 ≤ tget s.dev.img.mem.slotSize g 0 → sl < s.dev.slotCount g → x.slotFree sl = true → (∀ k < sl, x.slotFree k = false) →
    (∀ a, x.scan = some a → a.hdr.pt < framePt p) →
    let y : IngSlot := ⟨f, some (beAt p 0x1C 2, beAt p 0x1E 1, beAt p 0x20 4), some ⟨framePt p, frameLayers p, p⟩, [], [], []⟩
    exec (.framePacket e udp p) s = .next (onDev s (fun d => d.setIng g { x with pending := tput x.pending sl y, fixes := tdel x.fixes f }))

/-- A DATA packet is stored and marked present; a PARITY packet waits, or repairs the one packet that is missing (R106, R107, R109,
R110 (03_scene_stream.md)). For every well-formed DATA or PARITY packet of a frame that holds a slot and whose parameters agree with
the slot's: DATA_PACKET with a sequence and length of the frame completes: one already present only counts as a duplicate; one not
yet present is marked present and its payload written at its place in the slot as the memory rules allow, and, where the frame has
parity, taken into its group's running exclusive-or of payloads. PARITY_PACKET of a parity group of the frame completes: with no
packet missing it changes nothing, else it holds the payload. Either changes nothing else, but that a group which now has its parity
and misses exactly one packet is repaired at once: the missing payload, the exclusive-or of the parity and the running one, cut to
the packet's span, is written at its place and the packet marked present, and ING_REPAIR_CNT counts. -/
def Obligations.DataAndParityArrive : Prop :=
  ∀ (g e udp sl : Nat) (p : List Byte) (y : IngSlot) (fix : PktFix) (s : State),
    let x := s.dev.ingG g
    let q := beAt p 12 4
    let bs := p.drop 0x18
    let put := fun (u : State) (z : IngSlot) (m : Nat) (b : List Byte) =>
      onDev (writeHbm u 16 (u.dev.blockSecure 2) (tget s.dev.img.mem.slotBase (g * 8 + sl) 0 + (m - 1) * fix.1) b).1
        (fun d => d.setSlot g sl { z with
          present := tput z.present m 1,
          acc := if fix.2.1 = 0 then z.acc else tput z.acc ((m - 1) / fix.2.1) (xorBytes fix.1 (tget z.acc ((m - 1) / fix.2.1) []) b) })
    let repaired := fun (u t : State) (k : Nat) =>
      let z := u.dev.pendingSlot g sl
      (tfind z.parity k = none ∨ (z.missingOf fix k).length ≠ 1 → t = u) ∧
      ∀ par m, tfind z.parity k = some par → z.missingOf fix k = [m] →
        t = onDev (put u z m ((xorBytes fix.1 par (tget z.acc k [])).take (packetSpan fix m)))
          (fun d => d.count ING_REPAIR_CNT.sat ING_REPAIR_CNT.count 1 g)
    (PacketFits s.dev g e udp 2 sl p y fix → 1 ≤ q → q ≤ packetCount fix → bs.length = packetSpan fix q →
      ∃ t, exec (.dataPacket e udp p) s = .next t ∧ (tfind (t.dev.pendingSlot g sl).present q).isSome = true ∧
        ((tfind y.present q).isSome = true → t = onDev s (fun d => d.count ING_DUP_PKT_CNT.sat ING_DUP_PKT_CNT.count 1 g)) ∧
        (tfind y.present q = none → fix.2.1 = 0 → t = put s y q bs) ∧
        (tfind y.present q = none → fix.2.1 ≠ 0 → repaired (put s y q bs) t ((q - 1) / fix.2.1))) ∧
    (PacketFits s.dev g e udp 3 sl p y fix → fix.2.1 ≠ 0 → q * fix.2.1 < packetCount fix → bs.length = fix.1 →
      ∃ t, exec (.parityPacket e udp p) s = .next t ∧ (y.missingOf fix q = [] → t = s) ∧
        (y.missingOf fix q ≠ [] →
          repaired (onDev s (fun d => d.setIng g { x with pending := tput x.pending sl { y with parity := tput y.parity q bs } })) t q))

/-- A committed coding table is taken exactly where its lengths make a complete code (R127). LTABLE_COMMIT completes for every mask
where the fabric lets the write through: of tables 8 to 15, each one in the mask whose eleven shadow lengths (ING_LTABLE_LO and
ING_LTABLE_HI) all lie in 1 to 12 and whose sum of 2^(12 − length) is 4096 takes those lengths and its valid bit; every other table
keeps its contents; where one in the mask fails the test TABLE_REJECT is set and the error code is 0x41. -/
def Obligations.TableCommit : Prop :=
  ∀ (who : Initiator) (v : Nat) (s : State),
    let u := settled who (ING_LTABLE_CTRL.ent.at_ 0 0) s
    Lets u who ING_LTABLE_CTRL.ent 0 0 →
    let lens (i : Nat) : List Nat := [28, 24, 20, 16, 12, 8, 4, 0].map (fun b => u.dev.rd ING_LTABLE_LO.lengths_lo i / 2 ^ b % 16) ++
      [8, 4, 0].map (fun b => u.dev.rd ING_LTABLE_HI.lengths_hi i / 2 ^ b % 16)
    let good (i : Nat) : Prop := (∀ l ∈ lens i, 1 ≤ l ∧ l ≤ 12) ∧ ((lens i).map (fun l => 2 ^ (12 - l))).sum = 4096
    ∃ t, exec (.ltableCommit who v) s = .next t ∧ SameStores u t ∧
      (∀ i < 8, v.testBit i = true → good i → tfind t.dev.ltab (8 + i) = some (lens i) ∧ t.dev.rdBit ING_LTABLE_CTRL.valid i = true) ∧
      (∀ k, (∀ i < 8, v.testBit i = true → good i → k ≠ 8 + i) → tfind t.dev.ltab k = tfind u.dev.ltab k) ∧
      ∀ i < 8, v.testBit i = true → ¬ good i → t.dev.rd ING_LAST_ERR.code = 0x41 ∧ t.dev.eventSet 73 = true

/-- SLICE_FAILURE and SLICE_FORCE_FAIL complete: the slice is failed and reported, and its spare is claimed or missed (R161, R162,
R163, R164, R165, R166 (04_ray_synthesis.md)). For every slice 0 to 99 that runs, SLICE_FAILURE completes; with a cause other than a
corrected error it leaves a slice that had not failed in state failed, its bit of RAY_FAILED set, its port served by no slice,
RAY_LAST_FAULT naming slice and cause and SLICE_FAILED set, with a takeover waiting where the quarter's spare stands by, NO_SPARE
set where it does not, and, of a spare, where it served a port or a takeover was waiting for it, which goes with it; a failed one as
it was. A corrected error counts in RAY_ECC_CORR_CNT and sets its event. SLICE_FORCE_FAIL let through completes the same with cause
5, on a failed slice storing only its number, above slice 99 changing nothing. -/
def Obligations.SliceFails : Prop :=
  let failed := fun (s t : State) (sl cause : Nat) =>
    t.dev.rdBit RAY_FAILED.failed (sl % 32) (sl / 32) = true ∧ t.dev.rd RAY_SLICE_STATUS.port sl = 0x7F ∧
    (s.dev.rd RAY_SLICE_STATUS.port sl < 96 → t.dev.rd RAY_PORT_SLICE.served (s.dev.rd RAY_SLICE_STATUS.port sl) = 0) ∧
    t.dev.rd RAY_LAST_FAULT.slice = sl ∧ t.dev.rd RAY_LAST_FAULT.cause = cause % 2 ^ RAY_LAST_FAULT.cause.w ∧ t.dev.eventSet 96 = true ∧
    (sl % 25 ≠ 24 → s.dev.spareStands (sl / 25) = false → s.dev.rd RAY_SLICE_STATUS.port sl < 96 → t.dev.eventSet 98 = true) ∧
    (sl % 25 = 24 → t.dev.rd (spareFailed (sl / 25)) = 1 ∧ t.dev.rd (spareInUse (sl / 25)) = 0 ∧ t.dev.spareStands (sl / 25) = false ∧
      (∀ w ∈ t.dev.ray.waiting, w.slice / 25 ≠ sl / 25) ∧
      (s.dev.rd RAY_SLICE_STATUS.port sl < 96 ∨ s.dev.ray.takeover.any (fun x => x.1 / 25 == sl / 25) = true → t.dev.eventSet 98 = true))
  (∀ (sl cause : Nat) (ip : Bool) (s : State), sl < 100 → s.dev.sliceRuns sl = true →
    ∃ t, exec (.sliceFailure sl cause ip) s = .next t ∧ SameStores s t ∧
      (cause ≠ 0 → t.dev.sliceState sl = 2) ∧ (cause ≠ 0 → s.dev.sliceState sl = 2 → t = s) ∧
      (cause ≠ 0 → s.dev.sliceState sl ≠ 2 → failed s t sl cause ∧
        (sl % 25 ≠ 24 → s.dev.spareStands (sl / 25) = true → s.dev.rd RAY_SLICE_STATUS.port sl < 96 → s.dev.rd (spareManual (sl / 25)) = 0 →
          s.dev.ray.takeover.any (fun x => x.1 / 25 == sl / 25) = false → t.dev.ray.waiting.any (fun w => w.slice == sl) = true)) ∧
      (cause = 0 → t.dev.eventSet 101 = true ∧ Counted s t RAY_ECC_CORR_CNT.sat RAY_ECC_CORR_CNT.count sl ∧
        RaisedOnly s t [RAY_ECC_CORR_CNT.sat.key sl 0, RAY_ECC_CORR_CNT.count.key sl 0, RAY_EVT_STATUS.status.key 0 0])) ∧
  ∀ (who : Initiator) (v : Nat) (ip : Bool) (s : State),
    let u := settled who (RAY_SPARE_CTRL.ent.at_ 0 0) s
    let sl := v % 128
    Lets u who RAY_SPARE_CTRL.ent 0 0 →
    (99 < sl → exec (.sliceForceFail who v ip) s = .next u) ∧
    (sl < 100 → ∃ t, exec (.sliceForceFail who v ip) s = .next t ∧ SameStores u t ∧ t.dev.sliceState sl = 2 ∧
      (u.dev.sliceState sl ≠ 2 → failed u t sl 5) ∧
      (u.dev.sliceState sl = 2 → v.testBit 31 = false → OnlyCells u t [RAY_SPARE_CTRL.slice.key 0 0]))

/-- A takeover command pledges the quarter's spare; the bellows watermarks are taken where high is above low (R165, R169
(04_ray_synthesis.md), model's choices (log entries 108, 109)). SLICE_TAKEOVER_CMD for a failed slice that is no spare, whose port
nothing serves and whose quarter's spare stands by, without force_fail, leaves a takeover waiting from now for the next admission
point and the spare no longer free; BELLOWS_WM_WRITE stores both watermarks where high exceeds low and is dropped otherwise; nothing
else changes. That the spare ceases to be free at the pledge (log entry 109) and that watermarks outside 1 to 4 and 0 to 3 are
stored (log entry 108) are the model's choices. -/
def Obligations.TakeoverAndBellows : Prop :=
  (∀ (who : Initiator) (v n : Nat) (s : State),
    let u := settled who (RAY_SPARE_CTRL.ent.at_ 0 0) s
    let sl := v % 128
    Lets u who RAY_SPARE_CTRL.ent 0 0 → v.testBit 30 = false → sl < 100 → sl % 25 ≠ 24 → u.dev.sliceState sl = 2 →
    tfind u.dev.ray.takeover sl = some n → u.dev.servedBy n = none → u.dev.spareStands (sl / 25) = true →
    ∃ t, exec (.sliceTakeoverCmd who v) s = .next t ∧ t.dev.spareStands (sl / 25) = false ∧
      CellsKept u t [RAY_SPARE_CTRL.slice.key 0 0, RAY_STATUS.spares_free.key 0 0] ∧
      t = { u with dev := { u.dev with regs := t.dev.regs, ray := { u.dev.ray with waiting := u.dev.ray.waiting ++ [⟨sl, u.dev.ticks⟩] } } }) ∧
  ∀ (who : Initiator) (v : Nat) (s : State),
    let u := settled who (RAY_BELLOWS_WM.ent.at_ 0 0) s
    Lets u who RAY_BELLOWS_WM.ent 0 0 →
    (v / 16 % 8 ≤ v % 8 → exec (.bellowsWmWrite who v) s = .next u) ∧
    (v % 8 < v / 16 % 8 → ∃ t, exec (.bellowsWmWrite who v) s = .next t ∧ OnlyCells u t [RAY_BELLOWS_WM.high.key 0 0, RAY_BELLOWS_WM.low.key 0 0] ∧
      t.dev.rd RAY_BELLOWS_WM.high = v / 16 % 8 ∧ t.dev.rd RAY_BELLOWS_WM.low = v % 8)

/-- A fetched plane row enters the band of every subscriber (R118, R131, R139, R140, R150, R151, R153, R154 (03_scene_stream.md and
04_ray_synthesis.md)). For a stream of the admitted frame's group whose layer is visible, with a subscriber that samples it in this
view row, no subscriber's band full, and components whose bytes the regions let the stream's unit read from working pseudo-channels:
BAND_ROW_FETCH completes, every subscriber that samples the layer holds the row, with the line-store samples of the columns of its
schedule entry as the admitted frame's block rows, or those of its concealment source, decode, and no store, link, job or scan state
changes. -/
def Obligations.BandRowArrives : Prop :=
  ∀ (g i vr : Nat) (row : Int) (e : StreamEnt) (a : Admitted) (l : Layer) (s : State), s.dev.rayRuns = true → s.dev.streamEnt g i = some e →
    e.group = g → (s.dev.ingG g).scan = some a → s.dev.layerAt g e.plane = some l → (∃ n ∈ e.ports, (s.dev.rowEntry n vr l.slot).isSome = true) →
    (∀ n ∈ e.ports, (s.dev.band n e.plane).rows.length < 8) → dimsValid l.fmt l.width l.height = true →
    let y := (clampI row 0 ((l.height : Int) - 1)).toNat
    let cols := neededCols l.width ((e.ports.filterMap (fun n => s.dev.rowEntry n vr l.slot)).map (fun en => (en.colBase, en.colWidth)))
    let src := fun k => compSrc s g ((s.dev.ingG g).rowFrom a l e.plane k (compRow l k y)) k (compRow l k y)
      (if k = 3 then alphaBlocks l cols else neededBlocks l.fmt k cols)
    (∀ k < 4, ∀ r, (r = compRow l k y ∨ k = 3 ∧ r < blockRows l.height) → ∀ a' l', (s.dev.ingG g).rowFrom a l e.plane k r = some (a', l') →
      ReadsReach s.dev e.unit (s.dev.blockSecure 3) (s.dev.compBase g a' l' k) (max (l'.compEnd k - lget l'.comp k 0) (l'.rawBytes k))) →
    ∃ t, exec (.bandRowFetch g i vr row) s = .next t ∧ SameStores s t ∧ t.dev.link = s.dev.link ∧ t.dev.jobs = s.dev.jobs ∧ t.dev.scn = s.dev.scn ∧
      ∀ n ∈ e.ports, ∀ en, s.dev.rowEntry n vr l.slot = some en →
        tfind (t.dev.band n e.plane).rows (bandKey vr row) =
          some ((List.range en.colWidth).map (fun (i : Nat) => (i, lineSample l src (en.colBase + (i : Int)) row)))

/-- Pending transfer sets, dither and palette entries are stored, and a transfer set the image lacks is dropped (R179, R183, R199
(05_composition.md), model's choice (log entry 25)). Where the fabric lets the write through: PENDING_XFER_WRITE and
DITHER_OFF_WRITE store dither_off as written and the pending transfer set where the image has it, else keep it (that the other field
is stored then is the model's choice: log entry 25); PALETTE_WRITE stores both halves of its word of the entry; nothing else
changes. -/
def Obligations.ComposeWrites : Prop :=
  (∀ (who : Initiator) (n v : Nat) (s : State),
    let u := settled who (CMP_PORT_SEL.ent.at_ n 0) s
    Lets u who CMP_PORT_SEL.ent n 0 →
    ∃ t, exec (.pendingXferWrite who n v) s = .next t ∧ exec (.ditherOffWrite who n v) s = .next t ∧
      OnlyCells u t [CMP_PORT_SEL.dither_off.key n 0, CMP_PORT_SEL.pending_xfer.key n 0] ∧
      t.dev.rd CMP_PORT_SEL.dither_off n = b2n (v.testBit 8) ∧
      t.dev.rd CMP_PORT_SEL.pending_xfer n =
        (if v % 8 < u.dev.xferSets (u.dev.portGroup n) then v % 8 else u.dev.rd CMP_PORT_SEL.pending_xfer n)) ∧
  ∀ (who : Initiator) (bank e v : Nat) (s : State),
    (let u := settled who (CMP_OVL_PAL_LO.ent.at_ bank e) s
     Lets u who CMP_OVL_PAL_LO.ent bank e →
     ∃ t, exec (.paletteWrite who bank e false v) s = .next t ∧
      OnlyCells u t [CMP_OVL_PAL_LO.g.key bank e, CMP_OVL_PAL_LO.b.key bank e] ∧
      t.dev.rd CMP_OVL_PAL_LO.g bank e = v / 65536 % 2 ^ CMP_OVL_PAL_LO.g.w ∧ t.dev.rd CMP_OVL_PAL_LO.b bank e = v % 2 ^ CMP_OVL_PAL_LO.b.w) ∧
    (let u := settled who (CMP_OVL_PAL_HI.ent.at_ bank e) s
     Lets u who CMP_OVL_PAL_HI.ent bank e →
     ∃ t, exec (.paletteWrite who bank e true v) s = .next t ∧
      OnlyCells u t [CMP_OVL_PAL_HI.a.key bank e, CMP_OVL_PAL_HI.r.key bank e] ∧
      t.dev.rd CMP_OVL_PAL_HI.a bank e = v / 65536 % 2 ^ CMP_OVL_PAL_HI.a.w ∧ t.dev.rd CMP_OVL_PAL_HI.r bank e = v % 2 ^ CMP_OVL_PAL_HI.r.w)

/-- A map commit starts a check or is refused at once; the check ends with the map pending or rejected (R189, R191, R192
(05_composition.md), R362 (09_memory_arbitration.md), model's choice (log entry 114)). For an active port, where the fabric lets the
write through: MAP_COMMIT of the buffer in force is refused with code 6 (also while a check runs: the model's choice, log entry
114), while a check runs with code 7, and otherwise starts a check of the named buffer; MAP_CHECK_DONE ends the running check, with
the map pending where header and body can be read and pass every test, and with MAP_REJECT and a code that leaves the pending map as
it was otherwise: 8 where the header's or the body's read is denied or fails; by the header, the first that applies (that order is
the model's choice, log entry 114) of 1 for magic, version or a reserved field, 2 for the port, 3 for width, height or a coding
byte, 4 for the sections, the buffer's extent or the map read limit; then 5 where the body's CRC is another. The stores stay as they
are. -/
def Obligations.MapCheck : Prop :=
  (∀ (who : Initiator) (n v : Nat) (s : State),
    let u := settled who (CMP_MAP_CTRL.ent.at_ n 0) s
    Lets u who CMP_MAP_CTRL.ent n 0 → (u.dev.img.port n).isSome = true →
    let held := u.dev.rd CMP_MAP_STATUS.absent n = 0 ∧ u.dev.rd CMP_MAP_STATUS.active_buf n = v % 2
    ∃ t, exec (.mapCommit who n v) s = .next t ∧ SameStores u t ∧
      (held → t.dev.rd CMP_MAP_STATUS.reject n = 6 ∧ t.dev.eventSet 129 = true ∧ t.dev.cmp = u.dev.cmp) ∧
      (¬ held → (tfind u.dev.cmp.checks n).isSome = true →
        t.dev.rd CMP_MAP_STATUS.reject n = 7 ∧ t.dev.eventSet 129 = true ∧ t.dev.cmp = u.dev.cmp) ∧
      (¬ held → tfind u.dev.cmp.checks n = none →
        tfind t.dev.cmp.checks n = some (v % 2) ∧ t.dev.rd CMP_MAP_STATUS.checking n = 1)) ∧
  ∀ (n b : Nat) (s : State), tfind s.dev.cmp.checks n = some b → s.dev.cmpRuns = true →
    let base := (s.dev.mapBuf n b).1
    let hd := readHbmStop s 19 (s.dev.blockSecure 4) base 64
    ∃ t, exec (.mapCheckDone n) s = .next t ∧ SameStores s t ∧ tfind t.dev.cmp.checks n = none ∧ t.dev.rd CMP_MAP_STATUS.checking n = 0 ∧
      let rejected := fun (code : Nat) => t.dev.rd CMP_MAP_STATUS.reject n = code ∧ t.dev.eventSet 129 = true ∧ t.dev.cmp.pend = s.dev.cmp.pend
      let h := hd.2.2
      let o := fun k => beAt h (0x10 + 4 * k) 4
      let stop := 0x40 + beAt h 0x1C 4
      let head := beAt h 0 4 ≠ 0x554D4150 ∨ beAt h 4 2 ≠ 1 ∨ beAt h 7 1 ≠ 0 ∨ beAt h 0x28 24 ≠ 0
      let port := beAt h 6 1 ≠ n
      let shape := beAt h 8 2 ≠ s.dev.lineRays n / 4 ∨ beAt h 10 2 ≠ 4 * s.dev.nActive (s.dev.portGroup n) ∨ beAt h 15 1 ≠ 0 ∨
        ∃ k < 3, bits (beAt h (12 + k) 1) 6 4 ≠ 0
      let place := o 0 < 0x40 ∨ o 1 ≤ o 0 ∨ o 2 ≤ o 1 ∨ stop ≤ o 2 ∨ (s.dev.mapBuf n b).2 < stop ∨
        tget s.dev.img.mem.mapLimit n 0 < beAt h 0x1C 4
      (hd.2.1 = true → rejected 8) ∧
      (hd.2.1 = false → (head → rejected 1) ∧ (¬ head → port → rejected 2) ∧ (¬ head → ¬ port → shape → rejected 3) ∧
        (¬ head → ¬ port → ¬ shape → place → rejected 4) ∧
        (¬ head → ¬ port → ¬ shape → ¬ place →
          let bd := readHbmStop hd.1 19 (s.dev.blockSecure 4) (base + 0x40) (beAt h 0x1C 4)
          (bd.2.1 = true → rejected 8) ∧
          (bd.2.1 = false → crc32 (bd.2.2.map (fun x => x.toNat)) ≠ beAt h 0x20 4 → rejected 5) ∧
          (bd.2.1 = false → crc32 (bd.2.2.map (fun x => x.toNat)) = beAt h 0x20 4 →
            tfind t.dev.cmp.pend n = some (mapDesc b h) ∧ t.dev.rd CMP_MAP_STATUS.pending n = 1)))

/-- A line starts with its marks: commits, admission, swap decision and swap instant; lines are composed and sent (R215, R217, R233
(06_scan_timing.md), R19, R21 (01_architecture.md), R113 (03_scene_stream.md), R223, R226, R227 (06_scan_timing.md), R253 and R255
(07_tile_link.md), R319 (08_tile_control.md), read by inference (log entry 116)). For a running group outside an extension:
LINE_START of a line advances the line counter by 1, sets blanking from line N_active on and raises the line-match events whose
comparator names that line; of line 0, with no time step pending, it sets line 0 and advances the scan frame number by 1, wrapping,
or leaves it where the generator has just started. EXTENSION_END of an extension in progress goes on with line N_total - 9, which
idle starts with where L_swap is the line before it. At line L_guard an armed commit or a staged patch latches the pending mode,
phase, hold, maps and patches; at line N_total - 8 a latched set without patches comes into force, and the group admits the newest
qualifying slot, sends the frame in force again, or under a hold releases the frames that are due. At line L_deadline every port's
hold reasons are those of R319 with R343's wall test, and the SWAP of each UP and LIT port, with its swap bit 1 where it swaps,
leaves, or waits with what waits there and where the lanes are about to idle, its second copy to follow; that ports of a frame
without rays skip as lost (log entry 116) is read by inference. At line L_swap the swap instant is reported. In an active line the
line's rays leave in line packets, one for each segment, and the next line's are composed from its plane-samples. No store changes
but where a patch's maps are placed, and no byte of a map is left to place after a command. -/
def Obligations.LineStarts : Prop :=
  (∀ (g : Nat) (s : State), g < 4 → s.dev.scanRuns g = true → (s.dev.scnG g).ext = false → s.dev.glb.smoulderEntry = false →
    (∀ l, l = s.dev.curLine g + 1 → (s.dev.scnG g).begun = true → (s.dev.scnG g).tail = false → l < 2 ^ 14 → l + 9 < s.dev.nTotal g →
      l ≠ s.dev.lSwap g →
      ∃ t, exec (.lineStart g) s = .next t ∧ SameStores s t ∧ t.dev.curLine g = l ∧
        t.dev.rd SCN_LINE.blanking g = b2n (decide (s.dev.nActive g ≤ l)) ∧ t.dev.rd SCN_FRAME_NUM.frame g = s.dev.rd SCN_FRAME_NUM.frame g ∧
        ∀ m < 4, s.dev.rd SCN_LINE_MATCH.enable g m ≠ 0 → s.dev.rd SCN_LINE_MATCH.line g m = l → t.dev.eventSet (160 + 16 * g + 1 + m) = true) ∧
    (((s.dev.scnG g).begun = false ∨ s.dev.curLine g + 1 = s.dev.lineTotal g) → (s.dev.scnG g).lcDiff = 0 → s.dev.kin.staged = [] →
      s.dev.cmp.placing = [] → 9 < s.dev.nTotal g → s.dev.lGuard g ≠ 0 → s.dev.nActive g ≠ 0 → s.dev.lSwap g ≠ 0 →
      ∃ t, exec (.lineStart g) s = .next t ∧ SameStores s t ∧ t.dev.curLine g = 0 ∧ t.dev.rd SCN_LINE.blanking g = 0 ∧
        (t.dev.scnG g).begun = true ∧ (t.dev.scnG g).k = (s.dev.scnG g).nextK ∧ (t.dev.scnG g).scanning = (s.dev.scnG g).scanNext ∧
        t.dev.rd SCN_FRAME_NUM.frame g =
          (if (s.dev.scnG g).begun = true then (s.dev.rd SCN_FRAME_NUM.frame g + 1) % 2 ^ 32 else s.dev.rd SCN_FRAME_NUM.frame g))) ∧
  (∀ (g : Nat) (s : State), g < 4 → s.dev.scanRuns g = true → (s.dev.scnG g).ext = true →
    ∃ t, exec (.extensionEnd g) s = .next t ∧ (s.dev.glb.smoulderEntry = false → SameStores s t) ∧
      (s.dev.glb.smoulderEntry = false → s.dev.rd SCN_IDLE_CFG.enable g ≠ 0 → idleRoom (s.dev.lineMode g) = true →
        s.dev.lineTotal g - 9 = (s.dev.lineMode g).swap + 1 → s.dev.rd SCN_IDLE_CFG.idle g = 0 → t.dev.rd SCN_IDLE_CFG.idle g = 1) ∧
      (t.dev.scnG g).ext = false ∧ t.dev.rd SCN_LINE.extension g = 0 ∧
      t.dev.rdBit SCN_STATUS.extension g = false ∧ t.dev.curLine g = (s.dev.lineTotal g - 9) % 2 ^ 14) ∧
  (∀ (c : Instr) (s t : State), s.dev.cmp.placing = [] → exec c s = .next t → t.dev.cmp.placing = []) ∧
  ∀ (g l : Nat) (s : State), g < 4 → s.dev.scanRuns g = true → (s.dev.scnG g).ext = false → s.dev.glb.smoulderEntry = false →
    s.dev.cmp.placing = [] → (s.dev.scnG g).begun = true → l = s.dev.curLine g + 1 → l < 2 ^ 13 → (∀ n ∈ s.dev.groupPorts g, n < 96) →
    let x := s.dev.scnG g
    let ports := s.dev.groupPorts g
    let frame := s.dev.rd SCN_FRAME_NUM.frame g
    ∃ t, exec (.lineStart g) s = .next t ∧
    (x.tail = false → l = s.dev.lGuard g → l + 9 < s.dev.nTotal g → l ≠ s.dev.nActive g → l ≠ s.dev.lDeadline g → l ≠ s.dev.lSwap g →
      SameStores s t ∧
      let mine := s.dev.kin.staged.filter (fun p => p.groups.testBit g)
      (s.dev.rd SCN_COMMIT.armed g = 0 → mine = [] → (t.dev.scnG g).latched = x.latched) ∧
      (s.dev.rd SCN_COMMIT.armed g ≠ 0 ∨ mine ≠ [] → t.dev.rd SCN_COMMIT.armed g = 0 ∧ t.dev.rd SCN_COMMIT.late g = 0 ∧
        t.dev.rd SCN_COMMIT.latched g = 1 ∧ t.dev.rd SCN_LATCHED_TARGET.frame g = (frame + 1) % 2 ^ 32 ∧
        ∃ y, (t.dev.scnG g).latched = some y ∧ y.mode = s.dev.rd SCN_MODE.pending_mode g ∧ y.phase = s.dev.rd SCN_PHASE.phase g ∧
          y.hold = s.dev.rd SCN_COMMIT.pending_hold g ∧ y.patches = mine ∧
          y.maps = ports.filter (fun n => (tfind s.dev.cmp.pend n).isSome) ∧
          ∀ n ∈ y.maps, tfind t.dev.cmp.latched n = tfind s.dev.cmp.pend n ∧ tfind t.dev.cmp.pend n = none ∧ t.dev.rd CMP_MAP_STATUS.pending n = 0)) ∧
    (x.tail = true → l + 8 = s.dev.lineTotal g → s.dev.nActive g ≤ l → KeepsRest s t ∧ ((∀ y, x.latched = some y → y.patches = []) → t.hbm = s.hbm) ∧
      (∀ y, x.latched = some y → y.patches = [] → (t.dev.scnG g).latched = none ∧ t.dev.rd SCN_COMMIT.latched g = 0 ∧
        t.dev.rd SCN_COMMIT.active_hold g = y.hold % 2 ∧ (y.mode < 2 ^ SCN_MODE.active_mode.w → t.dev.rd SCN_MODE.active_mode g = y.mode) ∧
        t.dev.rd SCN_PHASE_ACTIVE.phase g = y.phase % 2 ^ 32 ∧ t.dev.eventSet (160 + 16 * g + 7) = true ∧
        ∀ n ∈ y.maps, n < 96 → ∀ m, tfind s.dev.cmp.latched n = some m → tfind t.dev.cmp.force n = some m) ∧
      (x.latched = none → s.dev.kin.noAdmit = false → s.dev.ingRuns = true →
        let limit := s.dev.nextLine0 g + x.lcDiff
        let i := s.dev.ingG g
        let again := s.dev.rd SCN_CFG.started g ≠ 0 ∧ i.scan.isSome = true
        let repeats := (t.dev.ingG g).scan = i.scan ∧ (again → t.dev.rd ING_ADMIT_STATUS.repeat g = 1 ∧ t.dev.eventSet 66 = true ∧
          (t.dev.scnG g).scanNext = true) ∧ (¬ again → (t.dev.scnG g).scanNext = x.scanNext)
        (s.dev.rd SCN_COMMIT.active_hold g ≠ 0 → repeats ∧ (t.dev.ingG g).pending = i.pending.filter (fun p => match p.2.hdr with
          | none => true
          | some h => decide (limit < ((h.pt * 65536 : Nat) : Int)))) ∧
        (s.dev.rd SCN_COMMIT.active_hold g = 0 → i.candidate limit = none → repeats ∧ (t.dev.ingG g).pending = i.pending) ∧
        (s.dev.rd SCN_COMMIT.active_hold g = 0 → ∀ k y h, i.candidate limit = some (k, y, h) →
          (∃ a, (t.dev.ingG g).scan = some a ∧ a.slot = k ∧ a.frame = y.frame ∧ a.hdr.pt = h.pt) ∧ (t.dev.ingG g).source = i.scan ∧
          (t.dev.ingG g).pending = i.pending.filter (fun p => p.1 != k && newer p.2.frame y.frame) ∧ (t.dev.scnG g).scanNext = true ∧
          t.dev.rd ING_ADMIT_FRAME.frame_number g = y.frame % 2 ^ 32 ∧ t.dev.rd ING_ADMIT_STATUS.repeat g = 0 ∧
          t.dev.eventSet 64 = true ∧ t.dev.rd SCN_CFG.started g = 1) ∧
        ∀ n ∈ ports, (s.dev.lnk n).rejoin = true → s.dev.linkUp n = true → s.dev.lit n = true → (t.dev.lnk n).inFrame = true)) ∧
    (x.tail = false → l = s.dev.lDeadline g → l + 9 < s.dev.nTotal g → s.dev.nActive g < l → l ≠ s.dev.lGuard g → l ≠ s.dev.lSwap g →
      s.dev.started g = true → x.black = false →
      let took (n : Nat) : Bool := x.scanning && s.dev.takesPart n
      let good (n : Nat) : Bool := (s.dev.lnk n).csum == some (frame, (s.dev.lnk n).lineCrc ^^^ 0xFFFFFFFF, s.dev.nActive g * s.dev.segments n)
      let base (n : Nat) : Nat := b2n (! took n || (s.dev.lnk n).aborted || x.lost.testBit n) + 2 * b2n (took n && ! good n) +
        4 * b2n (s.dev.rdb SCN_UNDERRUN_CFG.hold g && x.underrunFixed.testBit n) + 8 * b2n (s.dev.rdb TCT_PORT_CTRL.freeze n) +
        16 * b2n (took n && s.dev.powerFails n) + 32 * b2n (took n && s.dev.flashFails n (s.dev.tkl g x.k (s.dev.lSwap g))) +
        128 * b2n (s.dev.rdb FSC_STATUS.hb_expired || s.dev.pstate n == 6)
      let pass := ports.filter (fun n => base n == 0)
      let turned := s.dev.wallTurned (pass.length + 1) pass
      let why (n : Nat) : Nat := base n + 64 * b2n (turned.contains n)
      SameStores s t ∧ (t.dev.scnG g).decided = true ∧ (∀ n ∈ turned, t.dev.eventSet 291 = true) ∧
      ∀ n ∈ ports, t.dev.rd TCT_PORT_HOLD.reasons n = why n ∧
        (t.dev.scnG g).skip.testBit n = ! (why n == 0 && ! s.dev.glb.warned) ∧
        (s.dev.linkUp n = true → s.dev.lit n = true →
          let swap := b2n (why n == 0 && ! s.dev.glb.warned)
          let body := wordBytes [frame, 2 * b2n (s.dev.portBit TLK_MAP_ABSENT.ports n) + swap] ++ timeField (s.dev.tkl g x.k (s.dev.lSwap g))
          (∃ tick seq, let p := packet (headWord 2 n 1 seq) body.length 0 0 body
            (t.dev.lnk n).secondSwap = some (tick, p) ∧
            ((∃ k c, Out.link n k p c ∈ t.dev.out) ∨
              (s.dev.lanesIdle n = true ∨ (s.dev.lnk n).waitPk ≠ [] ∨ s.dev.rd SCN_IDLE_CFG.enable (s.dev.portGroup n) ≠ 0) ∧
              (2, headWord 2 n 1 seq, body.length, body) ∈ (t.dev.lnk n).waitPk)) ∧
          (why n = 0 → s.dev.glb.warned = false → (t.dev.lnk n).lastSwapped = some frame))) ∧
    (x.tail = false → l = s.dev.lSwap g → l + 9 < s.dev.nTotal g → s.dev.nActive g < l → l ≠ s.dev.lGuard g → l ≠ s.dev.lDeadline g →
      x.decided = true → x.black = false → s.dev.rd KIN_RELIGHT.step ≠ 8 →
      SameStores s t ∧ t.dev.curLine g = l ∧ t.dev.rd SCN_DONE_FRAME.frame g = frame % 2 ^ 32 ∧ t.dev.eventSet (160 + 16 * g + 5) = true ∧
      (Out.swap g frame (s.dev.tkl g x.k l).toNat) ∈ t.dev.out ∧
      (∀ n < 96, t.dev.rdBit SCN_HOLD_MASK.ports (n % 32) g (n / 32) = x.skip.testBit n) ∧
      ∀ n ∈ ports, x.skip.testBit n = false → (s.dev.fire n).composed = true → t.dev.rd FSC_PORT_POWER.power n = min (s.dev.fire n).pOut 0xFFFFFFFF) ∧
    (x.tail = false → l + 9 < s.dev.nTotal g → l < s.dev.nActive g → x.scanning = true → l ≠ s.dev.lGuard g → l ≠ s.dev.lDeadline g →
      l ≠ s.dev.lSwap g →
      SameStores s t ∧
      (∀ n ∈ ports, ports.count n = 1 → s.dev.takesPart n = true → s.dev.tlkRuns n = true → (s.dev.lnk n).aborted = false → s.dev.glb.warned = false →
        ∀ rs, (if x.black = true then some (List.replicate (s.dev.lineRays n) 0) else tfind s.dev.cmp.lines (n * 8192 + l)) = some rs →
        let h := 12 * s.dev.segHogels n
        (t.dev.lnk n).lineCrc = (List.range (s.dev.segments n)).foldl (fun c i => crcBytes c (packRays ((rs.drop (h * i)).take h)))
          (s.dev.lnk n).lineCrc ∧ tfind t.dev.cmp.lines (n * 8192 + l) = none ∧
        ∀ i < s.dev.segments n, ∃ k c, Out.link n k (packet (headWord 1 n i (s.dev.segments n)) frame
          (l / s.dev.tileRows n * 2 ^ 28 + l % s.dev.tileRows n * 2 ^ 16 + l) (i * s.dev.segHogels n * 65536 + s.dev.segHogels n)
          (packRays ((rs.drop (h * i)).take h))) c ∈ t.dev.out) ∧
      (l + 1 < s.dev.nActive g → x.black = false → s.dev.cmpRuns = true → ∀ n ∈ ports, ports.count n = 1 →
        ∀ rays, tfind s.dev.ray.computed (n * 8192 + (l + 1)) = some rays →
        let d := s.dev
        let vr := (l + 1) / d.tileRows n
        let j := (l + 1) % d.tileRows n
        let gains := tget d.cmp.gains (n * 8192 + (l + 1)) (unityGains rays.length)
        let ovl := if d.rdb CMP_OVL_CFG.active_en g then tfind d.cmp.ovlLine (n * 8192 + (l + 1)) else none
        let bank := d.rd CMP_OVL_CFG.active_bank g
        tfind t.dev.cmp.lines (n * 8192 + (l + 1)) = some (rays.zipIdx.map (fun p =>
          let w := codedWords (d.colour g) (d.xferSets g) n (ovl.map (fun bs => d.paletteEntry bank (lget bs (p.2 / 12) 0)))
            (lget gains p.2 0x200, lget gains (rays.length + p.2) 0x200, lget gains (2 * rays.length + p.2) 0x200)
            (ditherBase (p.2 / 12) (p.2 % 12) j vr frame (d.rdb CMP_PORT_SEL.dither_off n))
            (sceneColour (d.colour g) (d.convSet g) (d.rd CMP_PORT_SEL.active_xfer n) (d.xferCode g) p.1)
          let v := limitWords (lget ((List.range 4).map (fun q => d.kQuarter n q)) (d.quarterOf n (p.2 / 12) j) 0) (d.ceilings n) w
          rayValue v.r v.g v.b))))

/-- A commit arms for its frame, joins an armed one, or is late; a cancel disarms (R224, R225, R228, R229, R239
(06_scan_timing.md)). Where the fabric lets the write through: COMMIT within the window, with nothing armed, arms for the next scan
frame; with a commit armed it changes only the written pending_hold; past the window it is also late, counted and raised, and with
nothing armed arms for the frame after next; CANCEL, also together with commit, disarms and arms nothing; IDLE_ENABLE_WRITE stores
its bit. Nothing else changes. -/
def Obligations.CommitAndCancel : Prop :=
  (∀ (who : Initiator) (g v : Nat) (s : State), g < 4 → v.testBit 30 = false →
    let u := settled who (SCN_COMMIT.ent.at_ g 0) s
    Lets u who SCN_COMMIT.ent g 0 →
    let f := u.dev.rd SCN_FRAME_NUM.frame g
    let hold := SCN_COMMIT.pending_hold.key g 0
    ∃ t, exec (.commit who g v) s = .next t ∧ t.dev.rd SCN_COMMIT.pending_hold g = b2n (v.testBit 18) ∧
      (u.dev.windowClosed g = false → u.dev.rd SCN_COMMIT.armed g = 0 →
        OnlyCells u t [hold, SCN_COMMIT.armed.key g 0, SCN_ARMED_TARGET.frame.key g 0] ∧ t.dev.rd SCN_COMMIT.armed g = 1 ∧
        t.dev.rd SCN_ARMED_TARGET.frame g = (f + 1) % 2 ^ 32) ∧
      (u.dev.windowClosed g = false → u.dev.rd SCN_COMMIT.armed g ≠ 0 → OnlyCells u t [hold]) ∧
      (u.dev.windowClosed g = true →
        RaisedOnly u t [hold, SCN_COMMIT.armed.key g 0, SCN_ARMED_TARGET.frame.key g 0, SCN_COMMIT.late.key g 0,
          SCN_LATE_COMMIT_CNT.sat.key g 0, SCN_LATE_COMMIT_CNT.count.key g 0, SCN_EVT_STATUS.status.key g 0] ∧
        Counted u t SCN_LATE_COMMIT_CNT.sat SCN_LATE_COMMIT_CNT.count g ∧
        t.dev.rd SCN_COMMIT.late g = 1 ∧ t.dev.eventSet (168 + 16 * g) = true ∧
        (u.dev.rd SCN_COMMIT.armed g = 0 → t.dev.rd SCN_COMMIT.armed g = 1 ∧ t.dev.rd SCN_ARMED_TARGET.frame g = (f + 2) % 2 ^ 32))) ∧
  (∀ (who : Initiator) (g v : Nat) (s : State),
    let u := settled who (SCN_COMMIT.ent.at_ g 0) s
    Lets u who SCN_COMMIT.ent g 0 →
    ∃ t, exec (.cancel who g v) s = .next t ∧
      OnlyCells u t [SCN_COMMIT.pending_hold.key g 0, SCN_COMMIT.armed.key g 0, SCN_COMMIT.late.key g 0] ∧ t.dev.rd SCN_COMMIT.armed g = 0) ∧
  ∀ (who : Initiator) (g v : Nat) (s : State),
    let u := settled who (SCN_IDLE_CFG.ent.at_ g 0) s
    Lets u who SCN_IDLE_CFG.ent g 0 →
    ∃ t, exec (.idleEnableWrite who g v) s = .next t ∧ OnlyCells u t [SCN_IDLE_CFG.enable.key g 0] ∧
      t.dev.rd SCN_IDLE_CFG.enable g = b2n (v.testBit 0)

/-- A port trains from DETECT through its phases, and stops, tests or fails as the link rules say (R259, R260, R261, R263, R265,
R281, R282, R602 (07_tile_link.md), model's choices (log entries 101, 102, 136)). For every port 0 to 95 of a device that is not
halted: TRAIN_WRITE (without down) from DOWN, TRAIN or UP starts training in DETECT without LINK_DOWN; PORT_DOWN_WRITE takes any
port but an OFF one DOWN, held, out of TLK_UP; TEST_START from UP in mode 1 or 2 for 1 to 200 ms starts the test; TRAIN_RETRY of a
port that awaits one trains again; DETECT_DONE enters TS1; a good TRAIN_REPORT with every lane found moves TS1 to TS2, with the
lanes deskewed TS2 to IDENTIFY, and IDENTIFY to TIME, or ends training with the cause of the failed identity check;
TRAIN_PHASE_TIMEOUT ends training DOWN with its phase's cause and TRAIN_FAIL; TEST_END returns to training in TS1, or in DETECT
where a driver found a short (read by inference: log entry 102), with TEST_DONE. That a report shows the lanes deskewed by an
operand is the model's choice (log entry 101), and so is that a training asked for while the reference is lost waits (log entry
136). No store changes. -/
def Obligations.LinkTrains : Prop :=
  (∀ (who : Initiator) (n v : Nat) (s : State),
    let u := settled who (TLK_PORT_CTRL.ent.at_ n 0) s
    Lets u who TLK_PORT_CTRL.ent n 0 →
    (v.testBit 30 = false → u.dev.refLost n = false → u.dev.glb.phase ≠ .halted →
      (u.dev.linkState n = 1 ∨ u.dev.linkState n = 2 ∨ u.dev.linkState n = 3) →
      ∃ t, exec (.trainWrite who n v) s = .next t ∧ SameStores u t ∧ t.dev.linkState n = 2 ∧ t.dev.linkPhase n = 1 ∧
        t.dev.eventSet 225 = u.dev.eventSet 225) ∧
    (u.dev.linkState n ≠ 0 →
      ∃ t, exec (.portDownWrite who n v) s = .next t ∧ SameStores u t ∧ t.dev.linkState n = 1 ∧ t.dev.linkPhase n = 0 ∧
        (t.dev.lnk n).held = true ∧ t.dev.portBit TLK_UP.ports n = false)) ∧
  (∀ (who : Initiator) (n v : Nat) (s : State),
    let u := settled who (TLK_TEST.ent.at_ n 0) s
    Lets u who TLK_TEST.ent n 0 → u.dev.linkUp n = true → (v / 2 ^ 24 % 4 = 1 ∨ v / 2 ^ 24 % 4 = 2) → 1 ≤ v % 2 ^ 24 → v % 2 ^ 24 ≤ 200 →
    ∃ t, exec (.testStart who n v) s = .next t ∧ SameStores u t ∧ t.dev.linkState n = 4 ∧ t.dev.rd TLK_TEST.running n = 1 ∧
      (t.dev.lnk n).testMode = v / 2 ^ 24 % 4 ∧ (t.dev.lnk n).testMs = v % 2 ^ 24) ∧
  (∀ (n : Nat) (s : State), n < 96 → s.dev.tlkRuns n = true →
    (s.dev.linkState n = 1 → (s.dev.lnk n).await = true → s.dev.refLost n = false → s.dev.glb.phase ≠ .halted →
      ∃ t, exec (.trainRetry n) s = .next t ∧ SameStores s t ∧ t.dev.linkState n = 2 ∧ t.dev.linkPhase n = 1 ∧
        (t.dev.lnk n).retries = (s.dev.lnk n).retries + 1) ∧
    (s.dev.linkState n = 2 → s.dev.linkPhase n = 1 →
      ∃ t k c, exec (.detectDone n) s = .next t ∧ SameStores s t ∧ t.dev.linkState n = 2 ∧ t.dev.linkPhase n = 2 ∧
        t.dev.out = .training n k false c :: s.dev.out) ∧
    (s.dev.linkState n = 2 → ∀ o h, ∃ t, exec (.trainPhaseTimeout n o h) s = .next t ∧ SameStores s t ∧ t.dev.linkState n = 1 ∧
      t.dev.linkPhase n = 0 ∧ t.dev.eventSet 226 = true ∧ t.dev.rd TLK_PORT_STATE.cause n = (match s.dev.linkPhase n with
        | 1 => if h ≠ 0 then 4 else 3
        | 2 => if s.dev.rd TLK_LANE_STATUS.bc_locked n ≠ 0 ∧ (s.dev.lnk n).sawReport = true then 2 else 1
        | 3 => 8
        | _ => 9)) ∧
    (s.dev.linkState n = 4 → s.dev.glb.phase ≠ .halted → s.dev.refLost n = false → ∀ k, ∃ t, exec (.testEnd n k) s = .next t ∧ SameStores s t ∧ t.dev.linkState n = 2 ∧
      t.dev.linkPhase n = (if (List.range 4).any (fun p => s.dev.rdb (laneShort p) n) = true then 1 else 2) ∧
      t.dev.rd TLK_TEST.running n = 0 ∧ t.dev.eventSet 233 = true)) ∧
  ∀ (n sl : Nat) (dk : Bool) (rx w : List Nat) (s : State), n < 96 → s.dev.tlkRuns n = true → s.dev.linkState n = 2 →
    s.dev.bcWords n 8 (fun l => l == 20) rx sl = some w →
    ∃ t, exec (.trainReport n rx sl dk) s = .next t ∧ SameStores s t ∧
      (s.dev.linkPhase n = 2 → (bits (lget w 0 0) 15 12).testBit (s.dev.rateCode n) = true →
        (∀ r < 4, bit (recvBits (lget w 0 0) r) 3 = true) → t.dev.linkPhase n = 3 ∧ t.dev.linkState n = 2) ∧
      (s.dev.linkPhase n = 3 → dk = true → (∀ r < 4, recvBits (lget w 0 0) r = 8 + r) → t.dev.linkPhase n = 4 ∧ t.dev.linkState n = 2) ∧
      (s.dev.linkPhase n = 4 → s.dev.identifyCause n w = 0 → t.dev.linkPhase n = 5 ∧ (t.dev.lnk n).exch.isSome = true) ∧
      (s.dev.linkPhase n = 4 → s.dev.identifyCause n w ≠ 0 → t.dev.linkState n = 1 ∧ t.dev.eventSet 226 = true ∧
        t.dev.rd TLK_PORT_STATE.cause n = s.dev.identifyCause n w)

/-- Back-channel packets are taken by type, or dropped and counted (R257, R258, R271, R276, R277, R297, R313 (07_tile_link.md and
08_tile_control.md), model's choices (log entries 65 and 98)). For every port 0 to 95 whose link runs, with what its back-channel
receiver makes of the code groups that came in: a packet of any of the five types that fails its checks only counts in
TLK_BC_ERR_CNT; STATUS of a port in UP with all lanes locked sets its lit flag and keeps it UP, and with a lane lost takes it from
UP with LINK_DOWN; CHECKSUM is held for the deadline and changes nothing else but the port's link engine; TELEMETRY sets the hottest
temperature and is noted; the ECHO of the open exchange within 10 microseconds of its TSY and with a round trip of 0 to 100
microseconds sets the forward delay and sends TIME, which waits behind packets that wait and where it would not end before the lanes
idle, and a later one, another round trip or ECHO_TIMEOUT discards it, with TIME_FAULT at every 16th in a row (read by inference:
log entry 65). The rows' operands, the code groups since the port's last command, are the model's choice (log entry 98). -/
def Obligations.LinkPacketsArrive : Prop :=
  ∀ (n sl : Nat) (rx : List Nat) (ci : StatusCircs) (dk : Bool) (t4 : Int) (s : State), n < 96 → s.dev.tlkRuns n = true →
    let bad := onDev s (fun d => (d.bcReceived n rx sl).count TLK_BC_ERR_CNT.sat TLK_BC_ERR_CNT.count 1 n)
    (s.dev.bcWords n 8 (fun l => l == 20) rx sl = none → exec (.trainReport n rx sl dk) s = .next bad) ∧
    (s.dev.bcWords n 12 (fun l => l == 8) rx sl = none → exec (.echoReceive n rx sl t4) s = .next bad) ∧
    (s.dev.bcWords n 9 (fun l => l == 16) rx sl = none → exec (.statusReceive n rx sl ci) s = .next bad) ∧
    (s.dev.bcWords n 10 (fun l => l == 12) rx sl = none → exec (.checksumReceive n rx sl) s = .next bad) ∧
    (s.dev.bcWords n 11 (fun l => l == 16) rx sl = none → exec (.telemetryReceive n rx sl) s = .next bad) ∧
    (∀ w, s.dev.bcWords n 9 (fun l => l == 16) rx sl = some w → s.dev.linkUp n = true →
      ∃ t, exec (.statusReceive n rx sl ci) s = .next t ∧ SameStores s t ∧
      t.dev.rd TLK_PORT_STATE.lit n = b2n ((lget w 2 0).testBit 0) ∧ (lget w 2 0 / 2 ^ 16 ≠ 0 → t.dev.eventSet 230 = true) ∧
      (bits (lget w 2 0) 7 4 = 15 → t.dev.linkUp n = true) ∧
      (bits (lget w 2 0) 7 4 ≠ 15 → t.dev.linkUp n = false ∧ t.dev.eventSet 225 = true ∧ t.dev.rd TLK_PORT_STATE.cause n = 0x11)) ∧
    (∀ w, s.dev.bcWords n 10 (fun l => l == 12) rx sl = some w → ∃ t, exec (.checksumReceive n rx sl) s = .next t ∧
      t = { s with dev := { s.dev with regs := t.dev.regs, link := t.dev.link } } ∧
      CellsKept s t [TLK_LANE_STATUS.bc_inverted.key n 0] ∧ (t.dev.lnk n).csum = some (lget w 0 0, lget w 1 0, lget w 2 0) ∧
      ∀ m, m ≠ n → t.dev.lnk m = s.dev.lnk m) ∧
    (∀ w, s.dev.bcWords n 11 (fun l => l == 16) rx sl = some w →
      ∃ t, exec (.telemetryReceive n rx sl) s = .next t ∧ SameStores s t ∧ (t.dev.ctl n).telem = true ∧
      let temp := max (max (toS 16 (lget w 0 0 / 65536)) (toS 16 (lget w 0 0))) (max (toS 16 (lget w 1 0 / 65536)) (toS 16 (lget w 1 0)))
      t.dev.rd TCT_PORT_TEMP.hottest n = ofS 16 temp ∧ (s.dev.shutdownTemp n ≤ temp → t.dev.eventSet 267 = true)) ∧
    (∀ w e, s.dev.bcWords n 12 (fun l => l == 8) rx sl = some w → s.dev.linkUp n = true → s.dev.lanesIdle n = false →
      (s.dev.lnk n).exch = some e → e.num = lget w 0 0 / 2 ^ 24 →
      let r := exchangeDelay e.t1 t4 (lget w 1 0) e.asym
      ∃ t, exec (.echoReceive n rx sl t4) s = .next t ∧ SameStores s t ∧ (t.dev.lnk n).exch = none ∧
        (s.dev.ticks ≤ e.tick + usTicks 10 → 0 ≤ r.2 → r.2 ≤ fuNs 100000 →
          t.dev.rd TLK_FWD_DELAY.fwd_ps n = ofS 32 (sarI (r.1 * 1000 + 32768) 16) ∧ (t.dev.lnk n).misses = 0 ∧
          let h := headWord 3 n 0 (s.dev.linkSeq n 3)
          let w1 := e.num * 2 ^ 24 + b2n e.step
          let p := packet h w1 0 0 (timeField (e.t1 + r.1))
          p.length = 32 ∧ (if (s.dev.lnk n).waitPk = [] ∧ s.dev.endsBeforeIdle n p = true then ∃ k c, t.dev.out = .link n k p c :: s.dev.out
            else t.dev.out = s.dev.out ∧ (t.dev.lnk n).waitPk = (s.dev.lnk n).waitPk ++ [(3, h, w1, timeField (e.t1 + r.1))])) ∧
        (e.tick + usTicks 10 < s.dev.ticks ∨ r.2 < 0 ∨ fuNs 100000 < r.2 → (t.dev.lnk n).misses = (s.dev.lnk n).misses + 1 ∧
          (((s.dev.lnk n).misses + 1) % 16 = 0 → t.dev.eventSet 231 = true))) ∧
    (∀ e, s.dev.linkUp n = true → (s.dev.lnk n).exch = some e → ∃ t, exec (.echoTimeout n) s = .next t ∧ SameStores s t ∧
      e.tick + usTicks 10 ≤ t.dev.ticks ∧ (t.dev.lnk n).exch = none ∧ (t.dev.lnk n).misses = (s.dev.lnk n).misses + 1 ∧
      (((s.dev.lnk n).misses + 1) % 16 = 0 → t.dev.eventSet 231 = true))

/-- A link fault takes the port from UP; timers send its keep-alive and the second copy of its swap (R251, R255, R256, R266, R267,
R269, R271 (07_tile_link.md), model's choice (log entry 159)). For every port 0 to 95 that is UP: BC_LOCK_LOST, BC_SILENT and
LANE_MONITOR_FAULT leave it training where auto_retrain is set, the device is not halted and its reference is present, and DOWN
otherwise, out of the scan, with LINK_DOWN and the fault's cause; KEEPALIVE_TIMER on lanes that are not idle sends one 24-byte
packet, or, where it would not end before they idle, nothing (the model's choice: log entry 159); SWAP_SECOND_COPY sends the copy
that waits on lanes that are not idle, once, at least 2 microseconds after the first, and changes nothing but the port's link engine
and the time. No store changes. -/
def Obligations.LinkFaultsAndTimers : Prop :=
  (∀ (n : Nat) (s : State), n < 96 → s.dev.tlkRuns n = true → s.dev.linkUp n = true →
    let fell (t : State) (cause : Nat) : Prop := SameStores s t ∧
      t.dev.linkState n = (if s.dev.rd TLK_PORT_CTRL.auto_retrain n ≠ 0 ∧ s.dev.glb.phase ≠ .halted ∧ s.dev.refLost n = false then 2 else 1) ∧
      (t.dev.lnk n).inFrame = false ∧ t.dev.portBit TLK_UP.ports n = false ∧ t.dev.eventSet 225 = true ∧ t.dev.rd TLK_PORT_STATE.cause n = cause
    (∀ ip, ∃ t, exec (.bcLockLost n ip) s = .next t ∧ fell t 0x10) ∧ (∀ ip, ∃ t, exec (.bcSilent n ip) s = .next t ∧ fell t 0x12) ∧
    (∀ l short ip, ∃ t, exec (.laneMonitorFault n l short ip) s = .next t ∧ fell t (if short = true then 4 else 3) ∧ t.dev.eventSet 227 = true) ∧
    (s.dev.lanesIdle n = false →
      let d := s.dev.waitTick ((s.dev.lnk n).lastLine + msTicks (if s.dev.started (s.dev.portGroup n) then 20 else 10))
      let p := packet (headWord 2 n 2 (s.dev.linkSeq n 2)) 4 0 0 (wordBytes [s.dev.keepaliveFrame n])
      ∃ t, exec (.keepaliveTimer n) s = .next t ∧ SameStores s t ∧ p.length = 24 ∧ (d.endsBeforeIdle n p = false → t.dev = d) ∧
        (d.endsBeforeIdle n p = true → (∃ k c, t.dev.out = .link n k p c :: s.dev.out) ∧ (t.dev.lnk n).lastLine = t.dev.ticks))) ∧
  ∀ (n t0 : Nat) (b : List Byte) (s : State), (s.dev.lnk n).secondSwap = some (t0, b) → s.dev.lanesIdle n = false →
    ∃ t k c, exec (.swapSecondCopy n) s = .next t ∧ t.dev.out = .link n k b c :: s.dev.out ∧ (t.dev.lnk n).secondSwap = none ∧
      t0 + 500 ≤ t.dev.ticks ∧ (t.dev.lnk n).lastCtl = t.dev.ticks ∧ SameStores s t ∧ (∀ m, m ≠ n → t.dev.lnk m = s.dev.lnk m) ∧
      t.dev = { s.dev with ticks := t.dev.ticks, net := { s.dev.net with tbs := t.dev.net.tbs }, link := t.dev.link, out := t.dev.out,
                           free := s.dev.free + 1 }

/-- What a tile-link command may reach (R240, R251, R267, R302, R307, R309 (07_tile_link.md and 08_tile_control.md)). DETECT_DONE,
TRAIN_REPORT, TRAIN_PHASE_TIMEOUT, TRAIN_RETRY, ECHO_RECEIVE, ECHO_TIMEOUT, STATUS_RECEIVE, CHECKSUM_RECEIVE, TELEMETRY_RECEIVE,
BC_LOCK_LOST, BC_SILENT, LANE_MONITOR_FAULT, KEEPALIVE_TIMER and TEST_END of a port 0 to 95 change no store, no register outside
KIN, TLK, TCT and the recorder, and nothing of ingest, rays, composition, firescreen, memory, arbiters, security or the image. Every
job that is no engine 0x53 job of the port, and shares its in-flight entry with none, is as it was. Of the generators only frames of
the port become lost; of the stokers only claim queues, waiting events and the state of a sleeping one change; of the network only
time passes on its time bases; of the kiln only the memory of a boundary that has ended goes. -/
def Obligations.LinkRowsFrame : Prop :=
  ∀ (c : Instr) (n : Nat) (s t : State), n < 96 →
    ((∃ rx sl b, c = .trainReport n rx sl b ∨ c = .checksumReceive n rx sl ∨ c = .telemetryReceive n rx sl) ∨
      (∃ rx sl i, c = .statusReceive n rx sl i) ∨ (∃ rx sl i, c = .echoReceive n rx sl i) ∨ (∃ i, c = .bcLockLost n i ∨ c = .bcSilent n i) ∨
      (∃ l h i, c = .laneMonitorFault n l h i) ∨ (∃ o h, c = .trainPhaseTimeout n o h) ∨ (∃ k, c = .testEnd n k) ∨
      c ∈ [.detectDone n, .trainRetry n, .echoTimeout n, .keepaliveTimer n]) →
    exec c s = .next t → SameStores s t ∧ BlocksKept s t [1, 6, 7, 15] ∧
      t.dev.img = s.dev.img ∧ t.dev.posted = s.dev.posted ∧ t.dev.latch = s.dev.latch ∧ t.dev.peat = s.dev.peat ∧
      t.dev.kln = { s.dev.kln with moved := t.dev.kln.moved } ∧ (∀ k ∈ t.dev.kln.moved, k ∈ s.dev.kln.moved) ∧
      t.dev.sec = s.dev.sec ∧ t.dev.glb = s.dev.glb ∧ t.dev.ing = s.dev.ing ∧ t.dev.ltab = s.dev.ltab ∧ t.dev.ray = s.dev.ray ∧
      t.dev.cmp = s.dev.cmp ∧ t.dev.fsc = s.dev.fsc ∧ t.dev.arb = s.dev.arb ∧ t.dev.pch = s.dev.pch ∧
      t.dev.jobs.nextOrder = s.dev.jobs.nextOrder ∧ t.dev.jobs.turn = s.dev.jobs.turn ∧
      (∀ r, (t.dev.jobsOf r).length = (s.dev.jobsOf r).length) ∧
      (∀ (r i : Nat) (j : Job), (s.dev.jobsOf r)[i]? = some j → ¬ (j.engine = 0x53 ∧ j.pPort = n) →
        (∀ k ∈ s.dev.engineJobs 0x53, k.ring = r → k.slot = j.slot → k = j) → (t.dev.jobsOf r)[i]? = some j) ∧
      (∀ g, t.dev.scnG g = { s.dev.scnG g with lost := (t.dev.scnG g).lost } ∧ (g ≠ s.dev.portGroup n → t.dev.scnG g = s.dev.scnG g) ∧
        ∀ m, m ≠ n → (t.dev.scnG g).lost.testBit m = (s.dev.scnG g).lost.testBit m) ∧
      t.dev.stk = { s.dev.stk with cores := t.dev.stk.cores } ∧ (∀ c, t.dev.core c = { s.dev.core c with
        claim := (t.dev.core c).claim, overflow := (t.dev.core c).overflow, waiting := (t.dev.core c).waiting, run := (t.dev.core c).run }) ∧
      t.dev.net = { s.dev.net with tbs := t.dev.net.tbs } ∧
      ∀ m, m ≠ n → m < 96 → t.dev.linkState m = s.dev.linkState m

/-- Faults of a management bus show in its status and raise their event (R304 (08_tile_control.md)). For every bus 0 to 11 while
tile control runs: BUS_AB_SWAP sets inverted and its event; BUS_SHORT and BUS_OPEN set their flag, the bus's bus_fault bit and the
event; BUS_RETRY of a short that has gone, and BUS_BIAS_RESTORED, clear their flag and leave bus_fault as the other flag says;
BUS_RETRY of a short that stands raises the event again; nothing else of the state changes. -/
def Obligations.BusFaults : Prop :=
  ∀ (m : Nat) (s : State), m < 12 → s.dev.tctRuns = true →
    let ev := TCT_EVT_STATUS.status.key 0 0
    let flt := TCT_STATUS.bus_fault.key 0 0
    (∃ t, exec (.busAbSwap m) s = .next t ∧ RaisedOnly s t [TCT_BUS_STATUS.inverted.key m 0, ev] ∧
      t.dev.rd TCT_BUS_STATUS.inverted m = 1 ∧ t.dev.eventSet 260 = true) ∧
    (∃ t, exec (.busShort m) s = .next t ∧ RaisedOnly s t [TCT_BUS_STATUS.short.key m 0, flt, ev] ∧
      t.dev.rd TCT_BUS_STATUS.short m = 1 ∧ t.dev.rdBit TCT_STATUS.bus_fault m = true ∧ t.dev.eventSet 259 = true) ∧
    (∃ t, exec (.busOpen m) s = .next t ∧ RaisedOnly s t [TCT_BUS_STATUS.open.key m 0, flt, ev] ∧
      t.dev.rd TCT_BUS_STATUS.open m = 1 ∧ t.dev.rdBit TCT_STATUS.bus_fault m = true ∧ t.dev.eventSet 259 = true) ∧
    (s.dev.rd TCT_BUS_STATUS.short m ≠ 0 →
      (∃ t, exec (.busRetry m false) s = .next t ∧ OnlyCells s t [TCT_BUS_STATUS.short.key m 0, flt] ∧
        t.dev.rd TCT_BUS_STATUS.short m = 0 ∧ t.dev.rdBit TCT_STATUS.bus_fault m = decide (s.dev.rd TCT_BUS_STATUS.open m ≠ 0)) ∧
      ∃ t, exec (.busRetry m true) s = .next t ∧ RaisedOnly s t [ev] ∧ t.dev.eventSet 259 = true) ∧
    ∃ t, exec (.busBiasRestored m) s = .next t ∧ OnlyCells s t [TCT_BUS_STATUS.open.key m 0, flt] ∧
      t.dev.rd TCT_BUS_STATUS.open m = 0 ∧ t.dev.rdBit TCT_STATUS.bus_fault m = decide (s.dev.rd TCT_BUS_STATUS.short m ≠ 0)

/-- Polls and discovery leave as request frames; a lost or bad reply is retried; a good one ends its exchange (R299, R300, R301,
R305, R306 (08_tile_control.md), R569 (15_reset_power_faults.md), read by inference (log entry 66), model's choice (log entry 163)).
While tile control runs: STATUS_POLL of a found tile, BIAS_POLL in step 1 and DISCHARGE_POLL of a discharge send the same STATUS
frame on the idle bus of a port that is not UP, and leave it open; RESCAN opens an IDENTIFY to address 1 on every idle bus with the
other seven waiting; MGMT_REPLY_TIMEOUT of a request tried less than three times whose tile is still reached by the bus sends its
frame again, and a reply that answers nothing, by its address, command, sequence number or CRC, acts alike (of the first three this
is read by inference: log entry 66); a good STATUS reply outside power-up and discharge closes the exchange and sets the tile's
temperature. In smoulder, where tile control does not run, STATUS_POLL and its reply do the same. No store changes. -/
def Obligations.ManagementExchanges : Prop :=
  (∀ (n : Nat) (c : PortCfg) (s : State), s.dev.tctRuns = true ∨ s.dev.polling = true → s.dev.img.port n = some c → s.dev.portAt c.bus c.addr = some n →
    s.dev.linkUp n = false → (s.dev.busS c.bus).open_ = none → c.bus < 12 → c.addr ≠ 0 →
    let q := (s.dev.busS c.bus).seq
    let r : MgmtReq := ⟨c.addr, 2, q, some n, [], 1, false⟩
    ∃ t, t = onDev s (fun d => (d.emit (.mgmt c.bus (mgmtFrame c.addr 2 q []))).setBus c.bus
        { d.busS c.bus with seq := (q + 1) % 256, open_ := some r }) ∧
      ((s.dev.ctl n).found = true → exec (.statusPoll n) s = .next t) ∧
      (s.dev.tctRuns = true → (s.dev.ctl n).step = 1 → exec (.biasPoll n) s = .next t) ∧
      (s.dev.tctRuns = true → (s.dev.ctl n).discharge ≠ 0 → exec (.dischargePoll n) s = .next t)) ∧
  (∀ (who : Initiator) (v : Nat) (s : State), v.testBit 0 = false →
    let u := settled who (TCT_CTRL.ent.at_ 0 0) s
    Lets u who TCT_CTRL.ent 0 0 → (∀ p ∈ u.dev.img.geo.ports, u.dev.linkUp p.1 = false) →
    ∃ t, exec (.rescan who v) s = .next t ∧ SameStores u t ∧ t.dev.regs = u.dev.regs ∧
      ∀ m < 12, (u.dev.busS m).open_ = none → (u.dev.busS m).waiting = [] →
        ∃ r, (t.dev.busS m).open_ = some r ∧ r.cmd = 1 ∧ r.addr = 1 ∧ (t.dev.busS m).waiting.map (fun x => (x.cmd, x.addr)) =
          [(1, 2), (1, 3), (1, 4), (1, 5), (1, 6), (1, 7), (1, 8)]) ∧
  ∀ (m sl : Nat) (r : MgmtReq) (rx : List Nat) (s : State), m < 12 → s.dev.tctRuns = true ∨ s.dev.polling = true → (s.dev.busS m).open_ = some r →
    let b : List Byte := rx.map (fun x => BitVec.ofNat 8 x)
    (replyPayload r b = none → exec (.mgmtReply m rx sl) s = exec (.mgmtReplyTimeout m) s) ∧
    (r.tries < 3 → r.addr ≠ 0 → s.dev.mgmtChannel m r = m → ∃ t, exec (.mgmtReplyTimeout m) s = .next t ∧ SameStores s t ∧
      t.dev.out = .mgmt m (mgmtFrame r.addr r.cmd r.seq r.payload) :: s.dev.out ∧
      (t.dev.busS m).open_ = some { r with tries := r.tries + 1, tunnel := false } ∧
      CellsKept s t [TCT_MGMT_ERR_CNT.sat.key m 0, TCT_MGMT_ERR_CNT.count.key m 0]) ∧
    ∀ n p, replyPayload r b = some p → r.cmd = 2 → r.port = some n → beAt p 0 1 = 0 → (s.dev.busS m).waiting = [] →
      s.dev.polling = true ∨ (s.dev.ctl n).step ≠ 1 ∧ (s.dev.ctl n).discharge = 0 →
      ∃ t, exec (.mgmtReply m rx sl) s = .next t ∧ (t.dev.busS m).open_ = none ∧ (t.dev.ctl n).temp = beAt p 2 2 ∧ (t.dev.ctl n).polls = 0 ∧
        t = { s with dev := { s.dev with bus := t.dev.bus, tct := t.dev.tct } }

/-- Power-up, power-down and freeze of a port (R304, R307, R309, R317, R322, R528 (08_tile_control.md, R528 of 13_security.md),
model's choices (log entry 144)). For a port the image defines, on a device that is not halted where it is powered up, where the
fabric lets the write through: POWER_UP (without power_down) of a port in OFF, DARK or FAULT that is not disabled leaves it powering
up in step 1 with its discharge ended, or in FAULT with cause 5, 4 or 1 for a mismatched tile, a hot tile or a bus fault; POWER_DOWN
of a port not in OFF and not discharging leaves it discharging, and of one already discharging makes that discharge the power-
down's. That 5 goes before 4 and 4 before 1 where several hold, and what becomes of a running discharge, are the model's choices
(log entry 144). FREEZE_WRITE stores its bit and nothing else; POWER_UP_TIMEOUT ends a power-up in FAULT with its step's cause;
DISCHARGE_TIMEOUT ends the discharge, in OFF after a power-down that no relight met and in DARK otherwise, with its event; WALL_UP
in the secure world reports the supervisor ready and powers up every port that may. No store changes. -/
def Obligations.PortPowerStates : Prop :=
  (∀ (who : Initiator) (n v : Nat) (c : PortCfg) (s : State),
    let u := settled who (TCT_PORT_CTRL.ent.at_ n 0) s
    Lets u who TCT_PORT_CTRL.ent n 0 → u.dev.img.port n = some c →
    let x := u.dev.ctl n
    (v.testBit 30 = false → u.dev.portDisabled n = false → u.dev.glb.phase ≠ .halted → (u.dev.pstate n = 0 ∨ u.dev.pstate n = 1 ∨ u.dev.pstate n = 7) →
      ∃ t, exec (.powerUp who n v) s = .next t ∧ SameStores u t ∧ t.dev.rd TCT_PORT_CTRL.freeze n = b2n (v.testBit 0) ∧
        (x.mismatch = false → x.hot = false → u.dev.rdBit TCT_STATUS.bus_fault c.bus = false →
          t.dev.pstate n = 2 ∧ (t.dev.ctl n).step = 1 ∧ (t.dev.ctl n).discharge = 0) ∧
        (x.mismatch = true → t.dev.pstate n = 7 ∧ t.dev.rd TCT_PORT_STATE.cause n = 5 ∧ t.dev.eventSet 262 = true) ∧
        (x.mismatch = false → x.hot = true → t.dev.pstate n = 7 ∧ t.dev.rd TCT_PORT_STATE.cause n = 4 ∧ t.dev.eventSet 262 = true) ∧
        (x.mismatch = false → x.hot = false → u.dev.rdBit TCT_STATUS.bus_fault c.bus = true →
          t.dev.pstate n = 7 ∧ t.dev.rd TCT_PORT_STATE.cause n = 1 ∧ t.dev.eventSet 262 = true)) ∧
    (u.dev.pstate n ≠ 0 → u.dev.pstate n ≠ 4 →
      ∃ t, exec (.powerDown who n v) s = .next t ∧ SameStores u t ∧ t.dev.pstate n = 4 ∧ (t.dev.ctl n).discharge = 1) ∧
    (u.dev.pstate n = 4 → ∃ t, exec (.powerDown who n v) s = .next t ∧ SameStores u t ∧ t.dev.pstate n = 4 ∧
      (t.dev.ctl n).discharge = (if x.discharge = 3 ∨ x.discharge = 5 then 5 else 1) ∧ (t.dev.ctl n).relightBias = false) ∧
    (v.testBit 30 = false → v.testBit 31 = false →
      ∃ t, exec (.freezeWrite who n v) s = .next t ∧ OnlyCells u t [TCT_PORT_CTRL.freeze.key n 0] ∧
        t.dev.rd TCT_PORT_CTRL.freeze n = b2n (v.testBit 0))) ∧
  (∀ (n : Nat) (s : State), n < 96 → s.dev.tctRuns = true →
    ((s.dev.ctl n).step ≠ 0 → ∃ t, exec (.powerUpTimeout n) s = .next t ∧ SameStores s t ∧ t.dev.pstate n = 7 ∧ (t.dev.ctl n).step = 0 ∧
      t.dev.eventSet 262 = true ∧ t.dev.rd TCT_PORT_STATE.cause n = min (s.dev.ctl n).step 3) ∧
    ((s.dev.ctl n).discharge ≠ 0 → ∃ t, exec (.dischargeTimeout n) s = .next t ∧ SameStores s t ∧ (t.dev.ctl n).discharge = 0 ∧
      t.dev.eventSet 263 = true ∧ t.dev.pstate n =
        (if ((s.dev.ctl n).discharge = 1 ∨ (s.dev.ctl n).discharge = 5) ∧ (s.dev.ctl n).relightBias = false then 0 else 1))) ∧
  ∀ (who : Initiator) (v : Nat) (s : State),
    let u := settled who (TCT_CTRL.ent.at_ 0 0) s
    Lets u who TCT_CTRL.ent 0 0 → u.dev.secureOf who = true → u.dev.glb.phase ≠ .halted → (∀ m ∈ u.dev.img.activePorts, m < 96) →
    ∃ t, exec (.wallUp who v) s = .next t ∧ SameStores u t ∧ t.dev.kin.supReady = true ∧
      ∀ n ∈ u.dev.img.activePorts, ∀ c, u.dev.img.port n = some c → u.dev.portDisabled n = false →
        (u.dev.pstate n = 0 ∨ u.dev.pstate n = 1 ∨ u.dev.pstate n = 5 ∨ u.dev.pstate n = 7) → (u.dev.ctl n).mismatch = false →
        (u.dev.ctl n).hot = false → u.dev.rdBit TCT_STATUS.bus_fault c.bus = false → t.dev.pstate n = 2

/-- A partial-write job starts, is refused or stopped, sends, is held and resumes (R323, R324, R326, R327, R329
(08_tile_control.md), read by inference (log entry 48)). For a ring's next tile-control job while the engine runs and no earlier job
of its port stands in its way: PARTIAL_WRITE_JOB leaves it RUNNING, or finished with status 4 for a region outside its tile, or with
the status of its port's state; PARTIAL_WRITE_PACKET of a running job stops it with the port's status, with 5 where the rays cannot
be read, or with 3 where they would take the port or the wall above its power ceiling, holds it where a quarter has no room, or
sends a packet, which waits behind packets that wait and where it would not end before the lanes idle; PARTIAL_WRITE_RESUME lets a
held job go on once its next packet fits. That a packet has the row's next 16 hogels, or its rest, and is held whole is read by
inference (log entry 48). No store changes. -/
def Obligations.PartialWrites : Prop :=
  (∀ (r : Nat) (j : Job) (s : State), s.dev.nextToStart r = some j → j.ring = r → j.engine = 0x53 → s.dev.engineOn 0x53 = true →
    s.dev.pwWaits j = false →
    ∃ t, exec (.partialWriteJob r) s = .next t ∧ t = { s with dev := { s.dev with jobs := t.dev.jobs } } ∧
      ((s.dev.img.port j.pPort).isSome = true → s.dev.regionOk j = false →
        (t.dev.jobAt r j.slot).map (fun k => (k.finished, k.progress)) = some (true, j.pProgress 4)) ∧
      (s.dev.regionOk j = true → s.dev.pwPortStop j.pPort ≠ 0 →
        (t.dev.jobAt r j.slot).map (fun k => (k.finished, k.progress)) = some (true, j.pProgress (s.dev.pwPortStop j.pPort))) ∧
      (s.dev.regionOk j = true → s.dev.pwPortStop j.pPort = 0 → t.dev.jobAt r j.slot = some { j with state := 2 })) ∧
  ∀ (r slot : Nat) (j : Job) (s : State), s.dev.pwJob r slot = some j → j.ring = r →
    let n := j.pPort
    let hogels := min 16 (j.pWidth - j.col)
    let rd := readHbm s 23 (s.dev.ringSecure j.ring) (j.pSource + j.units * j.pPitch + j.col * 48) (48 * hogels)
    let rays := rd.1.dev.pwRays j j.col hogels (leWords (12 * hogels) rd.2.2)
    (j.held = true → s.dev.pwFits n (s.dev.pwRays j j.col hogels []) = true →
      ∃ t, exec (.partialWriteResume r slot) s = .next t ∧ t.dev.jobAt r slot = some { j with held := false } ∧
        t = { s with dev := { s.dev with jobs := t.dev.jobs } }) ∧
    ∃ t, exec (.partialWritePacket r slot) s = .next t ∧ SameStores s t ∧
      (s.dev.pwPortStop n ≠ 0 → (t.dev.jobAt r slot).map (fun k => (k.finished, k.progress)) = some (true, j.pProgress (s.dev.pwPortStop n))) ∧
      (s.dev.pwPortStop n = 0 → j.held = false → s.dev.pwRoom n = true →
        (rd.2.1 = true → (t.dev.jobAt r slot).map (fun k => (k.finished, k.progress)) = some (true, j.pProgress 5)) ∧
        (rd.2.1 = false → rd.1.dev.pwFits n rays = false → t.dev.jobAt r slot = some { j with held := true }) ∧
        (rd.2.1 = false → rd.1.dev.pwFits n rays = true → rd.1.dev.pwOverPower n (addSums (rd.1.dev.ctl n).pwSums rays) = true →
          (t.dev.jobAt r slot).map (fun k => (k.finished, k.progress)) = some (true, j.pProgress 3)) ∧
        (rd.2.1 = false → rd.1.dev.pwFits n rays = true → rd.1.dev.pwOverPower n (addSums (rd.1.dev.ctl n).pwSums rays) = false →
          let body := wordBytes [j.pWriteId * 2 ^ 16, (j.pCol + j.col) * 2 ^ 16 + hogels,
            (j.pView + j.units / j.pRows) * 2 ^ 28 + (j.pRow + j.units % j.pRows) * 2 ^ 16] ++ packRays (rays.map (fun p => rayValue p.2.r p.2.g p.2.b))
          let h := headWord 2 n 5 (s.dev.linkSeq n 2)
          let p := packet h body.length 0 0 body
          if (s.dev.lnk n).waitPk = [] ∧ rd.1.dev.endsBeforeIdle n p = true then ∃ k c, t.dev.out = .link n k p c :: s.dev.out
          else t.dev.out = s.dev.out ∧ (t.dev.lnk n).waitPk = (s.dev.lnk n).waitPk ++ [(2, h, body.length, body)]))

/-- The heartbeat, held ports and the fade (R337, R347, R348, R349, R350 (08_tile_control.md)). HEARTBEAT_REFRESH restarts the
heartbeat's age, and after expiry changes nothing; HEARTBEAT_EXPIRY of the running timer sets hb_expired and its event and starts
the fade of every LIT active port; HOLD_TIMEOUT of a LIT port that skips its swaps starts its fade with its event; FADE_STEP sends
the drive reference scaled by the time that is left, and at zero starts the discharge; LEVEL_WRITE stores a level the class has and
drops another. No store changes. -/
def Obligations.FirescreenRows : Prop :=
  (∀ (who : Initiator) (v : Nat) (s : State),
    let u := settled who (FSC_HEARTBEAT.ent.at_ 0 0) s
    Lets u who FSC_HEARTBEAT.ent 0 0 →
    exec (.heartbeatRefresh who v) s = .next (if u.dev.rd FSC_STATUS.hb_expired = 0 then
      onDev u (fun d => { d with fsc := { d.fsc with hbTick := d.ticks, hbAge := 0 } }) else u)) ∧
  (∀ (who : Initiator) (n v : Nat) (s : State),
    let u := settled who (FSC_PORT_LEVEL.ent.at_ n 0) s
    Lets u who FSC_PORT_LEVEL.ent n 0 →
    (u.dev.rd FSC_PORT_LEVEL.level_count n < v % 16 → exec (.levelWrite who n v) s = .next u) ∧
    (v % 16 ≤ u.dev.rd FSC_PORT_LEVEL.level_count n → ∃ t, exec (.levelWrite who n v) s = .next t ∧
      OnlyCells u t [FSC_PORT_LEVEL.pending_level.key n 0] ∧ t.dev.rd FSC_PORT_LEVEL.pending_level n = v % 16)) ∧
  (∀ (s : State), s.dev.fscRuns = true → s.dev.fsc.hbRun = true → s.dev.rd FSC_STATUS.hb_expired = 0 → (∀ m ∈ s.dev.img.activePorts, m < 96) →
    ∃ t, exec .heartbeatExpiry s = .next t ∧ SameStores s t ∧ t.dev.rd FSC_STATUS.hb_expired = 1 ∧ t.dev.eventSet 294 = true ∧
      s.dev.fsc.hbTick + msTicks s.dev.img.secure.hbPeriod ≤ t.dev.ticks ∧
      ∀ n < 96, t.dev.pstate n = (if n ∈ s.dev.img.activePorts ∧ s.dev.lit n = true then 6 else s.dev.pstate n)) ∧
  (∀ (n : Nat) (x : Int) (s : State), n < 96 → s.dev.fscRuns = true → s.dev.lit n = true → (s.dev.ctl n).firstSkip = some x →
    ∃ t, exec (.holdTimeout n) s = .next t ∧ SameStores s t ∧ t.dev.pstate n = 6 ∧ (t.dev.ctl n).fadeSteps = 0 ∧ t.dev.eventSet 295 = true) ∧
  ∀ (n : Nat) (s : State), n < 96 → s.dev.pstate n = 6 →
    let x := s.dev.ctl n
    let c := s.dev.refCodes n (s.dev.bandInForce n) (s.dev.levelInForce n)
    ∃ t, exec (.fadeStep n) s = .next t ∧ SameStores s t ∧ (t.dev.ctl n).fadeSteps = x.fadeSteps + 1 ∧
      x.fadeStart + msTicks (10 * (x.fadeSteps + 1)) ≤ t.dev.ticks ∧
      let f (v : Nat) : Nat := (v * ((1000000 - (t.dev.ticks - x.fadeStart) / 250) * 65536 / 1000000) + 32768) / 65536
      t.dev.rd TCT_PORT_REF_RG.red n = f c.1 % 2 ^ 16 ∧ t.dev.rd TCT_PORT_REF_RG.green n = f c.2.1 % 2 ^ 16 ∧
      t.dev.rd TCT_PORT_REF_B.blue n = f c.2.2 % 2 ^ 16 ∧
      t.dev.pstate n = (if f c.1 = 0 ∧ f c.2.1 = 0 ∧ f c.2.2 = 0 then 4 else 6)

/-- A request is denied whole, queued where its requester is present, or held back and counted at a full queue (R353, R361, R362,
R384 (09_memory_arbitration.md), R517, R519 (13_security.md), R441 (11_stokers_rings.md), model's choices (log entries 49, 92, 138,
146)). For a request of one of the 32 requesters with a shape R353 allows, in the world that its source has, at its offset in the
window where it comes from the mailbox: one through a window without a session is blocked, reported and reads 0x0BAD_F00D; one that
no region admits leaves the address, world, direction and requester of the denial, raises REGION_DENIED and completes; an admitted
one to a running instance joins the end of its requester's queue, raising QUEUE_FULL where that fills it, at a full queue only
counts, and from a requester that is not present changes nothing; a doorbell to a ring that an instance guards joins its writer's
queue there, or waits behind a full one and counts; one to a ring that none guards takes effect at once, after its writer's earlier
writes to STK. No store changes. That the window's block address is 0x3000000 and the offset (log entry 146), that a requester not
present changes nothing (49), where a doorbell waits (138) and that one without an instance takes effect at once (92) are the
model's choices. -/
def Obligations.HbmRequests : Prop :=
  (∀ (req addr len : Nat) (src : ReqSrc) (w : Bool) (data : List Byte) (stream : Option Nat) (s : State), req < 32 → addr < 2 ^ 36 →
    let x := s.dev.srcAddr src addr
    txnShapeOk x len = true → (w = true → data.length = len) →
    let sec := s.dev.reqWorld req src
    let r : Txn := ⟨req, sec, w, x, len, data, stream, 0, len / 32, none, 0, none⟩
    (s.dev.windowBlocked src = true → ∃ t, exec (.hbmRequest req src w addr len data stream none) s = .next t ∧ SameStores s t ∧
      t.dev.arb = s.dev.arb ∧ t.dev.rd SEC_BLOCK_ADDR.addr = 0x3000000 + addr % 2 ^ 24 ∧ t.dev.rd SEC_BLOCK_INFO.initiator = 0x41 ∧
      t.dev.rd SEC_BLOCK_INFO.write = b2n w ∧ t.dev.eventSet 512 = true ∧
      (w = false → t.dev.out.head? = some (.hbmData 28 addr false (deniedBytes addr len)))) ∧
    (s.dev.windowBlocked src = false → s.dev.admits req sec w x = false → ∃ t, exec (.hbmRequest req src w addr len data stream none) s = .next t ∧
      SameStores s t ∧ t.dev.arb = s.dev.arb ∧ t.dev.rd MEM_DENY_ADDR_LO.addr_lo = x % 2 ^ 32 ∧
      t.dev.rd MEM_DENY_ADDR_HI.addr_hi = x / 2 ^ 32 ∧ t.dev.rd MEM_DENY_INFO.secure = b2n sec ∧ t.dev.rd MEM_DENY_INFO.write = b2n w ∧
      t.dev.rd MEM_DENY_INFO.requester = req ∧ t.dev.eventSet 323 = true ∧
      t.dev.out.head? = some (if w then .hbmDone req x else .hbmData req x true (deniedBytes x len))) ∧
    (s.dev.windowBlocked src = false → s.dev.admits req sec w x = true → ∀ i, i = s.dev.firstInst req x → s.dev.arbOn i = true →
      let a := s.dev.arbI i
      (s.dev.reqPresent i req = false → exec (.hbmRequest req src w addr len data stream none) s = .next s) ∧
      (s.dev.reqPresent i req = true → s.dev.queueRoom i req = true → tget a.held req [] = [] → ∃ t, exec (.hbmRequest req src w addr len data stream none) s = .next t ∧
        (t.dev.arbI i).queue req = a.queue req ++ [{ r with stamp := a.clock }] ∧
        (∀ q, q ≠ req → (t.dev.arbI i).queue q = a.queue q) ∧ (∀ k, k ≠ i → t.dev.arbI k = s.dev.arbI k) ∧
        RaisedOnly { s with dev := { s.dev with arb := t.dev.arb } } t [ARB_EVT_STATUS.status.key 0 0] ∧
        ((a.queue req).length = 15 → t.dev.eventSet 353 = true))) ∧
    (s.dev.windowBlocked src = false → s.dev.admits req sec w x = true → ∀ i, i = s.dev.firstInst req x → s.dev.arbOn i = true →
      s.dev.reqPresent i req = true → (s.dev.queueRoom i req = false ∨ tget (s.dev.arbI i).held req [] ≠ []) →
      ∃ t, exec (.hbmRequest req src w addr len data stream none) s = .next t ∧
        Counted s t ARB_QUEUE_FULL_CNT.sat ARB_QUEUE_FULL_CNT.count i ∧
        OnlyCells s t [ARB_QUEUE_FULL_CNT.sat.key i 0, ARB_QUEUE_FULL_CNT.count.key i 0])) ∧
  (∀ (req addr len r : Nat) (src : ReqSrc) (w : Bool) (data : List Byte) (stream : Option Nat) (who : Initiator) (s : State),
    regAt addr = some (STK_RING_PI.ent, r, 0) →
    let v := drainOwn who addr s
    let u := settleDoors who (fun k => v.dev.doorInst r != some k) v
    ∀ i q, u.dev.doorInst r = some i → doorReq who = some q → u.dev.arbOn i = true → u.dev.reqPresent i q = true →
      let x : Txn := ⟨q, u.dev.secureOf who, true, addr, 4, leBytes 4 (leNat data % 2 ^ 32), none, 0, 1, some who, 0, none⟩
      let a := u.dev.arbI i
      ∃ t, exec (.hbmRequest req src w addr len data stream (some who)) s = .next t ∧
        (u.dev.queueRoom i q = true → tget a.held q [] = [] →
          (t.dev.arbI i).queue q = a.queue q ++ [{ x with stamp := a.clock }] ∧
          RaisedOnly { u with dev := { u.dev with arb := t.dev.arb } } t [ARB_EVT_STATUS.status.key 0 0]) ∧
        (u.dev.queueRoom i q = false ∨ tget a.held q [] ≠ [] →
          tget (t.dev.arbI i).held q [] = tget a.held q [] ++ [x] ∧ (t.dev.arbI i).queues = a.queues ∧
          Counted u t ARB_QUEUE_FULL_CNT.sat ARB_QUEUE_FULL_CNT.count i ∧
          OnlyCells { u with dev := { u.dev with arb := t.dev.arb } } t [ARB_QUEUE_FULL_CNT.sat.key i 0, ARB_QUEUE_FULL_CNT.count.key i 0])) ∧
  ∀ (req addr len r : Nat) (src : ReqSrc) (w : Bool) (data : List Byte) (stream : Option Nat) (who : Initiator) (s : State),
    regAt addr = some (STK_RING_PI.ent, r, 0) → (drainOwn who addr s).dev.doorInst r = none →
    let u := settled who addr s
    u.dev.doorInst r = none →
    exec (.hbmRequest req src w addr len data stream (some who)) s =
      .next (onDev u (fun d => d.gate who STK_RING_PI.ent r 0 (fun d => d.piWrite who r (leNat data % 2 ^ 32))))

/-- A free instance grants the higher class; a burst costs its sender credit; a window puts the written values in force (R385, R386,
R387, R388, R392 (09_memory_arbitration.md), model's choices (log entries 25 and 49)). At the free instance of a pseudo-channel
outside a training run with two requesters waiting, ARBITER_DECISION grants the one of the higher effective class, whose request
leaves its queue while the other's stays, and a granted write stores its bytes and no others; a burst with none waiting costs the
holder one credit; ARB_WINDOW_START puts mode, window, quotas and classes in force and clears the quota counts, with each credit its
weight plus what was owed, and the requesters that may reach it; ARB_CONFIG_WRITE stores its fields, a window below 64 or a reserved
class apart. That the other fields are then stored (log entry 25), that a window starts at its row and that a class is in force at
once (49) are the model's choices. -/
def Obligations.ArbiterGrants : Prop :=
  (∀ (i clocks : Nat) (s : State), s.dev.arbOn i = true → ∃ t, exec (.arbiterDecision i clocks) s = .next t ∧ t.pending = s.pending ∧
    t.otp = s.otp ∧ t.flash = s.flash) ∧
  (∀ (i a b : Nat) (ta tb : Txn) (ra rb : List Txn) (s : State), i < 64 → s.dev.arbOn i = true → (s.dev.arbI i).holder = none → a < 32 →
    b < 32 → tget (s.dev.arbI i).held a [] = [] → (s.dev.arbI i).queue a = ta :: ra → (s.dev.arbI i).queue b = tb :: rb →
    (∀ r < 32, r ≠ a → r ≠ b → (s.dev.arbI i).queue r = []) → s.dev.accepts i ta = true → (s.dev.pchS i).training = false →
    ta.left = fullBursts i ta → s.dev.effClass i b < s.dev.effClass i a →
    ∃ t, exec (.arbiterDecision i 0) s = .next t ∧ (t.dev.arbI i).holder = some ta ∧ (t.dev.arbI i).queue a = ra ∧
      (t.dev.arbI i).queue b = tb :: rb ∧ t.pending = s.pending ∧ t.otp = s.otp ∧ t.flash = s.flash ∧
      t.hbm = (if ta.write = true ∧ s.dev.pchFailed i = false then hbmPutBytes s.hbm ta.addr ta.data else s.hbm)) ∧
  (∀ (i : Nat) (r : Txn) (s : State), s.dev.arbOn i = true → (s.dev.arbI i).holder = some r → r.req < 32 → 1 < r.left →
    (∀ q < 32, (s.dev.arbI i).queue q = []) →
    ∃ t, exec (.arbiterDecision i 1) s = .next t ∧ SameStores s t ∧ (t.dev.arbI i).holder = some { r with left := r.left - 1 } ∧
      (t.dev.arbI i).clock = (s.dev.arbI i).clock + 1 ∧ t.dev.credit i r.req = clampI (s.dev.credit i r.req - 1) (-32768) 32767) ∧
  (∀ (i : Nat) (s : State), s.dev.arbOn i = true →
    ∃ t, exec (.arbWindowStart i) s = .next t ∧ t.pending = s.pending ∧ t.otp = s.otp ∧ t.flash = s.flash ∧
      (t.dev.arbI i).get 0 = t.dev.rd ARB_INST_CFG.mode i ∧ (t.dev.arbI i).get 1 = t.dev.rd ARB_INST_CFG.window i ∧
      ∀ r < 32, t.dev.rd ARB_REQ_QUOTA.used i r = 0 ∧ (t.dev.arbI i).get (200 + r) = t.dev.rd ARB_REQ_CFG.quota i r ∧
        (t.dev.arbI i).get (300 + r) = t.dev.rd ARB_REQ_CFG.class i r ∧ (t.dev.arbI i).get (400 + r) = t.dev.rd ARB_REQ_CFG.present i r ∧
        ((s.dev.arbI i).get 3 + (s.dev.arbI i).get 1 ≤ (s.dev.arbI i).clock →
          t.dev.credit i r = clampI (min (s.dev.credit i r) 0 + (s.dev.rd ARB_REQ_CFG.weight i r : Nat)) (-32768) 32767)) ∧
  (∀ (who : Initiator) (i v : Nat) (s : State),
    let u := settled who (ARB_INST_CFG.ent.at_ i 0) s
    Lets u who ARB_INST_CFG.ent i 0 → ∃ t, exec (.arbConfigWrite who i none v) s = .next t ∧
      OnlyCells u t [ARB_INST_CFG.mode.key i 0, ARB_INST_CFG.window.key i 0] ∧ t.dev.rd ARB_INST_CFG.mode i = b2n (v.testBit 31) ∧
      t.dev.rd ARB_INST_CFG.window i = (if v % 2 ^ 16 < 64 then u.dev.rd ARB_INST_CFG.window i else v % 2 ^ 16)) ∧
  ∀ (who : Initiator) (i r v : Nat) (s : State),
    let u := settled who (ARB_REQ_CFG.ent.at_ i r) s
    Lets u who ARB_REQ_CFG.ent i r → ∃ t, exec (.arbConfigWrite who i (some r) v) s = .next t ∧ SameStores u t ∧
      CellsKept u t [ARB_REQ_CFG.quota.key i r, ARB_REQ_CFG.weight.key i r, ARB_REQ_CFG.class.key i r] ∧
      t.dev.rd ARB_REQ_CFG.quota i r = bits v 25 16 ∧ t.dev.rd ARB_REQ_CFG.weight i r = v % 2 ^ 14 ∧
      (2 ≤ bits v 31 30 → t.dev.arb = u.dev.arb ∧ t.dev.rd ARB_REQ_CFG.class i r = u.dev.rd ARB_REQ_CFG.class i r) ∧
      (bits v 31 30 < 2 → (t.dev.arbI i).get (300 + r) = bits v 31 30 ∧ t.dev.rd ARB_REQ_CFG.class i r = bits v 31 30)

/-- Reads return, writes retire, cords end, and errors are counted and raised (R363, R364, R366, R367, R368, R370, R380
(09_memory_arbitration.md), model's choice (log entry 49)). At a running pseudo-channel: a read in flight that its bank's order and
the running cord let return gives its data, or unknown data with the error flag after an uncorrectable error or a failed parity
retry, each error counting and raising its event, and, if it has still to reach the DRAM, opens its row where no refresh is due; one
that may not return waits. The first queued write that its bank's order allows retires in a cord or while no read could return, and
otherwise waits, its errors counted and raised alike, and only the bytes of a write that failed and of queued writes may change; a
cord with no read waiting drains the queue to its low watermark and ends; MEM_CORD_WM takes only watermarks in order and at most 48.
That a read which waits behind its bank's order or a cord is no waiting read for R367 is the model's choice (log entry 49). -/
def Obligations.HbmCompletion : Prop :=
  let counts := fun (s t : State) (p err : Nat) =>
    (err = 1 → t.dev.eventSet 320 = true ∧ Counted s t MEM_ECC_CORR_CNT.sat MEM_ECC_CORR_CNT.count p) ∧
    (err = 2 → t.dev.eventSet 321 = true ∧ Counted s t MEM_ECC_UNCORR_CNT.sat MEM_ECC_UNCORR_CNT.count p) ∧
    (err = 4 → t.dev.eventSet 322 = true ∧ Counted s t MEM_PARITY_CNT.sat MEM_PARITY_CNT.count p)
  (∀ (p k err : Nat) (r : Txn) (s : State), s.dev.pchOn p = true → (s.dev.pchS p).reads[k]? = some r →
    (s.dev.readReady p r = false → exec (.hbmReadReturn p k err) s = .next s) ∧
    (s.dev.readReady p r = true → r.write = false → ∃ t, exec (.hbmReadReturn p k err) s = .next t ∧ SameStores s t ∧
      (∃ b, .hbmData r.req r.addr (badTransfer err) b ∈ t.dev.out ∧ (badTransfer err = false → b = r.data)) ∧
      (badTransfer err = false → (t.dev.pchS p).reads = (s.dev.pchS p).reads.eraseIdx k ∧ (t.dev.pchS p).writes = (s.dev.pchS p).writes) ∧
      (badTransfer err = false → (s.dev.pchS p).refreshDue = [] →
        (t.dev.pchS p).open_ = (if r.left = 0 then (s.dev.pchS p).open_
          else tput (s.dev.pchS p).open_ (s.dev.dramBank r.addr) (s.dev.dramRow r.addr))) ∧
      (err = 0 → (s.dev.pchS p).refreshDue = [] → t.dev.regs = s.dev.regs) ∧ counts s t p err)) ∧
  (∀ (p err : Nat) (s : State), s.dev.pchOn p = true →
    (s.dev.nextWrite p = none → exec (.hbmWriteRetire p err) s = .next s) ∧
    ∀ r, s.dev.nextWrite p = some r →
      let ws := (s.dev.pchS p).writes
      let blocked := (s.dev.pchS p).cordLow = none ∧ ∃ u ∈ (s.dev.pchS p).reads, s.dev.readReady p u = true
      (blocked → exec (.hbmWriteRetire p err) s = .next s) ∧
      (¬ blocked → ∃ t, exec (.hbmWriteRetire p err) s = .next t ∧ KeepsRest s t ∧ counts s t p err ∧
        (badTransfer err = false → t.hbm = s.hbm ∧ (t.dev.pchS p).writes = ws.filter (fun u => u.order != r.order) ∧
          (t.dev.pchS p).reads = (s.dev.pchS p).reads) ∧
        (Memory.wf s.hbm = true → HbmKept s t ((r.addr, r.len) :: ws.map (fun u => (u.addr, u.data.length)))))) ∧
  (∀ (p low : Nat) (s : State), s.dev.pchOn p = true → (s.dev.pchS p).cordLow = some low → low < s.dev.rd MEM_CORD_WM.high →
    let w := (s.dev.pchS p).writes
    (s.dev.pchS p).reads = [] → (s.dev.pchS p).refreshDue = [] → low < w.length → w.length ≤ 48 → w.Pairwise (fun a b => a.order < b.order) →
    ∃ t, exec (.cordEnd p) s = .next t ∧ t = { s with dev := { s.dev with pch := t.dev.pch } } ∧
      (t.dev.pchS p).writes = w.drop (w.length - low) ∧ (t.dev.pchS p).cordLow = none ∧ ∀ q, q ≠ p → t.dev.pchS q = s.dev.pchS q) ∧
  ∀ (who : Initiator) (v : Nat) (s : State),
    let u := settled who (MEM_CORD_WM.ent.at_ 0 0) s
    Lets u who MEM_CORD_WM.ent 0 0 →
    (bits v 13 8 ≤ bits v 5 0 ∨ 48 < bits v 13 8 → exec (.cordWmWrite who v) s = .next u) ∧
    (bits v 5 0 < bits v 13 8 → bits v 13 8 ≤ 48 → ∃ t, exec (.cordWmWrite who v) s = .next t ∧
      OnlyCells u t [MEM_CORD_WM.high.key 0 0, MEM_CORD_WM.low.key 0 0] ∧ t.dev.rd MEM_CORD_WM.high = bits v 13 8 ∧
      t.dev.rd MEM_CORD_WM.low = bits v 5 0)

/-- Refresh is issued, postponed or forced; periodic training comes due, runs, ends with its margin or is deferred (R371, R372,
R373, R375, R376, R377, R378, R381 (09_memory_arbitration.md), model's choices (log entries 11, 51, 135)). At a running pseudo-
channel: a refresh comes due one interval after the bank's last; where no other bank has one due, an idle bank is refreshed, which
closes its page, and a busy one's is postponed; where a bank is at the limit it is refreshed and counted as forced; HBM_TEMP_CHANGE
shows the stack's state and raises TEMP_HIGH on its rise; training comes due one interval after the last run, starts in a training
window when no other of its stack runs and no grant is held, ends with its margin shown, low margin raised and margin 0 failing the
pseudo-channel. TRAINING_DEFER of a run due for 10 s in which no window has come, nor stands now, counts it and raises it as
deferred; of another it changes nothing. A line that starts in a window marks every run that is due as having met one. No store
changes. That each happens at its row, at the end of its interval (log entries 11 and 51), and that TRAINING_DEFER does nothing
before the 10 s are over (135) are the model's choices. -/
def Obligations.RefreshAndTraining : Prop :=
  (∀ (p bank : Nat) (s : State), s.dev.pchOn p = true → bank < 32 →
    let x := s.dev.pchS p
    ∃ t, exec (.refreshDue p bank) s = .next t ∧ SameStores s t ∧
      t.dev = { s.dev with regs := t.dev.regs, ticks := t.dev.ticks, net := { s.dev.net with tbs := t.dev.net.tbs }, pch := t.dev.pch } ∧
      tget x.refAt bank 0 + Config.refreshInterval (s.dev.rdBit MEM_STATUS.temp_high (p / 32)) ≤ t.dev.ticks ∧
      tget (t.dev.pchS p).refAt bank 0 = t.dev.ticks ∧
      (∀ b, s.dev.bankAtLimit p = some b → t.dev.regs = (s.dev.count MEM_REF_FORCED_CNT.sat MEM_REF_FORCED_CNT.count 1 p).regs ∧
        tfind (t.dev.pchS p).open_ b = none) ∧
      (s.dev.bankAtLimit p = none → (∀ b < 32, b ≠ bank → tget x.refreshDue b 0 = 0) → t.dev.regs = s.dev.regs ∧
        (s.dev.bankBusy p bank = false → tget (t.dev.pchS p).refreshDue bank 0 = tget x.refreshDue bank 0 ∧
          tfind (t.dev.pchS p).open_ bank = none) ∧
        (s.dev.bankBusy p bank = true → tget (t.dev.pchS p).refreshDue bank 0 = tget x.refreshDue bank 0 + 1 ∧
          (t.dev.pchS p).open_ = x.open_))) ∧
  (∀ (k : Nat) (raised : Bool) (s : State), k < 2 → s.dev.pchOn (32 * k) = true →
    ∃ t, exec (.hbmTempChange k raised) s = .next t ∧ RaisedOnly s t [MEM_STATUS.temp_high.key 0 0, MEM_EVT_STATUS.status.key 0 0] ∧
      t.dev.rdBit MEM_STATUS.temp_high k = raised ∧
      (raised = true → s.dev.rdBit MEM_STATUS.temp_high k = false → t.dev.eventSet 327 = true)) ∧
  ∀ (p : Nat) (s : State), s.dev.pchOn p = true →
    let x := s.dev.pchS p
    (x.dueSince = none → s.dev.pchFailed p = false →
      ∃ t, exec (.periodicTrainingDue p) s = .next t ∧ SameStores s t ∧ t.dev.regs = s.dev.regs ∧
        t.dev.pchS p = { x with dueSince := some t.dev.ticks, seen := t.dev.trainingWindow } ∧
        x.lastRun.getD 0 + msTicks (s.dev.rd MEM_TRAIN_CFG.interval_ms) ≤ t.dev.ticks) ∧
    (x.dueSince ≠ none → s.dev.trainingWindow = true → s.dev.stackTraining p = false → s.dev.pchFailed p = false →
      (s.dev.arbI p).holder = none →
      ∃ t, exec (.trainingRunStart p) s = .next t ∧ t.dev.pchS p = { x with training := true } ∧
        OnlyCells { s with dev := { s.dev with pch := t.dev.pch } } t [MEM_PCH_STATUS.state.key p 0, MEM_TRAIN_STATUS.age_ms.key p 0] ∧
        t.dev.rd MEM_PCH_STATUS.state p = 1 ∧
        t.dev.rd MEM_TRAIN_STATUS.age_ms p = (match x.lastRun with
          | some t0 => min ((s.dev.ticks - t0) / 250000) 0xFFFF
          | none => 0)) ∧
    (x.training = true → ∀ m < 2 ^ 8, ∃ t, exec (.trainingRunEnd p m) s = .next t ∧ SameStores s t ∧ (t.dev.pchS p).training = false ∧
      (t.dev.pchS p).dueSince = none ∧ (t.dev.pchS p).lastRun = some s.dev.ticks ∧ t.dev.rd MEM_TRAIN_STATUS.margin p = m ∧
      (m < s.dev.rd MEM_TRAIN_CFG.min_margin → t.dev.eventSet 325 = true) ∧ (m = 0 → t.dev.pchFailed p = true) ∧
      (m ≠ 0 → t.dev.rd MEM_PCH_STATUS.state p = (if s.dev.pchUsed p then 0 else 3))) ∧
    (x.training = false → ∀ t0, x.dueSince = some t0 →
      let waits := x.seen = true ∨ s.dev.trainingWindow = true ∨ s.dev.ticks < t0 + msTicks 10000
      (waits → exec (.trainingDefer p) s = .next s) ∧
      (¬ waits → ∃ t, exec (.trainingDefer p) s = .next t ∧ t.dev.pchS p = { x with dueSince := none } ∧ t.dev.eventSet 326 = true ∧
        Counted s t MEM_TRAIN_DEFER_CNT.sat MEM_TRAIN_DEFER_CNT.count p ∧
        RaisedOnly { s with dev := { s.dev with pch := t.dev.pch } } t
          [MEM_TRAIN_DEFER_CNT.sat.key p 0, MEM_TRAIN_DEFER_CNT.count.key p 0, MEM_EVT_STATUS.status.key 0 0])) ∧
    ∀ g, g < 4 → ∀ t, exec (.lineStart g) s = .next t → t.dev.trainingWindow = true → ∀ q, (t.dev.pchS q).dueSince ≠ none → (t.dev.pchS q).seen = true

/-- A codec job starts with its table, is refused before any access, and by block rows writes its own surfaces alone (R395, R397,
R401, R404, R405, R408, R409, R410 (10_codec_2d.md), R450 (11_stokers_rings.md), read by inference (log entry 46)). For a ring's
next codec job while the engine has room: its opcode's command finishes it with status 2 and JOB_REJECT where R397 refuses it, or
where it is a COMPRESS whose rows do not suit its component's height (R401), and else sets it running with the table its coding byte
names. A COMPRESS that resumes finishes with status 3 where its context cannot be read, with 7 where the context does not fit,
whatever R401 says (that the context is read before R401 is checked is read by inference: log entry 46), and with 2 where its rows
do not suit the height from there; one that fits runs on from what the context holds. Each CODEC_BLOCK_ROW_DONE of a running job
goes one block row further or finishes it, and writes no byte outside the job's destination and context; a COMPARE writes none. A
stream too short for its index entry finishes with status 5 and fault 0x23. -/
def Obligations.CodecJobs : Prop :=
  (∀ (r : Nat) (c : Instr) (j : Job) (s : State), s.dev.nextToStart r = some j → j.ring = r → j.engine = 0x50 → j.units = 0 →
    s.dev.codecFree j = true →
    (j.cOp = 1 ∧ c = .compress r) ∨ (j.cOp = 2 ∧ c = .decompress r) ∨ (j.cOp = 3 ∧ c = .compare r) →
    ∃ t, exec c s = .next t ∧ SameStores s t ∧
      (s.dev.codecOk j = false → JobEnds t r j.slot (j.cProgress 2 0 0) ∧ t.dev.eventSet 387 = true ∧
        t.dev.rd CDC_LAST_ERR.status = 2 ∧ t.dev.rd CDC_LAST_ERR.ring = r % 2 ^ 12) ∧
      (s.dev.codecOk j = true → (j.cOp = 1 → j.cResume = false ∧ compressRowsOk { j with cdc := CdcWork.init } = true) →
        OnlyJobs s t ∧ (t.dev.jobAt r j.slot).map (fun k => (k.state, k.desc, k.cdc.lens, k.cdc.blockRow)) =
          some (2, j.desc, s.dev.codingTable j.cCoding, 0)) ∧
      (s.dev.codecOk j = true → j.cOp = 1 → j.cResume = true →
        let x := readHbmStop s 20 (s.dev.ringSecure r) j.cCtx 256
        let k := { j with cdc := resumeWork x.2.2 (s.dev.codingTable j.cCoding) }
        (x.2.1 = true → JobEnds t r j.slot (j.cProgress 3 0 0)) ∧
        (x.2.1 = false → contextFits j x.2.2 = false → JobEnds t r j.slot (j.cProgress 7 0 0) ∧ t.dev.eventSet 387 = true) ∧
        (x.2.1 = false → contextFits j x.2.2 = true → compressRowsOk k = false → JobEnds t r j.slot (j.cProgress 2 0 0) ∧ t.dev.eventSet 387 = true) ∧
        (x.2.1 = false → contextFits j x.2.2 = true → compressRowsOk k = true →
          (t.dev.jobAt r j.slot).map (fun q => (q.state, q.desc, q.cdc, q.progress)) = some (2, j.desc, k.cdc, k.cProgress 0 0 0) ∧
          t = { s with dev := { s.dev with jobs := t.dev.jobs, pch := t.dev.pch } })) ∧
      (s.dev.codecOk j = true → j.cOp = 1 → j.cResume = false → compressRowsOk { j with cdc := CdcWork.init } = false →
        JobEnds t r j.slot (j.cProgress 2 0 0) ∧ t.dev.eventSet 387 = true ∧ t.dev.rd CDC_LAST_ERR.status = 2)) ∧
  ∀ (r slot : Nat) (j : Job) (s : State), s.dev.jobAt r slot = some j → j.ring = r → j.engine = 0x50 → j.state = 2 → j.finished = false →
    s.dev.engineOn 0x50 = true →
    let b := j.cdc.blockRow
    ∃ t, exec (.codecBlockRowDone r slot) s = .next t ∧ KeepsRest s t ∧
      (∃ k, t.dev.jobAt r slot = some k ∧ (k.finished = true ∨ k.cdc.blockRow = b + 1)) ∧
      (Memory.wf s.hbm = true →
        (j.cOp = 1 → b < j.cBlockRows → j.cBlockRows * j.cEntry ≤ j.cDstSize → HbmKept s t [(j.cDst, j.cDstSize), (j.cCtx, 256)]) ∧
        (j.cOp = 2 → HbmKept s t ((List.range (min 4 (j.cHeight - 4 * b))).map
          (fun y => (j.cDst + (4 * b + y) * j.cDstSize, j.cWidth * j.cBytes))))) ∧
      (j.cOp = 3 → t.hbm = s.hbm) ∧
      (j.cOp ≠ 1 → j.units < 2 ^ 16 → j.cSrcSize < b * j.cEntry + j.cEntry →
        JobEnds t r slot (j.cProgress 5 0x23 0) ∧ t.dev.eventSet 385 = true)

/-- A 2-D job is checked before any access, and each row writes its own pixels alone (R412, R413, R414, R416, R417, R418, R421
(10_codec_2d.md)). For a ring's next 2-D job while the engine has room and no earlier job conflicts: the command of its opcode
finishes it with the status of the check that refuses it, with its event, or sets it running. TWD_ROW_DONE of a running job finishes
it or goes one row further, and writes no byte outside that row of the destination rectangle; a FILL whose writes reach HBM leaves
its pixel value in the whole row. TWD_CONFLICT_CLEAR ends the conflict of a job that nothing earlier blocks. -/
def Obligations.TwoDJobs : Prop :=
  (∀ (r : Nat) (c : Instr) (j : Job) (s : State), s.dev.nextToStart r = some j → j.ring = r → j.engine = 0x51 → j.units = 0 →
    s.dev.twdFree j = true →
    (j.tOp = 1 ∧ c = .twdCopy r) ∨ (j.tOp = 2 ∧ c = .twdFill r) ∨ (j.tOp = 3 ∧ c = .keyCopy r) ∨ (j.tOp = 4 ∧ c = .glyph r) →
    ∃ t, exec c s = .next t ∧ SameStores s t ∧
      (twdCheck j ≠ 0 → JobEnds t r j.slot (j.tProgress (twdCheck j)) ∧ t.dev.rd TWD_LAST_ERR.status = twdCheck j ∧
        t.dev.eventSet (if twdCheck j = 3 then 417 else 416) = true) ∧
      (twdCheck j = 0 → OnlyJobs s t ∧
        t.dev.jobAt r j.slot = some { j with conflict := false, state := 2, progress := j.tProgress 0 })) ∧
  (∀ (r slot : Nat) (j : Job) (s : State), s.dev.jobAt r slot = some j → j.ring = r → j.engine = 0x51 → j.state = 2 → j.finished = false →
    s.dev.engineOn 0x51 = true → Memory.wf s.hbm = true →
    let y := if j.descending then j.rectH - 1 - j.units else j.units
    let nb := pixelBytes j.dstFmt
    let a := j.addr 0x24 + (j.dstY + y) * j.dstPitch + j.dstX * nb
    ∃ t, exec (.twdRowDone r slot) s = .next t ∧ KeepsRest s t ∧ HbmKept s t [(a, j.rectW * nb)] ∧
      (∃ k, t.dev.jobAt r slot = some k ∧ (k.finished = true ∨ k.units = j.units + 1)) ∧
      (j.tOp = 2 → WritesReach s.dev 21 (s.dev.ringSecure r) a (j.rectW * nb) →
        (t.dev.jobAt r slot).map (fun k => k.units) = some (j.units + 1) ∧
        ∀ x < j.rectW, hbmGetBytes t.hbm (a + x * nb) nb = leBytes nb (j.w 0x48))) ∧
  ∀ (r slot : Nat) (j : Job) (s : State), s.dev.jobAt r slot = some j → j.ring = r → j.engine = 0x51 → j.state = 1 → j.conflict = true →
    s.dev.twdBlocked j = false →
    ∃ t, exec (.twdConflictClear r slot) s = .next t ∧ SameStores s t ∧ ∃ k, t.dev.jobAt r slot = some k ∧ k.conflict = false ∧ k.desc = j.desc

/-- DMA and export jobs are refused before any access, and write their destinations alone (R446, R447, R450 (11_stokers_rings.md),
R545, R546 (14_recorder_kiln.md), read by inference (log entry 34)). For a ring's next DMA job while the engine has room, DMA_COPY
and DMA_FILL set it running, or finish it with status 1. DMA_PROGRESS of a running job finishes it or moves it on by 4,096 bytes or
what is left, and writes no byte of HBM outside those; a FILL whose writes reach HBM leaves its pattern there. EXPORT of a ring's
next export job finishes it: with status 1 or 2 and nothing written where R546 refuses it, else writing within its destination's 80
bytes and 256 a record. That it finishes in its one row, and with status 1 for count 0 or a destination that is not aligned, is read
by inference (log entry 34). -/
def Obligations.DmaAndExport : Prop :=
  (∀ (r : Nat) (c : Instr) (j : Job) (s : State), s.dev.nextToStart r = some j → j.ring = r → j.engine = 0x52 → s.dev.engineOn 0x52 = true →
    (s.dev.runningJobs 0x52).length < 4 → (j.dOp = 1 ∧ c = .dmaCopy r) ∨ (j.dOp = 2 ∧ c = .dmaFill r) →
    ∃ t, exec c s = .next t ∧ OnlyJobs s t ∧ (s.dev.dmaOk j = false → JobEnds t r j.slot [2 ^ 24, 0, 0, 0, 0]) ∧
      (s.dev.dmaOk j = true → t.dev.jobAt r j.slot = some { j with state := 2 })) ∧
  (∀ (r slot : Nat) (j : Job) (s : State), s.dev.jobAt r slot = some j → j.ring = r → j.engine = 0x52 → j.state = 2 → j.finished = false →
    s.dev.engineOn 0x52 = true → Memory.wf s.hbm = true →
    let n := min 4096 (j.dLen - j.units) / 32 * 32
    ∃ t, exec (.dmaProgress r slot) s = .next t ∧ KeepsRest s t ∧ (j.dDstLocal = true → t.hbm = s.hbm) ∧
      HbmKept s t [(j.dDst + j.units, n)] ∧ (∃ k, t.dev.jobAt r slot = some k ∧ (k.finished = true ∨ k.units = j.units + n)) ∧
      (j.dOp = 2 → j.dDstLocal = false → WritesReach s.dev 22 (s.dev.ringSecure r) (j.dDst + j.units) n →
        (t.dev.jobAt r slot).map (fun k => k.progress) = some [0, j.units + n, 0, 0, 0] ∧
        ∀ i < n / 4, hbmGetBytes t.hbm (j.dDst + j.units + 4 * i) 4 = leBytes 4 (j.w 0x24))) ∧
  ∀ (r : Nat) (j : Job) (s : State), s.dev.nextToStart r = some j → j.ring = r → j.engine = 0x54 → s.dev.engineOn 0x54 = true →
    ∃ t, exec (.exportJob r) s = .next t ∧ KeepsRest s t ∧ (∃ k, t.dev.jobAt r j.slot = some k ∧ k.finished = true) ∧
      (s.dev.exportRefusal j ≠ 0 → OnlyJobs s t ∧ JobEnds t r j.slot [s.dev.exportRefusal j * 2 ^ 24, 0, 0, 0, 0]) ∧
      (Memory.wf s.hbm = true → HbmKept s t [(j.xDst, 80 + 256 * j.xCount)])

/-- Descriptors are fetched into the in-flight table, and completions are written, held and resumed in order (R438, R443, R444,
R445, R448 (11_stokers_rings.md), R419 (10_codec_2d.md), read by inference (log entries 44 and 119)). For a job ring that may be
fetched from and whose turn has come: DESCRIPTOR_FETCH with a full 2-D scoreboard only counts and raises the stall; else CI advances
by 1, and the 128 bytes read join the in-flight table as a waiting job, or complete at once where R445 faults them, the completion
ring's PI advancing. COMPLETION_WRITE of a finished job writes its 32 bytes and no others, frees the entry and advances PI, or holds
the job where the ring is full or holds one. COMPLETION_RESUME writes held completions while there is room. That a fetch out of its
turn changes nothing (log entry 119), that PI advances after a completion write that is denied, and the order in which held ones go
on (44), are read by inference. -/
def Obligations.DescriptorsAndCompletions : Prop :=
  (∀ (r : Nat) (s : State), s.dev.mayFetch r = false ∨ s.dev.inTurn r = false → exec (.descriptorFetch r) s = .next s) ∧
  (∀ (r : Nat) (s : State), r < 4096 → s.dev.mayFetch r = true → s.dev.inTurn r = true →
    let e := s.dev.consumer r
    let ci := s.dev.rd STK_RING_CI.ci r
    let x := readHbm s (engineReq e) (s.dev.ringSecure r) (s.dev.ringAddr r ci) 128
    let cq := s.dev.rd STK_RING_CFG.cq r
    (e = 0x51 → 64 ≤ (s.dev.engineJobs 0x51).length → ∃ t, exec (.descriptorFetch r) s = .next t ∧ t.dev.eventSet 418 = true ∧
      Counted s t TWD_STALL_CNT.sat TWD_STALL_CNT.count 0 ∧ RaisedOnly s t [TWD_STALL_CNT.sat.key 0 0, TWD_STALL_CNT.count.key 0 0, TWD_EVT_STATUS.status.key 0 0]) ∧
    (e ≠ 0x51 ∨ (s.dev.engineJobs 0x51).length < 64 → ∃ t, exec (.descriptorFetch r) s = .next t ∧ KeepsRest s t ∧
      t.dev.rd STK_RING_CI.ci r = (ci + 1) % s.dev.ringMod r % 2 ^ 16 ∧
      (descriptorFault e x.2.1 x.2.2 = none → t.hbm = s.hbm ∧ ∃ k, t.dev.jobsOf r = s.dev.jobsOf r ++ [k] ∧ k.desc = x.2.2 ∧ k.index = ci ∧
        k.ring = r ∧ k.engine = e ∧ k.state = 1 ∧ k.finished = false ∧ k.slot = freeSlot (s.dev.jobsOf r) ∧ tget t.dev.jobs.turn e 4095 = r) ∧
      (descriptorFault e x.2.1 x.2.2 ≠ none → cq < 4096 → cq ≠ r → s.dev.ringRoom cq ≠ 0 →
        t.dev.rd STK_RING_PI.pi cq = (s.dev.rd STK_RING_PI.pi cq + 1) % s.dev.ringMod cq % 2 ^ 16))) ∧
  (∀ (r slot : Nat) (j : Job) (s : State), s.dev.jobAt r slot = some j → j.ring = r → j.finished = true → j.state = 2 →
    s.dev.engineOn j.engine = true →
    let cq := s.dev.rd STK_RING_CFG.cq r
    let i := s.dev.rd STK_RING_PI.pi cq
    let a := s.dev.ringAddr cq i
    (s.dev.cqHeld cq = true ∨ s.dev.ringRoom cq = 0 → ∃ t, exec (.completionWrite r slot) s = .next t ∧ OnlyJobs s t ∧
      (t.dev.jobAt r slot).map (fun k => (k.state, k.progress)) = some (3, j.progress)) ∧
    (s.dev.cqHeld cq = false → s.dev.ringRoom cq ≠ 0 → cq < 4096 → ∃ t, exec (.completionWrite r slot) s = .next t ∧ KeepsRest s t ∧
      t.dev.jobsOf r = (s.dev.jobsOf r).filter (fun k => k.slot != slot) ∧
      t.dev.rd STK_RING_PI.pi cq = (i + 1) % s.dev.ringMod cq % 2 ^ 16 ∧
      (Memory.wf s.hbm = true → HbmKept s t [(a, 32)] ∧ (WritesReach s.dev (engineReq j.engine) (s.dev.ringSecure r) a 32 →
        hbmGetBytes t.hbm a 32 = s.dev.completionBytes j cq i)))) ∧
  ∀ (cq : Nat) (s : State), ∃ t, exec (.completionResume cq) s = .next t ∧ KeepsRest s t ∧
    (s.dev.ringRoom cq = 0 ∨ s.dev.oldestHeld cq = none → t = s) ∧
    ∀ j u, s.dev.ringRoom cq ≠ 0 → s.dev.oldestHeld cq = some j → u = putCompletion s j cq →
      u.dev.ringRoom cq = 0 ∨ u.dev.oldestHeld cq = none → t = u

/-- A doorbell from the ring's own endpoint within the ring's fill moves its index and notifies; any other is dropped and raised
(R437, R438, R439, R440, R441, R442 (11_stokers_rings.md), model's choice (log entry 92), read by inference (log entry 43)). Where
the fabric lets the write through and its way to STK is free, with an arbiter on it or without: PI_WRITE by the producer that
advances PI by 1 up to the room stores it, and an armed, unparked ring sends its notification to the consumer's claim queue or as
MSI-X and disarms; CI_WRITE by the consumer that advances CI within the fill stores it, and with arm on an emptied ring arms it, on
one that still holds an entry arms it and notifies at once; every other doorbell changes no index, is counted and raises RING_ERR
(for a ring the image does not define this is read by inference: log entry 43). Beside these and its requester's mask nothing
changes but the arbiter it passed; that a doorbell passes none where its instance does not run or does not list its requester is the
model's choice (log entry 92). -/
def Obligations.Doorbells : Prop :=
  (∀ (who : Initiator) (r v : Nat) (ks : List Nat) (s : State),
    let u := settled who (STK_RING_PI.ent.at_ r 0) s
    Lets u who STK_RING_PI.ent r 0 → u.dev.doorWay who r = some ks →
    let m := u.dev.ringMod r
    let adv := (v % 2 ^ 16 % m + m - u.dev.rd STK_RING_PI.pi r % m) % m
    let ok := u.dev.ringKnown r = true ∧ endpointOf who = some (u.dev.producer r) ∧ 1 ≤ adv ∧ adv ≤ u.dev.ringRoom r
    (ok → ∃ t, exec (.piWrite who r v) s = .next t ∧ (ks = [] → t.dev.arb = u.dev.arb) ∧
      t = { u with dev := { u.dev with regs := t.dev.regs, out := t.dev.out, stk := t.dev.stk, arb := t.dev.arb } } ∧
      CellsKept u t (ks ++ [STK_RING_PI.pi.key r 0, STK_RING_NOTIFY.armed.key r 0]) ∧ t.dev.rd STK_RING_PI.pi r = v % 2 ^ 16 % m ∧
      (u.dev.rd STK_RING_NOTIFY.armed r = 0 ∨ u.dev.rd STK_RING_CFG.parked r ≠ 0 →
        t.dev.out = u.dev.out ∧ t.dev.stk = u.dev.stk ∧ CellsKept u t (ks ++ [STK_RING_PI.pi.key r 0])) ∧
      (u.dev.rd STK_RING_NOTIFY.armed r ≠ 0 → u.dev.rd STK_RING_CFG.parked r = 0 →
        (∀ c, c = u.dev.consumer r → u.dev.rd STK_RING_NOTIFY.target r = 1 → c < 64 → (u.dev.core c).claim.length < 64 →
          t.dev.rd STK_RING_NOTIFY.armed r = 0 ∧ (t.dev.core c).claim = (u.dev.core c).claim ++ [2 ^ 30 + r]) ∧
        (u.dev.rd STK_RING_NOTIFY.target r = 2 → t.dev.rd STK_RING_NOTIFY.armed r = 0 ∧
          t.dev.out = .msix (u.dev.rd STK_RING_NOTIFY.vector r) (2 ^ 30 + r) u.dev.evNow :: u.dev.out))) ∧
    (¬ ok → ∃ t, exec (.piWrite who r v) s = .next t ∧ t.dev.eventSet 451 = true ∧
      Counted u t STK_RING_ERR_CNT.sat STK_RING_ERR_CNT.count 0 ∧ (ks = [] → t.dev.arb = u.dev.arb) ∧
      RaisedOnly { u with dev := { u.dev with arb := t.dev.arb } } t
        (ks ++ [STK_RING_ERR_CNT.sat.key 0 0, STK_RING_ERR_CNT.count.key 0 0, STK_EVT_STATUS.status.key 0 0]))) ∧
  ∀ (who : Initiator) (r v : Nat) (ks : List Nat) (s : State),
    let u := settled who (STK_RING_CI.ent.at_ r 0) s
    Lets u who STK_RING_CI.ent r 0 → u.dev.doorWay who r = some ks →
    let m := u.dev.ringMod r
    let adv := (v % 2 ^ 16 % m + m - u.dev.rd STK_RING_CI.ci r % m) % m
    let ok := u.dev.ringKnown r = true ∧ endpointOf who = some (u.dev.consumer r) ∧ adv ≤ u.dev.ringFill r
    (ok → ∃ t, exec (.ciWrite who r v) s = .next t ∧ t.dev.rd STK_RING_CI.ci r = v % 2 ^ 16 % m ∧ (ks = [] → t.dev.arb = u.dev.arb) ∧
      (v.testBit 16 = false → OnlyCells { u with dev := { u.dev with arb := t.dev.arb } } t (ks ++ [STK_RING_CI.ci.key r 0])) ∧
      (v.testBit 16 = true → adv = u.dev.ringFill r →
        OnlyCells { u with dev := { u.dev with arb := t.dev.arb } } t (ks ++ [STK_RING_CI.ci.key r 0, STK_RING_NOTIFY.armed.key r 0]) ∧
        t.dev.rd STK_RING_NOTIFY.armed r = 1) ∧
      (v.testBit 16 = true → adv ≠ u.dev.ringFill r →
        t = { u with dev := { u.dev with regs := t.dev.regs, out := t.dev.out, stk := t.dev.stk, arb := t.dev.arb } } ∧
        CellsKept u t (ks ++ [STK_RING_CI.ci.key r 0, STK_RING_NOTIFY.armed.key r 0]) ∧
        (u.dev.rd STK_RING_CFG.parked r ≠ 0 → t.dev.rd STK_RING_NOTIFY.armed r = 1 ∧ t.dev.out = u.dev.out ∧ t.dev.stk = u.dev.stk) ∧
        (u.dev.rd STK_RING_CFG.parked r = 0 →
          (∀ c, c = u.dev.consumer r → u.dev.rd STK_RING_NOTIFY.target r = 1 → c < 64 → (u.dev.core c).claim.length < 64 →
            t.dev.rd STK_RING_NOTIFY.armed r = 0 ∧ (t.dev.core c).claim = (u.dev.core c).claim ++ [2 ^ 30 + r]) ∧
          (u.dev.rd STK_RING_NOTIFY.target r = 2 → t.dev.rd STK_RING_NOTIFY.armed r = 0 ∧
            t.dev.out = .msix (u.dev.rd STK_RING_NOTIFY.vector r) (2 ^ 30 + r) u.dev.evNow :: u.dev.out)))) ∧
    (¬ ok → ∃ t, exec (.ciWrite who r v) s = .next t ∧ t.dev.eventSet 451 = true ∧
      Counted u t STK_RING_ERR_CNT.sat STK_RING_ERR_CNT.count 0 ∧ (ks = [] → t.dev.arb = u.dev.arb) ∧
      RaisedOnly { u with dev := { u.dev with arb := t.dev.arb } } t
        (ks ++ [STK_RING_ERR_CNT.sat.key 0 0, STK_RING_ERR_CNT.count.key 0 0, STK_EVT_STATUS.status.key 0 0]))

/-- Park, unpark, reassign and clear_inflight act for who may write them; IF_SEL latches a ring's entries; a lock is released by its
owner (R449, R452, R453, R454, R455, R458 (11_stokers_rings.md), read by inference (log entry 43)). Where the fabric lets the write
through: for the secure world RING_PARK parks a ring of the image with its event, RING_UNPARK unparks it, RING_REASSIGN puts
alternates in place of failed endpoints or raises RING_ERR, and none acts for the non-secure world; CLEAR_INFLIGHT by that world or
the producer removes the aborted entries alone; IF_SEL_WRITE shows the ring's 8 entries; LOCK_RELEASE frees the writer's lock, is
misuse from another. RING_ERR for a ring the image does not define, and a reassign that acts where no endpoint has failed, are read
by inference (log entry 43). -/
def Obligations.RingControlAndLocks : Prop :=
  (∀ (who : Initiator) (r : Nat) (s : State),
    let u := settled who (STK_RING_CTRL.ent.at_ r 0) s
    let sec := u.dev.secureOf who
    let ends := fun e alt => (if u.dev.endpointFailed e = true then alt else e) % 2 ^ 8
    Lets u who STK_RING_CTRL.ent r 0 →
    (sec = false → exec (.ringPark who r) s = .next u ∧ exec (.ringUnpark who r) s = .next u ∧ exec (.ringReassign who r) s = .next u) ∧
    (sec = true → u.dev.ringKnown r = true →
      (u.dev.rd STK_RING_CFG.parked r ≠ 0 → exec (.ringPark who r) s = .next u) ∧
      (u.dev.rd STK_RING_CFG.parked r = 0 → ∃ t, exec (.ringPark who r) s = .next t ∧ t.dev.rd STK_RING_CFG.parked r = 1 ∧
        RaisedOnly u t [STK_RING_CFG.parked.key r 0, STK_EVT_STATUS.status.key 0 0] ∧ t.dev.eventSet 450 = true)) ∧
    (sec = true → ∃ t, exec (.ringUnpark who r) s = .next t ∧ OnlyCells u t [STK_RING_CFG.parked.key r 0] ∧
      t.dev.rd STK_RING_CFG.parked r = 0) ∧
    (sec = true →
      let p := u.dev.producer r
      let c := u.dev.consumer r
      let ap := u.dev.rd STK_RING_ENDS.alt_producer r
      let ac := u.dev.rd STK_RING_ENDS.alt_consumer r
      let bad := u.dev.ringKnown r = false ∨ u.dev.unfitEndpoint p ap = true ∨ u.dev.unfitEndpoint c ac = true
      (bad → ∃ t, exec (.ringReassign who r) s = .next t ∧ t.dev.eventSet 451 = true ∧ Counted u t STK_RING_ERR_CNT.sat STK_RING_ERR_CNT.count 0 ∧
        RaisedOnly u t [STK_RING_ERR_CNT.sat.key 0 0, STK_RING_ERR_CNT.count.key 0 0, STK_EVT_STATUS.status.key 0 0]) ∧
      (¬ bad → ∃ t, exec (.ringReassign who r) s = .next t ∧
        OnlyCells u t [STK_RING_ENDS.producer.key r 0, STK_RING_ENDS.consumer.key r 0, STK_RING_CFG.reassigned.key r 0,
          STK_RING_NOTIFY.armed.key r 0] ∧
        t.dev.producer r = ends p ap ∧ t.dev.consumer r = ends c ac ∧ t.dev.rd STK_RING_CFG.reassigned r = 1 ∧
        t.dev.rd STK_RING_NOTIFY.armed r = 1)) ∧
    exec (.clearInflight who r) s = .next (if sec = true ∨ endpointOf who = some (u.dev.producer r) then
      onDev u (fun d => d.setJobs r ((d.jobsOf r).filter (fun j => j.state != 4))) else u)) ∧
  (∀ (who : Initiator) (v : Nat) (s : State),
    let u := settled who (STK_IF_SEL.ent.at_ 0 0) s
    Lets u who STK_IF_SEL.ent 0 0 → ∃ t, exec (.ifSelWrite who v) s = .next t ∧
      t = { u with dev := { u.dev with regs := t.dev.regs } } ∧ BlocksKept u t [12] ∧ t.dev.rd STK_IF_SEL.ring = v % 4096 ∧
      ∀ e < 8, (u.dev.jobAt (v % 4096) e = none → t.dev.rd STK_IF_ENTRY0.valid e = 0) ∧
        ∀ j, u.dev.jobAt (v % 4096) e = some j → t.dev.rd STK_IF_ENTRY0.valid e = 1 ∧ t.dev.rd STK_IF_ENTRY0.state e = j.state % 8 ∧
          t.dev.rd STK_IF_ENTRY0.index e = j.index % 2 ^ 16 ∧ t.dev.rd STK_IF_ENTRY1.progress e = lget j.progress 0 0 % 2 ^ 32) ∧
  ∀ (who : Initiator) (n v : Nat) (s : State),
    let u := settled who (STK_LOCK_REL.ent.at_ n 0) s
    let mine := endpointOf who = some (u.dev.rd STK_LOCK_ACQ.owner n)
    Lets u who STK_LOCK_REL.ent n 0 →
    (v.testBit 0 = false → exec (.lockRelease who n v) s = .next u) ∧
    (v.testBit 0 = true → mine → ∃ t, exec (.lockRelease who n v) s = .next t ∧ t.dev.rd STK_LOCK_ACQ.owner n = 0xFF ∧
      t.dev.rd STK_LOCK_ACQ.abandoned n = 0 ∧ OnlyCells u t [STK_LOCK_ACQ.owner.key n 0, STK_LOCK_ACQ.abandoned.key n 0]) ∧
    (v.testBit 0 = true → ¬ mine → ∃ t, exec (.lockRelease who n v) s = .next t ∧ t.dev.eventSet 453 = true ∧
      Counted u t STK_LOCK_MISUSE_CNT.sat STK_LOCK_MISUSE_CNT.count 0 ∧
      RaisedOnly u t [STK_LOCK_MISUSE_CNT.sat.key 0 0, STK_LOCK_MISUSE_CNT.count.key 0 0, STK_EVT_STATUS.status.key 0 0])

/-- A stoker executes the instruction in its local memory, or takes its interrupt or trap (R423, R424, R425, R426, R427
(11_stokers_rings.md), presumed (log entry 16), model's choices (log entries 18 and 21)). For a running stoker that waits for no
load: an interrupt that is pending and enabled is taken into machine mode at mtvec with the address kept; else the instruction of 2
or 4 bytes at its program counter acts by its decoding (the semantics are the RISC-V specification's, presumed: log entry 16):
register arithmetic, multiplication, LUI and AUIPC write one register and go on, JAL and JALR keep the next address and jump, a
branch goes where its condition says, loads and stores of 1, 2 or 4 bytes move local memory, LR, SC and AMO act on a word of it, a
CSR instruction reads and writes its CSR, MRET returns, WFI waits, ECALL, EBREAK and an undefined instruction trap, and so do an
access or a CSR that faults (the order of two faults is the model's choice: log entry 18); only that stoker's state changes. A word
of control space is read there, or posted; another size or alignment traps. An HBM load that finds room joins the queue of its
pseudo-channel's arbiter and holds the stoker, an HBM store joins it and the stoker goes on, a denied load reads 0x0BAD_F00D, and
one held back waits where it stands (how they queue is the model's choice: log entry 21). A FENCE of a stoker with no posted store
of its own waits where it stands while a store of its is short of its write queue, and else goes on. The stoker does nothing while a
load is on its way. -/
def Obligations.StokerInstructions : Prop :=
  (∀ (n : Nat) (s : State), (s.dev.core n).load.isSome = true → exec (.stokerInstruction n) s = .next s) ∧
  ∀ (n : Nat) (s : State), s.dev.stkRuns = true → (s.dev.core n).run = 1 → (s.dev.core n).load = none →
    let c := s.dev.core n
    let s1 := onDev s (fun d => d.setCore n c)
    let one := fun (t : State) => t = { s with dev := { s.dev with stk := t.dev.stk } } ∧ ∀ k, k ≠ n → t.dev.core k = s.dev.core k
    let regs := fun (t : State) (rd : Nat) (v : Word) =>
      (t.dev.core n).reg rd = (if rd = 0 then 0 else v) ∧ (∀ q, q ≠ rd → (t.dev.core n).reg q = c.reg q)
    let goesTo := fun (t : State) (rd : Nat) (v pc : Word) => exec (.stokerInstruction n) s = .next t ∧ one t ∧ (t.dev.core n).pc = pc ∧
      regs t rd v ∧ (t.dev.core n).mem = c.mem ∧ (t.dev.core n).csr = c.csr ∧ (t.dev.core n).resv = c.resv ∧
      (t.dev.core n).instret = (c.instret + 1) % 2 ^ 64
    let traps := fun (t : State) (cause : Nat) => exec (.stokerInstruction n) s = .next t ∧ one t ∧ (t.dev.core n).machine = true ∧
      (t.dev.core n).csrCell 0x341 = c.pc.toNat ∧ (t.dev.core n).csrCell 0x342 = cause ∧ (t.dev.core n).mie = false ∧
      (t.dev.core n).mpie = c.mie ∧ (t.dev.core n).mpp = (if c.machine = true then 3 else 0) ∧ (t.dev.core n).x = c.x ∧
      (t.dev.core n).mem = c.mem
    (∀ k, c.interrupt s.dev.ticks = some k → ∃ t, traps t (2 ^ 31 + k)) ∧
    (c.interrupt s.dev.ticks = none → c.fetchHalf c.pc.toNat = none → ∃ t, traps t 1) ∧
    (∀ h, c.interrupt s.dev.ticks = none → c.fetchHalf c.pc.toNat = some h → h % 4 = 3 → c.fetchHalf (c.pc.toNat + 2) = none →
      ∃ t, traps t 1) ∧
    ∀ w, c.interrupt s.dev.ticks = none → c.fetchHalf c.pc.toNat = some (w % 65536) →
      (w % 4 = 3 → w < 2 ^ 32 ∧ c.fetchHalf (c.pc.toNat + 2) = some (w / 65536)) → (w % 4 ≠ 3 → w < 65536) →
      let next := c.pc + (if w % 4 = 3 then 4 else 2)
      let goes := fun (t : State) (rd : Nat) (v : Word) => goesTo t rd v next
      (∀ f alt rd rs1 imm, rvDecode w = .opImm f alt rd rs1 imm → ∃ t, goes t rd (rvAlu f alt (c.reg rs1) imm)) ∧
      (∀ f alt rd rs1 rs2, rvDecode w = .op f alt rd rs1 rs2 → ∃ t, goes t rd (rvAlu f alt (c.reg rs1) (c.reg rs2))) ∧
      (∀ f rd rs1 rs2, rvDecode w = .muldiv f rd rs1 rs2 → ∃ t, goes t rd (rvMulDiv f (c.reg rs1) (c.reg rs2))) ∧
      (∀ rd imm, rvDecode w = .lui rd imm → ∃ t, goes t rd imm) ∧
      (∀ rd imm, rvDecode w = .auipc rd imm → ∃ t, goes t rd (c.pc + imm)) ∧
      (∀ rd off, rvDecode w = .jal rd off → ∃ t, goesTo t rd next (c.pc + off)) ∧
      (∀ rd rs1 off, rvDecode w = .jalr rd rs1 off → ∃ t, goesTo t rd next ((c.reg rs1 + off) &&& 0xFFFFFFFE)) ∧
      (∀ f rs1 rs2 off, rvDecode w = .branch f rs1 rs2 off → ∃ t, exec (.stokerInstruction n) s = .next t ∧ one t ∧
        (t.dev.core n).x = c.x ∧ (t.dev.core n).pc = (if rvTaken f (c.reg rs1) (c.reg rs2) = true then c.pc + off else next)) ∧
      (∀ f rd rs1 off, rvDecode w = .load f rd rs1 off → ∀ a z, a = (c.reg rs1 + off).toNat → z = rvSize f →
        (∀ e, c.dataFault a z false = some e → ∃ t, traps t e) ∧ (inControl a = true → z ≠ 4 ∨ a % 4 ≠ 0 → ∃ t, traps t 5) ∧
        (inLocal a = true → a % z = 0 → c.pmpOk c.dataMode 0 a z = true → ∃ t, goes t rd (rvExtend f (leNat (c.bytes a z)))) ∧
        (inControl a = true → z = 4 → a % 4 = 0 → c.pmpOk c.dataMode 0 a 4 = true →
          let r := controlRead (.stoker n) (a - 0x40000000) s1
          ∃ t, exec (.stokerInstruction n) s = .next t ∧ t = { r.1 with dev := { r.1.dev with stk := t.dev.stk } } ∧
            (sameCore c (r.1.dev.core n) = true → (t.dev.core n).pc = next ∧
              (t.dev.core n).reg rd = (if rd = 0 then 0 else BitVec.ofNat 32 r.2)) ∧ (sameCore c (r.1.dev.core n) = false → t = r.1)) ∧
        (∀ h i, inWindow a = true → a % z = 0 → c.pmpOk c.dataMode 0 a z = true → c.window ((a - 0x80000000) / 2 ^ 28) ≤ 191 →
          h = c.hbmAddr a → i = s.dev.physPch h →
          (s.dev.hbmAccess n false h = .queued → tget (s.dev.arbI i).held (24 + n / 16) [] = [] →
            ∃ t, exec (.stokerInstruction n) s = .next t ∧ SameStores s t ∧ (t.dev.core n).pc = c.pc ∧
            (t.dev.core n).x = c.x ∧ (t.dev.core n).load = some ⟨s.dev.stk.loads, f, rd, next⟩ ∧
            (t.dev.arbI i).queue (24 + n / 16) = (s.dev.arbI i).queue (24 + n / 16) ++
              [{ s.dev.coreTxn n false h z [] with stamp := (s.dev.arbI i).clock }]) ∧
          (s.dev.hbmAccess n false h = .held → ∃ t, exec (.stokerInstruction n) s = .next t ∧ SameStores s t ∧ t.dev.arb = s.dev.arb ∧
            (t.dev.core n).pc = c.pc ∧ (t.dev.core n).x = c.x ∧ (t.dev.core n).load = none) ∧
          (s.dev.hbmAccess n false h = .denied → ∃ t, exec (.stokerInstruction n) s = .next t ∧ SameStores s t ∧ t.dev.eventSet 323 = true ∧
            (t.dev.core n).pc = next ∧ regs t rd (rvExtend f (leNat (deniedBytes h z)))))) ∧
      (∀ f rs1 rs2 off, rvDecode w = .store f rs1 rs2 off → ∀ a z, a = (c.reg rs1 + off).toNat → z = rvSize f →
        (∀ e, c.dataFault a z true = some e → ∃ t, traps t e) ∧ (inControl a = true → z ≠ 4 ∨ a % 4 ≠ 0 → ∃ t, traps t 7) ∧
        (inLocal a = true → a % z = 0 → c.pmpOk c.dataMode 1 a z = true → ∃ t, exec (.stokerInstruction n) s = .next t ∧ one t ∧
          (t.dev.core n).x = c.x ∧ (t.dev.core n).bytes a z = leBytes z (c.reg rs2).toNat ∧
          (∀ b, b < a ∨ a + z ≤ b → (t.dev.core n).byte b = c.byte b) ∧ (t.dev.core n).pc = next) ∧
        (inControl a = true → z = 4 → a % 4 = 0 → c.pmpOk c.dataMode 1 a 4 = true →
          let u := postWrite n (a - 0x40000000) ((c.reg rs2).toNat % 2 ^ 32) s1
          ∃ t, exec (.stokerInstruction n) s = .next t ∧ t = { u with dev := { u.dev with stk := t.dev.stk } } ∧ (t.dev.core n).pc = next ∧
            ∀ e i j, regAt (a - 0x40000000) = some (e, i, j) →
              s1.dev.writeCase (.posted n (s.dev.secureOf (.stoker n))) e i j = .done → t.dev.regs = s.dev.regs ∧
              t.dev.posted = s.dev.posted ++ [⟨.posted n (s.dev.secureOf (.stoker n)), a - 0x40000000, (c.reg rs2).toNat % 2 ^ 32⟩]) ∧
        (∀ h i, inWindow a = true → a % z = 0 → c.pmpOk c.dataMode 1 a z = true → c.window ((a - 0x80000000) / 2 ^ 28) ≤ 191 →
          h = c.hbmAddr a → i = s.dev.physPch h →
          (s.dev.hbmAccess n true h = .queued → tget (s.dev.arbI i).held (24 + n / 16) [] = [] →
            ∃ t, exec (.stokerInstruction n) s = .next t ∧ SameStores s t ∧ (t.dev.core n).pc = next ∧ (t.dev.core n).x = c.x ∧
            (t.dev.arbI i).queue (24 + n / 16) = (s.dev.arbI i).queue (24 + n / 16) ++
              [{ s.dev.coreTxn n true h z (leBytes z (c.reg rs2).toNat) with stamp := (s.dev.arbI i).clock }]) ∧
          (s.dev.hbmAccess n true h = .held → ∃ t, exec (.stokerInstruction n) s = .next t ∧ SameStores s t ∧ t.dev.arb = s.dev.arb ∧
            (t.dev.core n).pc = c.pc ∧ (t.dev.core n).x = c.x) ∧
          (s.dev.hbmAccess n true h = .denied → ∃ t, exec (.stokerInstruction n) s = .next t ∧ SameStores s t ∧ t.dev.eventSet 323 = true ∧
            (t.dev.core n).pc = next ∧ (t.dev.core n).x = c.x))) ∧
      (∀ rd rs1, rvDecode w = .lr rd rs1 → ∀ a, a = (c.reg rs1).toNat →
        (inLocal a = false → ∃ t, traps t 7) ∧ (∀ e, c.atomicFault a false = some e → ∃ t, traps t e) ∧
        (c.atomicFault a false = none → ∃ t, exec (.stokerInstruction n) s = .next t ∧ one t ∧ regs t rd (c.word a) ∧
          (t.dev.core n).pc = next ∧ (t.dev.core n).mem = c.mem ∧ (t.dev.core n).resv = some a)) ∧
      (∀ rd rs1 rs2, rvDecode w = .sc rd rs1 rs2 → ∀ a, a = (c.reg rs1).toNat →
        (inLocal a = false → ∃ t, traps t 7) ∧ (∀ e, c.atomicFault a true = some e → ∃ t, traps t e) ∧
        (c.atomicFault a true = none → ∃ t, exec (.stokerInstruction n) s = .next t ∧ one t ∧ (t.dev.core n).pc = next ∧
          (t.dev.core n).resv = none ∧ regs t rd (if c.resv = some a then 0 else 1) ∧
          (c.resv = some a → (t.dev.core n).word a = c.reg rs2 ∧ ∀ b, b < a ∨ a + 4 ≤ b → (t.dev.core n).byte b = c.byte b) ∧
          (c.resv ≠ some a → (t.dev.core n).mem = c.mem))) ∧
      (∀ f5 rd rs1 rs2, rvDecode w = .amo f5 rd rs1 rs2 → ∀ a, a = (c.reg rs1).toNat →
        (inLocal a = false → ∃ t, traps t 7) ∧ (∀ e, c.atomicFault a true = some e → ∃ t, traps t e) ∧
        (c.atomicFault a true = none → ∃ t, exec (.stokerInstruction n) s = .next t ∧ one t ∧ (t.dev.core n).pc = next ∧
          regs t rd (c.word a) ∧ (t.dev.core n).word a = rvAmoOp f5 (c.word a) (c.reg rs2) ∧
          ∀ b, b < a ∨ a + 4 ≤ b → (t.dev.core n).byte b = c.byte b)) ∧
      (∀ f rd rs1 k, rvDecode w = .csr f rd rs1 k →
        let v := if 4 < f then rs1 else (c.reg rs1).toNat
        let writes := f % 4 = 1 ∨ rs1 ≠ 0
        (c.csrValue n s.dev.ticks k = none ∨ c.csrAllowed k = false ∨ (writes ∧ k / 1024 = 3) → ∃ t, traps t 2) ∧
        ∀ old, c.csrValue n s.dev.ticks k = some old → c.csrAllowed k = true → ¬ (writes ∧ k / 1024 = 3) →
          let new := (if f % 4 = 1 then v else if f % 4 = 2 then old ||| v else clearBits old v) % 2 ^ 32
          ∃ t, exec (.stokerInstruction n) s = .next t ∧ one t ∧ (t.dev.core n).pc = next ∧ (t.dev.core n).mem = c.mem ∧
            regs t rd (BitVec.ofNat 32 old) ∧ (k = 0x7D0 → rd ≠ 0 → (t.dev.core n).claim = c.claim.drop 1) ∧
            (writes → (t.dev.core n).csr = (c.csrWrite s.dev.ticks k new).csr) ∧ (¬ writes → (t.dev.core n).csr = c.csr)) ∧
      (rvDecode w = .fence → (∀ p ∈ s.dev.posted, initCode p.who ≠ initCode (.stoker n)) →
        (s.dev.storesWait n = true → ∃ t, exec (.stokerInstruction n) s = .next t ∧ one t ∧ t.dev.core n = c) ∧
        (s.dev.storesWait n = false → ∃ t, goes t 0 0)) ∧
      (rvDecode w = .fenceI → ∃ t, goes t 0 0) ∧ (rvDecode w = .ecall → ∃ t, traps t (if c.machine = true then 11 else 8)) ∧
      (rvDecode w = .ebreak → ∃ t, traps t 3) ∧ (rvDecode w = .illegal → ∃ t, traps t 2) ∧
      (rvDecode w = .mret → (c.machine = false → ∃ t, traps t 2) ∧ (c.machine = true →
        ∃ t, exec (.stokerInstruction n) s = .next t ∧ one t ∧ (t.dev.core n).pc = BitVec.ofNat 32 (c.csrCell 0x341) ∧
          (t.dev.core n).machine = decide (c.mpp = 3) ∧ (t.dev.core n).mie = c.mpie ∧ (t.dev.core n).x = c.x)) ∧
      (rvDecode w = .wfi → (c.machine = false → c.tw = true → ∃ t, traps t 2) ∧ (c.machine = true ∨ c.tw = false →
        ∃ t, exec (.stokerInstruction n) s = .next t ∧ one t ∧ (t.dev.core n).pc = next ∧ (t.dev.core n).x = c.x ∧
          (t.dev.core n).run = (if c.ready s.dev.ticks = 0 then 2 else 1)))

/-- The CSR commands of a stoker, its fence and its timer (R423, R425, R427, R428, R429, R431 (11_stokers_rings.md), model's choices
(log entries 19, 20, 21)). For a running stoker in machine mode: CLAIM_READ removes the oldest entry of its claim queue into a
register; CLAIMCTL_WRITE with bit 0 clears the overflow flag; WDKICK_WRITE notes the time of the kick; HBMWIN_WRITE sets the
window's base; each goes on by 4 bytes. In user mode each traps as an illegal instruction. STOKER_FENCE with no store of the stoker
waiting goes on, and waits where one has not reached its write queue. MACHINE_TIMER_INTERRUPT wakes the stoker at mtimecmp. That
each row is an instruction of 4 bytes that retires (log entry 19), that the timer row wakes the stoker whatever mie holds (20), and
what a fence waits for at the arbiter (21) are the model's choices. -/
def Obligations.StokerRegisters : Prop :=
  (∀ (n v w rd : Nat) (cmd : Instr) (s : State), s.dev.executes n = true → w < 4 → rd < 32 →
    let c := s.dev.core n
    (cmd = .claimRead n rd ∨ cmd = .claimctlWrite n v ∨ cmd = .wdkickWrite n ∨ cmd = .hbmwinWrite n w v) →
    ∃ t, exec cmd s = .next t ∧ t = { s with dev := { s.dev with stk := t.dev.stk, free := t.dev.free } } ∧
      (∀ k, k ≠ n → t.dev.core k = s.dev.core k) ∧
      let x := t.dev.core n
      (c.machine = true → x.pc = c.pc + 4 ∧ x.instret = (c.instret + 1) % 2 ^ 64 ∧ x.mem = c.mem ∧
        (cmd = .claimRead n rd → x.claim = c.claim.drop 1 ∧ x.reg rd = (if rd = 0 then 0 else BitVec.ofNat 32 c.claimWord) ∧
          (∀ q, q ≠ rd → x.reg q = c.reg q) ∧ x.csr = c.csr) ∧
        (cmd ≠ .claimRead n rd → x.x = c.x ∧ x.claim = c.claim) ∧
        (cmd = .claimctlWrite n v → x.overflow = (c.overflow && ! v.testBit 0) ∧ x.csr = c.csr) ∧
        (cmd = .wdkickWrite n → x.kicked = s.dev.ticks ∧ x.csr = c.csr) ∧
        (cmd = .hbmwinWrite n w v → x.window w = v % 256 ∧ ∀ k, k ≠ 0x7C0 + w → x.csrCell k = c.csrCell k)) ∧
      (c.machine = false → x.machine = true ∧ x.csrCell 0x342 = 2 ∧ x.csrCell 0x341 = c.pc.toNat ∧ x.x = c.x ∧ x.kicked = c.kicked)) ∧
  (∀ (n : Nat) (s : State), s.dev.executes n = true → (∀ p ∈ s.dev.posted, initCode p.who ≠ initCode (.stoker n)) →
    (s.dev.storesWait n = true → exec (.stokerFence n) s = .next s) ∧
    (s.dev.storesWait n = false → ∃ t, exec (.stokerFence n) s = .next t ∧ t = { s with dev := { s.dev with stk := t.dev.stk } } ∧
      (∀ k, k ≠ n → t.dev.core k = s.dev.core k) ∧
      t.dev.core n = { s.dev.core n with
        pc := (s.dev.core n).pc + 4, instret := ((s.dev.core n).instret + 1) % 2 ^ 64, stall := false })) ∧
  ∀ (n : Nat) (s : State), s.dev.stkRuns = true → (s.dev.core n).alive = true →
    ∃ t, exec (.machineTimerInterrupt n) s = .next t ∧ SameStores s t ∧ t.dev.regs = s.dev.regs ∧
      t.dev.core n = { s.dev.core n with run := 1 } ∧ (s.dev.core n).released + ((s.dev.core n).timecmp + 3) / 4 ≤ t.dev.ticks

/-- A stoker fails by watchdog, ECC error or command, and is restarted (R431, R432, R436 (11_stokers_rings.md), read by inference
(log entry 22), model's choice (log entry 11)). STOKER_WATCHDOG_EXPIRY of a set period, STOKER_ECC_ERROR not corrected and
STOKER_FORCE_FAIL each leave a stoker that had not failed failed, with the cause 1, 2 or 3 and its program counter shown, its event
raised, its rings parked and its locks abandoned, where no supervisor reset follows. STOKER_RESET, without force_fail, restarts a
running stoker at 0 with its local memory and frees its locks. No store changes. That force_fail fails a held stoker too and wins
over reset, and that ECC and watchdog take a released stoker only, is log entry 22's reading; the watchdog's row waits for the
period's end (log entry 11). -/
def Obligations.StokerFailures : Prop :=
  let notified := fun (x : StkCore) (y : StkCore) => { x with claim := y.claim, overflow := y.overflow, waiting := y.waiting }
  let fails := fun (s t : State) (n cause : Nat) => SameStores s t ∧
    t.dev.core n = notified { s.dev.core n with run := 3, resv := none, load := none } (t.dev.core n) ∧
    t.dev.rd STK_LAST_FAULT.cause = cause ∧ t.dev.rd STK_LAST_FAULT.stoker = n ∧ t.dev.rd STK_STOKER_PC.pc n = (s.dev.core n).pc.toNat ∧
    t.dev.eventSet (if n = 0 then 449 else 448) = true ∧
    (∀ r ∈ s.dev.img.rings.rings, s.dev.producer r.1 = n ∨ s.dev.consumer r.1 = n → t.dev.rd STK_RING_CFG.parked r.1 ≠ 0) ∧
    ∀ k < 256, s.dev.rd STK_LOCK_ACQ.owner k = n → t.dev.rd STK_LOCK_ACQ.owner k = 0xFF ∧ t.dev.rd STK_LOCK_ACQ.abandoned k = 1 ∧
      t.dev.rd STK_LOCK_ACQ.last_owner k = n
  (∀ (n fuses : Nat) (s : State), n < 64 → s.dev.stkRuns = true → (s.dev.core n).alive = true →
    (n = 0 → s.dev.img.secure.supReset = false) → (∀ r ∈ s.dev.img.rings.rings, r.1 < 4096) →
    (s.dev.rd STK_STOKER_WDT.period_ms n ≠ 0 → ∃ t, exec (.stokerWatchdogExpiry n fuses) s = .next t ∧ fails s t n 1 ∧
      (s.dev.core n).kicked + msTicks (s.dev.rd STK_STOKER_WDT.period_ms n) ≤ t.dev.ticks) ∧
    (∃ t, exec (.stokerEccError n false fuses) s = .next t ∧ fails s t n 2) ∧
    exec (.stokerEccError n true fuses) s = .next s) ∧
  ∀ (who : Initiator) (n v fuses : Nat) (s : State),
    let u := settled who (STK_STOKER_CTRL.ent.at_ n 0) s
    Lets u who STK_STOKER_CTRL.ent n 0 →
    ((u.dev.core n).run = 3 → exec (.stokerForceFail who n v fuses) s = .next u) ∧
    ((u.dev.core n).run ≠ 3 → (n = 0 → u.dev.img.secure.supReset = false) → (∀ r ∈ u.dev.img.rings.rings, r.1 < 4096) →
      ∃ t, exec (.stokerForceFail who n v fuses) s = .next t ∧ fails u t n 3) ∧
    (v.testBit 30 = false → (u.dev.core n).alive = true → ∃ t, exec (.stokerReset who n v fuses) s = .next t ∧ SameStores u t ∧
      t.dev.core n = notified { StkCore.init with mem := (u.dev.core n).mem, run := 1, released := u.dev.ticks, kicked := u.dev.ticks }
        (t.dev.core n) ∧
      ∀ k < 256, u.dev.rd STK_LOCK_ACQ.owner k = n → t.dev.rd STK_LOCK_ACQ.owner k = 0xFF ∧ t.dev.rd STK_LOCK_ACQ.abandoned k = 1)

/-- The PCIe link and the Ethernet ports come and go (R463 (12_network_time.md), R453, R459 (11_stokers_rings.md), R518
(13_security.md), R576 (15_reset_power_faults.md), model's choice (log entry 145)). PCIE_LINK_LOSS of an up link parks every ring
with a host endpoint, frees the host's locks as abandoned and closes the mailbox session; PCIE_FLR does the same but for the rings;
PCIE_LINK_UP brings the link up while its reference is present, and in smoulder and a held reset does nothing. ETH_LINK_UP of an
enabled port whose reference is present sets its status bits and event, and with the reference lost does nothing; ETH_LINK_DOWN and
a restart clear them with the event, unsend the port's frames and negotiate again; AN_RESTART stores enable; that clearing it takes
an up port down is the model's choice (log entry 145). Of the kiln only the memory of a boundary that has ended goes. No store
changes. -/
def Obligations.HostAndEthernetLinks : Prop :=
  let freed := fun (s t : State) => ∀ k < 256, s.dev.rd STK_LOCK_ACQ.owner k = 0x40 ∨ s.dev.rd STK_LOCK_ACQ.owner k = 0x41 →
    t.dev.rd STK_LOCK_ACQ.owner k = 0xFF ∧ t.dev.rd STK_LOCK_ACQ.abandoned k = 1
  let down := fun (t : State) (e : Nat) => t.dev.rd NET_ETH_STATUS.up e = 0 ∧ t.dev.rd NET_ETH_STATUS.pcs_locked e = 0 ∧
    t.dev.rd NET_ETH_STATUS.fec_aligned e = 0 ∧ t.dev.eventSet 481 = true ∧ ∀ x ∈ t.dev.net.tx, x.port = e → x.sent = false
  let boundaryEnds := fun (s t : State) => t.dev.kln = { s.dev.kln with moved := t.dev.kln.moved } ∧ ∀ k ∈ t.dev.kln.moved, k ∈ s.dev.kln.moved
  (∀ s : State, (s.dev.stk.pcieUp = false → exec .pcieLinkLoss s = .next s) ∧
    (s.dev.stk.pcieUp = true → (∀ r ∈ s.dev.img.rings.rings, r.1 < 4096) →
      ∃ t, exec .pcieLinkLoss s = .next t ∧ SameStores s t ∧ t.dev.stk.pcieUp = false ∧ t.dev.rd SEC_STATUS.mbx_open = 0 ∧ freed s t ∧
        ∀ r ∈ s.dev.img.rings.rings, s.dev.producer r.1 = 0x40 ∨ s.dev.producer r.1 = 0x41 ∨ s.dev.consumer r.1 = 0x40 ∨
          s.dev.consumer r.1 = 0x41 → t.dev.rd STK_RING_CFG.parked r.1 ≠ 0) ∧
    (∃ t, exec .pcieFlr s = .next t ∧ SameStores s t ∧ t.dev.rd SEC_STATUS.mbx_open = 0 ∧ freed s t ∧ t.dev.stk.pcieUp = s.dev.stk.pcieUp ∧
      ∀ r < 4096, t.dev.rd STK_RING_CFG.parked r = s.dev.rd STK_RING_CFG.parked r) ∧
    let shut := s.dev.glb.clocksLost.testBit 5 = true ∨ s.dev.glb.phase = .smoulder ∨ s.dev.glb.phase = .held
    (shut → exec .pcieLinkUp s = .next s) ∧
    (¬ shut →
      ∃ t, exec .pcieLinkUp s = .next t ∧ boundaryEnds s t ∧
        t = { s with dev := { s.dev with stk := { s.dev.stk with pcieUp := true }, kln := t.dev.kln } })) ∧
  (∀ (e : Nat) (s : State), s.dev.ethOn e = true →
    (s.dev.glb.clocksLost.testBit 4 = true → exec (.ethLinkUp e) s = .next s) ∧
    (s.dev.rd NET_ETH_CTRL.enable e ≠ 0 → s.dev.ethUp e = false → s.dev.glb.clocksLost.testBit 4 = false → ∃ t, exec (.ethLinkUp e) s = .next t ∧ t.dev.ethUp e = true ∧
      t.dev.rd NET_ETH_STATUS.pcs_locked e = 1 ∧ t.dev.rd NET_ETH_STATUS.fec_aligned e = 1 ∧ t.dev.eventSet 480 = true ∧
      boundaryEnds s t ∧ RaisedOnly { s with dev := { s.dev with kln := t.dev.kln } } t [NET_ETH_STATUS.an_done.key e 0, NET_ETH_STATUS.trained.key e 0, NET_ETH_STATUS.fec_aligned.key e 0,
        NET_ETH_STATUS.pcs_locked.key e 0, NET_ETH_STATUS.up.key e 0, NET_EVT_STATUS.status.key 0 0]) ∧
    (s.dev.ethUp e = true → ∃ t, exec (.ethLinkDown e) s = .next t ∧ SameStores s t ∧ down t e ∧
      (s.dev.rd NET_ETH_CTRL.enable e ≠ 0 → t.dev.out.head? = some (.negotiate e)))) ∧
  ∀ (who : Initiator) (e v : Nat) (s : State),
    let u := settled who (NET_ETH_CTRL.ent.at_ e 0) s
    Lets u who NET_ETH_CTRL.ent e 0 → ∃ t, exec (.anRestart who e v) s = .next t ∧ SameStores u t ∧
      t.dev.rd NET_ETH_CTRL.enable e = b2n (v.testBit 0) ∧
      (v.testBit 31 = true ∨ (v.testBit 0 = false ∧ u.dev.ethUp e = true) → down t e) ∧
      (v.testBit 31 = true → v.testBit 0 = true → t.dev.out.head? = some (.negotiate e)) ∧
      (v.testBit 31 = false → v.testBit 0 = true ∨ u.dev.ethUp e = false → OnlyCells u t [NET_ETH_CTRL.enable.key e 0])

/-- A frame is counted out by its first fault or queued; queue slots are written, sent and advanced (R464, R465, R468, R469, R470,
R479, R484 (12_network_time.md), model's choices (log entries 53 and 142), read by inference (log entry 52)). For an up Ethernet
port: a frame of the wrong size, with a bad FCS, of EtherType 0x8808, not addressed to the port, fragmented, with a bad checksum or
of no destination counts in that cause's counter and changes nothing else; a control frame joins the port's queue or, at a full
queue or over 1,984 bytes, is dropped, counted and raised. A PTP message joins the queue of the time base that takes it, with its
stamp unless 16 are pending, which is counted and raised, and one that no time base takes is counted out; a datagram of ingest does
what its command of ingest does. A delivered slot is written, and nothing else, with head advanced; the next transmit slot after
those under way is taken when its queue's turn has come, an event message that finds 16 stamps pending raised; at its completion its
frame has left with its FCS unless it was not sent, its header is written and tail advances; an index write moves its owner's index
within the queue's fill. That several frames of a queue can be under way (log entry 142), that a row out of turn changes nothing and
that a dropped index write counts as a ring error (53) are the model's choices; the order of the tests of R465 is read by inference
(52). -/
def Obligations.FramesAndQueues : Prop :=
  (∀ (e : Nat) (b : List Byte) (pe me : Int) (s : State), s.dev.ethOn e = true → s.dev.ethUp e = true →
    let f := ethParse (b.take (b.length - 4))
    let counts := fun (sat cnt : Fld) => ∃ t, exec (.ethFrameReceive e b pe me) s = .next t ∧ OnlyCells s t [sat.key e 0, cnt.key e 0] ∧
      Counted s t sat cnt e
    (b.length < 64 ∨ 9216 < b.length → counts NET_ETH_SIZE_ERR_CNT.sat NET_ETH_SIZE_ERR_CNT.count) ∧
    (64 ≤ b.length → b.length ≤ 9216 →
      (fcsOk b = false → counts NET_ETH_FCS_ERR_CNT.sat NET_ETH_FCS_ERR_CNT.count) ∧
      (fcsOk b = true → f.etype = 0x8808 → counts NET_ETH_MACCTL_DROP_CNT.sat NET_ETH_MACCTL_DROP_CNT.count) ∧
      (fcsOk b = true → f.etype ≠ 0x8808 →
        let good := s.dev.macAdmitted e (beAt b 0 6) = true ∧ s.dev.vlanAdmitted e f.vid = true
        (¬ good → counts NET_ETH_FILTER_DROP_CNT.sat NET_ETH_FILTER_DROP_CNT.count) ∧
        (good → s.dev.ethClassify e f = .fragment → counts NET_ETH_FRAG_DROP_CNT.sat NET_ETH_FRAG_DROP_CNT.count) ∧
        (good → s.dev.ethClassify e f = .checksum → counts NET_ETH_CSUM_ERR_CNT.sat NET_ETH_CSUM_ERR_CNT.count) ∧
        (good → s.dev.ethClassify e f = .untyped → counts NET_ETH_TYPE_DROP_CNT.sat NET_ETH_TYPE_DROP_CNT.count) ∧
        let full := fun (q : Nat) => 1984 < f.bytes.length ∨ s.dev.qSize q ≤ s.dev.qFill q + s.dev.net.rx.countP (fun x => x.queue == q)
        let drops := fun (q : Nat) => ∃ t, exec (.ethFrameReceive e b pe me) s = .next t ∧ t.dev.eventSet 490 = true ∧
          Counted s t NET_Q_DROP_CNT.sat NET_Q_DROP_CNT.count q ∧
          RaisedOnly s t [NET_Q_DROP_CNT.sat.key q 0, NET_Q_DROP_CNT.count.key q 0, NET_EVT_STATUS.status.key 0 0]
        let joins := fun (q : Nat) (stamped : Bool) => ∃ t x, exec (.ethFrameReceive e b pe me) s = .next t ∧
          t = onDev s (fun d => { d with net := { d.net with rx := d.net.rx ++ [x] } }) ∧ x.queue = q ∧ x.port = e ∧
          x.event = stamped ∧ x.ovf = false ∧ (s.dev.rd NET_EVT_TB.tb < 4 → (leAt x.bytes 0 4).testBit 24 = stamped) ∧ x.bytes.drop 64 = f.bytes
        (good → s.dev.ethClassify e f = .control → (full (4 + e) → drops (4 + e)) ∧ (¬ full (4 + e) → joins (4 + e) false)) ∧
        (∀ o tr, good → s.dev.ethClassify e f = .ptp o tr →
          let msg := f.bytes.drop o
          let noRoom := 16 ≤ pendingStamps s.dev.net.rx e
          (s.dev.ptpQueue e tr msg = none → counts NET_ETH_PTP_DROP_CNT.sat NET_ETH_PTP_DROP_CNT.count) ∧
          ∀ q, s.dev.ptpQueue e tr msg = some q → (full q → drops q) ∧
            (¬ full q → (ptpEvent msg = false ∨ ¬ noRoom → joins q (ptpEvent msg)) ∧
              (ptpEvent msg = true → noRoom → ∃ t x, exec (.ethFrameReceive e b pe me) s = .next t ∧ t.dev.eventSet 489 = true ∧
                Counted s t NET_ETH_STAMP_OVF_CNT.sat NET_ETH_STAMP_OVF_CNT.count e ∧ t.dev.net.rx = s.dev.net.rx ++ [x] ∧ x.queue = q ∧
                x.port = e ∧ x.event = false ∧ x.ovf = true ∧ x.bytes.drop 64 = f.bytes))) ∧
        (∀ udp o len cmd, good → s.dev.ethClassify e f = .ingest udp o len →
          (cmd = .framePacket e udp (slice f.bytes o len) ∨ cmd = .dataPacket e udp (slice f.bytes o len) ∨
            cmd = .parityPacket e udp (slice f.bytes o len)) → exec (.ethFrameReceive e b pe me) s = exec cmd s)))) ∧
  (∀ (q : Nat) (x : EthSlot) (s : State), s.dev.netRuns = true → q < 8 → s.dev.net.rx.find? (fun x => x.queue == q) = some x →
    ∃ t, exec (.controlQueueDeliver q) s = .next t ∧ KeepsRest s t ∧ t.dev.net.rx = s.dev.net.rx.erase x ∧ t.dev.eventSet (496 + q) = true ∧
      t.dev.rd NET_Q_HEAD.index q = (x.index + 1) % s.dev.qMod q % 2 ^ 13 ∧
      (Memory.wf s.hbm = true → HbmKept s t [(s.dev.qAddr q x.index, x.bytes.length)])) ∧
  (∀ (q : Nat) (s : State), s.dev.netRuns = true → 8 ≤ q → q < 16 →
    (s.dev.qFill q ≤ s.dev.txUnderWay q ∨ s.dev.txTurn q = false → exec (.transmitFrame q) s = .next s) ∧
    (s.dev.txUnderWay q < s.dev.qFill q → s.dev.txTurn q = true →
      let i := (s.dev.rd NET_Q_TAIL.index q + s.dev.txUnderWay q) % s.dev.qMod q
      let h := netRead s (s.dev.qAddr q i) 64
      let len := leAt h.2.2 0 4 % 2 ^ 16
      let port := bits (leAt h.2.2 0 4) 17 16
      let f := netRead h.1 (s.dev.qAddr q i + 64) len
      ∃ t x, exec (.transmitFrame q) s = .next t ∧ SameStores s t ∧ t.dev.net.tx = s.dev.net.tx ++ [x] ∧ t.dev.net.turn = q ∧ x.queue = q ∧ x.index = i ∧
        x.port = port ∧ x.bytes = h.2.2 ∧ (len < 14 ∨ 1984 < len ∨ s.dev.ethUp port = false → x.sent = false) ∧
        (x.ovf = true → 16 ≤ pendingStamps s.dev.net.tx port ∧ t.dev.eventSet 489 = true ∧
          Counted s t NET_ETH_STAMP_OVF_CNT.sat NET_ETH_STAMP_OVF_CNT.count port) ∧
        (h.2.1 = false → f.2.1 = false → 14 ≤ len → len ≤ 1984 → s.dev.ethUp port = true →
          x.sent = true ∧ x.frame = f.2.2 ∧ (x.ovf = false → t.dev.out = s.dev.out)))) ∧
  (∀ (q : Nat) (pe me : Int) (x : EthSlot) (s : State), s.dev.netRuns = true → q < 16 →
    s.dev.net.tx.find? (fun x => x.queue == q) = some x → x.bytes.length = 64 →
    ∃ t, exec (.transmitComplete q pe me) s = .next t ∧ KeepsRest s t ∧ t.dev.net.tx = s.dev.net.tx.erase x ∧
      t.dev.out.count (.eth x.port (withFcs x.frame)) = s.dev.out.count (.eth x.port (withFcs x.frame)) + b2n x.sent ∧ t.dev.eventSet (496 + q) = true ∧ t.dev.rd NET_Q_TAIL.index q = (x.index + 1) % s.dev.qMod q % 2 ^ 13 ∧
      (Memory.wf s.hbm = true → HbmKept s t [(s.dev.qAddr q x.index, 64)])) ∧
  ∀ (who : Initiator) (q v : Nat) (head : Bool) (s : State),
    let e := if head then NET_Q_HEAD.ent else NET_Q_TAIL.ent
    let g := if head then NET_Q_HEAD.index else NET_Q_TAIL.index
    let u := settled who (e.at_ q 0) s
    Lets u who e q 0 →
    let m := u.dev.qMod q
    let adv := (v % 2 ^ 13 % m + m - u.dev.rd g q % m) % m
    let ok := endpointOf who = some (u.dev.rd NET_Q_CFG.owner q) ∧ (u.dev.rd NET_Q_CFG.dir q ≠ 0 ↔ head = true) ∧
      (if head = true then 1 ≤ adv ∧ adv ≤ u.dev.qSize q - u.dev.qFill q else adv ≤ u.dev.qFill q)
    (ok → ∃ t, exec (.queueIndexWrite who q head v) s = .next t ∧ OnlyCells u t [g.key q 0] ∧ t.dev.rd g q = v % 2 ^ 13 % m) ∧
    (¬ ok → ∃ t, exec (.queueIndexWrite who q head v) s = .next t ∧ t.dev.eventSet 451 = true ∧
      Counted u t STK_RING_ERR_CNT.sat STK_RING_ERR_CNT.count 0 ∧
      RaisedOnly u t [STK_RING_ERR_CNT.sat.key 0 0, STK_RING_ERR_CNT.count.key 0 0, STK_EVT_STATUS.status.key 0 0])

/-- A time base takes rates, steps, sets and disciplines, refuses them under genlock, and is snapped with the others (R472, R473,
R476, R477, R478 (12_network_time.md), read by inference (log entry 54), model's choice (log entry 11)). Where the fabric lets the
write through: a rate is stored, a step moves the time base by its size, a set loads it, each step with its size noted and its
event; under genlock each only sets wr_dropped, and a set with nanoseconds out of range sets set_refused. TB_DISCIPLINE_WRITE puts a
discipline in force, GENLOCK starting acquisition. SNAPSHOT_TAKE records all four time bases within 1 ns. GENLOCK_LOST leaves
holdover, with its event. That a set under genlock sets wr_dropped is read by inference (log entry 54); that the row of GENLOCK_LOST
happens at the end of its wait is the model's choice (log entry 11). No store changes. -/
def Obligations.TimeBases : Prop :=
  (∀ (who : Initiator) (b v : Nat) (s : State),
    let u := settled who (NET_TB_RATE.ent.at_ b 0) s
    Lets u who NET_TB_RATE.ent b 0 → ∃ t, exec (.tbRateWrite who b v) s = .next t ∧
      (u.dev.rd NET_TB_CTRL.discipline b = 2 → OnlyCells u t [NET_TB_STATUS.wr_dropped.key b 0] ∧ t.dev.rd NET_TB_STATUS.wr_dropped b = 1) ∧
      (u.dev.rd NET_TB_CTRL.discipline b ≠ 2 → OnlyCells u t [NET_TB_RATE.rate.key b 0] ∧ t.dev.rd NET_TB_RATE.rate b = v % 2 ^ 32)) ∧
  (∀ (who : Initiator) (b v : Nat) (s : State),
    let u := settled who (NET_TB_STEP_CTRL.ent.at_ b 0) s
    Lets u who NET_TB_STEP_CTRL.ent b 0 →
    let delta : Int := toS 32 (u.dev.rd NET_TB_STEP_NS.step_ns b) * 65536 + ((v % 2 ^ 16 : Nat) : Int)
    ∃ t, exec (.tbStepGo who b v) s = .next t ∧ SameStores u t ∧ t.dev.rd NET_TB_STEP_CTRL.frac b = v % 2 ^ 16 ∧
      (v.testBit 31 = false → OnlyCells u t [NET_TB_STEP_CTRL.frac.key b 0]) ∧
      (v.testBit 31 = true → u.dev.rd NET_TB_CTRL.discipline b = 2 →
        OnlyCells u t [NET_TB_STEP_CTRL.frac.key b 0, NET_TB_STATUS.wr_dropped.key b 0] ∧ t.dev.rd NET_TB_STATUS.wr_dropped b = 1) ∧
      (v.testBit 31 = true → u.dev.rd NET_TB_CTRL.discipline b ≠ 2 → t.dev.eventSet 482 = true ∧
        ((t.dev.tb b).val : Int) = (((u.dev.tb b).val : Nat) + delta * 2 ^ 32) % ((tbModulus : Nat) : Int) ∧
        t.dev.rd NET_TB_LAST_STEP.step_ns b = stepField delta ∧ ∀ c, c ≠ b → t.dev.tb c = u.dev.tb c)) ∧
  (∀ (who : Initiator) (b v : Nat) (cmd : Instr) (s : State), (cmd = .tbSet who b v ∨ cmd = .tbDisciplineWrite who b v) →
    let u := settled who (NET_TB_CTRL.ent.at_ b 0) s
    Lets u who NET_TB_CTRL.ent b 0 →
    let dis := if bits v 1 0 = 3 then u.dev.rd NET_TB_CTRL.discipline b else bits v 1 0
    ∃ t, exec cmd s = .next t ∧ SameStores u t ∧ t.dev.rd NET_TB_CTRL.discipline b = dis ∧ t.dev.rd NET_TB_CTRL.gl_input b = bits v 6 4 ∧
      (bits v 9 8 ≠ 3 → t.dev.rd NET_TB_CTRL.bandwidth b = bits v 9 8) ∧ (dis ≠ 2 → t.dev.rd NET_TB_CTRL.state b = bits v 29 28) ∧
      (dis = 2 → u.dev.rd NET_TB_CTRL.discipline b ≠ 2 → t.dev.rd NET_TB_CTRL.state b = 1 ∧ (t.dev.tb b).good = 0) ∧
      (v.testBit 31 = false → (t.dev.tb b).val = (u.dev.tb b).val) ∧
      (v.testBit 31 = true → dis = 2 → t.dev.rd NET_TB_STATUS.wr_dropped b = 1 ∧ (t.dev.tb b).val = (u.dev.tb b).val) ∧
      (v.testBit 31 = true → dis ≠ 2 → 999999999 < u.dev.rd NET_TB_SET1.nanoseconds b →
        t.dev.rd NET_TB_STATUS.set_refused b = 1 ∧ (t.dev.tb b).val = (u.dev.tb b).val) ∧
      (v.testBit 31 = true → dis ≠ 2 → u.dev.rd NET_TB_SET1.nanoseconds b ≤ 999999999 →
        t.dev.eventSet 482 = true ∧ (t.dev.tb b).val = u.dev.tbSetValue b * 2 ^ 32 % tbModulus)) ∧
  (∀ (who : Initiator) (v : Nat) (s : State),
    let u := settled who (NET_SNAP_CTRL.ent.at_ 0 0) s
    Lets u who NET_SNAP_CTRL.ent 0 0 → (v.testBit 31 = false → exec (.snapshotTake who v) s = .next u) ∧
      (v.testBit 31 = true → ∃ t, exec (.snapshotTake who v) s = .next t ∧ t = { u with dev := { u.dev with regs := t.dev.regs, free := u.dev.free + 4 } } ∧
        BlocksKept u t [13] ∧ t.dev.rd NET_SNAP_CTRL.valid = 1 ∧
        ∀ b < 4, ((u.dev.snapTime b : Nat) : Int) ≤ ((u.dev.tbNow b : Nat) : Int) + 65536 ∧ (u.dev.tbNow b : Int) ≤ u.dev.snapTime b + 65536 ∧
          t.dev.rd NET_TB_SNAP0.fraction b = tFraction (u.dev.snapTime b) ∧ t.dev.rd NET_TB_SNAP1.nanoseconds b = tNanos (u.dev.snapTime b) ∧
          t.dev.rd NET_TB_SNAP2.seconds_lo b = tSeconds (u.dev.snapTime b) % 2 ^ 32 ∧
          t.dev.rd NET_TB_SNAP3.seconds_hi b = tSeconds (u.dev.snapTime b) / 2 ^ 32 % 65536)) ∧
  ∀ (b : Nat) (s : State), s.dev.tbRuns b = true → s.dev.rd NET_TB_CTRL.discipline b = 2 →
    s.dev.rd NET_TB_CTRL.state b = 1 ∨ s.dev.rd NET_TB_CTRL.state b = 2 → s.dev.rd NET_TB_GL_PERIOD.p_den b ≠ 0 →
    ∃ t, exec (.genlockLost b) s = .next t ∧ SameStores s t ∧ t.dev.rd NET_TB_CTRL.state b = 3 ∧ t.dev.eventSet 484 = true

/-- A timed output is armed, refused, disarmed and steps through its edges; a capture input stamps or drops (R485, R487, R488, R489,
R491, R492, R493, R494 (12_network_time.md), model's choice (log entry 143), read by inference (log entry 55)). TPO_ARM of a width
below 8 ns, a period with a zero, or a periodic one of less than 1 us or not above its width is refused and changes no pulse; an
accepted one-shot, on a time base or a line clock, arms its start and width, and fires late, counted and raised, when less than 100
ns ahead; a periodic one begins with its first pulse at least 100 ns ahead; TPO_DISARM, also together with arm, ends the pulses due
but not the one in progress; TPO_EDGE begins or ends a pulse on the pin. The pin of an output that is not armed, and has no pulse in
progress, goes to the inactive level of the polarity as written (log entry 143), and the pin's moves alone leave the device.
CAPTURE_EDGE of an enabled, matching edge is stamped at its crossing, a filter time back, with its event, or dropped, counted and
raised when close to the last one or with 16 held. CAPTURE_OVERVOLT shows the level, raised on its rise. -/
def Obligations.PulsesAndCaptures : Prop :=
  (∀ (who : Initiator) (o v : Nat) (s : State),
    let u := settled who (NET_TPO_CTRL.ent.at_ o 0) s
    Lets u who NET_TPO_CTRL.ent o 0 →
    let w := u.dev.rd NET_TPO_WIDTH.width_ns o
    let num := u.dev.rd NET_TPO_PER_NUM.per o
    let den := u.dev.rd NET_TPO_PER_DEN.per o
    let zero := num = 0 ∨ den = 0
    let idle := ∀ p, u.dev.pulse o = some p → p.next = none ∧ p.until_ = none
    let short := v.testBit 0 = true ∧ (num * 1000000 < den ∨ num * 1000000000 ≤ w * den)
    (v.testBit 30 = false → v.testBit 31 = true → ∃ t, exec (.tpoArm who o v) s = .next t ∧ SameStores u t ∧
      (w < 8 ∨ zero ∨ short → t.dev.rd NET_TPO_STATUS.err o = 1 ∧ t.dev.net = u.dev.net ∧
        (v.testBit 8 = u.dev.pulseLow o ∨ ¬ idle → t.dev.out = u.dev.out) ∧
        (v.testBit 8 ≠ u.dev.pulseLow o → idle → t.dev.out = .tpo o (v.testBit 8) :: u.dev.out)) ∧
      (8 ≤ w → ¬ zero → ¬ short →
        let soon := (if v.testBit 16 = true then (u.dev.lineClock (bits v 13 12)).toNat else u.dev.tbNow (bits v 13 12)) + 100 * 65536
        t.dev.rd NET_TPO_STATUS.err o = 0 ∧ t.dev.rd NET_TPO_STATUS.armed o = 1 ∧
        (v.testBit 0 = false → soon ≤ u.dev.pulseStart o →
          ∃ p, t.dev.pulse o = some p ∧ p.start = u.dev.pulseStart o ∧ p.width = w * 65536 ∧ p.next = some 0 ∧
            (v.testBit 8 = u.dev.pulseLow o → t.dev.out = u.dev.out)) ∧
        (v.testBit 0 = false → u.dev.pulseStart o < soon → t.dev.eventSet 485 = true ∧ Counted u t NET_TPO_LATE_CNT.sat NET_TPO_LATE_CNT.count o ∧ t.dev.rd NET_TPO_STATUS.active o = 1 ∧
          t.dev.pinHigh o = (! v.testBit 8) ∧ (u.dev.pinHigh o = v.testBit 8 → t.dev.out.head? = some (.tpo o (! v.testBit 8)))) ∧
        (v.testBit 0 = true → ∃ p n, t.dev.pulse o = some p ∧ p.start = u.dev.pulseStart o ∧ p.width = w * 65536 ∧ p.next = some n ∧
          soon ≤ p.at_ n ∧ ∀ k < n, p.at_ k < soon))) ∧
    (v.testBit 30 = true → ∃ t, exec (.tpoDisarm who o v) s = .next t ∧ SameStores u t ∧
      (v.testBit 8 = u.dev.pulseLow o ∨ (∃ p, u.dev.pulse o = some p ∧ p.until_.isSome = true) → t.dev.out = u.dev.out) ∧
      (v.testBit 8 ≠ u.dev.pulseLow o → (∀ p, u.dev.pulse o = some p → p.until_ = none) → t.dev.out = .tpo o (v.testBit 8) :: u.dev.out) ∧
      t.dev.rd NET_TPO_STATUS.armed o = 0 ∧ t.dev.pulse o = (u.dev.pulse o).map (fun p => { p with next := none }))) ∧
  (∀ (o : Nat) (p : PulseOut) (s : State), s.dev.netRuns = true → s.dev.pulse o = some p →
    (∀ x, p.until_ = some x → ∃ t, exec (.tpoEdge o) s = .next t ∧ SameStores s t ∧ t.dev.rd NET_TPO_STATUS.active o = 0 ∧
      t.dev.pulse o = some { p with until_ := none } ∧
      t.dev.out = (if p.next.isSome = true ∨ (s.dev.rd NET_TPO_CTRL.polarity o ≠ 0 ↔ p.low = true) then .tpo o p.low :: s.dev.out else s.dev.out)) ∧
    (∀ n, p.until_ = none → p.next = some n → ∃ t, exec (.tpoEdge o) s = .next t ∧ SameStores s t ∧ t.dev.rd NET_TPO_STATUS.active o = 1 ∧
      t.dev.pulse o = some { p with until_ := some (p.at_ n + p.width), next := (if p.periodic = true then some (n + 1) else none),
                                    endLine := p.line, endIndex := p.index } ∧
      t.dev.out = .tpo o (! p.low) :: s.dev.out) ∧
    (p.until_ = none → p.next = none → exec (.tpoEdge o) s = .next s)) ∧
  ∀ (c : Nat) (on : Bool) (s : State), s.dev.netRuns = true → c < 8 →
    (let sel := s.dev.rd NET_CAP_CTRL.edge c
     let taken := s.dev.rd NET_CAP_CTRL.enable c ≠ 0 ∧ (sel = 3 ∨ sel = if on = true then 1 else 2)
     let now := s.dev.captureStamp c
     let v := onDev s Dev.nextFree
     let close := ∃ l, tfind s.dev.net.stamps c = some l ∧ l ≤ now ∧ now - l < 50 * 65536
     let fifo := tget s.dev.net.capFifo c []
     (∀ b < 4, s.dev.rd NET_TB_CTRL.discipline b = 2 → s.dev.rd NET_TB_CTRL.gl_input b ≠ c) →
     ∃ t, exec (.captureEdge c on) s = .next t ∧ SameStores s t ∧ t.dev.rd NET_CAP_STATUS.level c = b2n on ∧
       (¬ taken → OnlyCells s t [NET_CAP_STATUS.level.key c 0]) ∧
       (taken → close ∨ 16 ≤ fifo.length → t.dev.eventSet 487 = true ∧ Counted s t NET_CAP_OVF_CNT.sat NET_CAP_OVF_CNT.count c ∧ RaisedOnly v t [NET_CAP_STATUS.level.key c 0,
         NET_CAP_OVF_CNT.sat.key c 0, NET_CAP_OVF_CNT.count.key c 0, NET_EVT_STATUS.status.key 0 0]) ∧
       (taken → ¬ close → fifo.length < 16 → t.dev.eventSet 486 = true ∧ tget t.dev.net.capFifo c [] = fifo ++ [(now, on)] ∧
         tfind t.dev.net.stamps c = some now)) ∧
    ∃ t, exec (.captureOvervolt c on) s = .next t ∧ RaisedOnly s t [NET_CAP_STATUS.overvolt.key c 0, NET_EVT_STATUS.status.key 0 0] ∧
      t.dev.rd NET_CAP_STATUS.overvolt c = b2n on ∧ (on = true → s.dev.rd NET_CAP_STATUS.overvolt c = 0 → t.dev.eventSet 488 = true)

/-- An OTP command is refused with its status or starts its run, and its end programs exactly its fuses (R505, R507, R511, R513,
R520, R521, R522, R524, R525, R526, R528 (13_security.md), read by inference (log entries 26 and 27)). Where the fabric lets the
write through: each of the nine OTP commands, refused, changes nothing but SEC_OTP_STATUS.status; accepted, it programs no fuse,
starts its run, and with an empty recorder queue stores its OTP_BEGIN record in the next slot; RAISE uses the checked token up in
either case. OTP_COMMAND_COMPLETE programs the run's fuses but for those that fail, sets status 0 or 9 by the read-back, raises
OTP_DONE or OTP_FAIL and shows the new array, a record that fails counting as consumed from then on; without a run it changes
nothing. That a refused RAISE uses its token up, and the flush of the record (log entry 26), and that the fuses are programmed at
the end row (27) are read by inference. -/
def Obligations.OtpCommands : Prop :=
  (∀ (who : Initiator) (v op : Nat) (cmd : Instr) (s : State),
    let u := settled who (SEC_OTP_CMD.ent.at_ 0 0) s
    let w := withOp op v
    let left := if op = 6 then none else u.dev.sec.checked
    let c := u.dev.rd EVR_STATUS.count
    Lets u who SEC_OTP_CMD.ent 0 0 →
    ((op, cmd) ∈ [(1, .programKey who v), (2, .revokeKey who v), (3, .programImageKey who v), (4, .programClass who v),
      (5, .programWall who v), (6, .raise who v), (7, .disablePort who v), (8, .advanceRollback who v), (9, .advanceLifecycle who v)]) →
    (otpRefusal u w ≠ 0 → ∃ t, exec cmd s = .next t ∧ t.dev.rd SEC_OTP_STATUS.status = otpRefusal u w ∧
      t = { u with dev := { u.dev with regs := t.dev.regs, sec := { u.dev.sec with checked := left } } } ∧
      CellsKept u t [SEC_OTP_STATUS.status.key 0 0]) ∧
    (otpRefusal u w = 0 → ∃ t, exec cmd s = .next t ∧ BlocksKept u t [15] ∧
      t = { u with dev := { u.dev with regs := t.dev.regs, out := t.dev.out, evr := t.dev.evr, stk := t.dev.stk, peat := t.dev.peat,
                                       sec := { u.dev.sec with otp := some (otpRun u w), checked := left } } } ∧
      (u.dev.evr.queue = [] → u.dev.evr.lost = 0 → c < 65536 → ∃ r, tget t.dev.peat.slots c [] = recWords r ∧ r.event = 552 ∧ r.device = true ∧
        lget r.data 0 0 = w ∧ r.seq = u.dev.rd EVR_SEQ_NEXT.seq))) ∧
  (∀ (failed : List Nat) (s : State), s.dev.secRuns = true →
    (s.dev.sec.otp = none → exec (.otpCommandComplete failed) s = .next s) ∧
    ∀ r, s.dev.sec.otp = some r →
      let o := otpProgramAll s.otp ((r.todo.zipIdx.filter (fun x => ! failed.contains x.2)).map (fun x => x.1))
      ∃ t, exec (.otpCommandComplete failed) s = .next t ∧ t.otp = o ∧ t.pending = s.pending ∧ t.hbm = s.hbm ∧ t.flash = s.flash ∧
        t.dev.sec = { s.dev.sec with otp := none } ∧ r.start + usTicks (20 * r.todo.length) ≤ t.dev.ticks ∧
        t.dev.rd SEC_OTP_STATUS.status = (if r.matches o = true then 0 else 9) ∧
        t.dev.eventSet (if r.matches o = true then 513 else 514) = true ∧
        t.dev.peat.consumed = s.dev.peat.consumed ++ (if r.matches o = true ∨ r.expect = [] then [] else [r.firstWord]) ∧
        t.dev.rd SEC_STATUS.lifecycle = otpLifecycle o ∧ t.dev.rd SEC_ROLLBACK.count = rollbackCount o ∧
        (otpOp r.cmd ≠ 7 → BlocksKept s t [14, 15]))

/-- A nonce is drawn and expires, a token is checked once against it, and the mailbox opens, closes and draws (R505, R514, R515,
R516, R518 (13_security.md), read by inference (log entry 29), model's choice (log entry 4)). Where the fabric lets the write
through: NONCE_DRAW shows a fresh nonce (its value free, log entry 4) and drops the checked token; TOKEN_CHECK takes the token
written, unless a check runs, and consumes the nonce. NONCE_EXPIRY ends the nonce 60 s after its draw. TOKEN_CHECK_DONE shows the
check's code, a failed mailbox check's in both status registers, and on code 0 opens the session, opens JTAG in SHOW or holds the
token, else raises TOKEN_FAIL. The mailbox commands draw a nonce by bit 29, close by bit 30, and check by bit 31 where bit 30 is 0.
Nothing else changes. That a check takes the token and judges the nonce as it starts, and that DEBUG_UNLOCK is used up by opening
JTAG, are read by inference (log entry 29). -/
def Obligations.NoncesTokensMailbox : Prop :=
  let keys := (List.range 4).flatMap (fun i => [SEC_NONCE.nonce.key i 0, SEC_MBX_NONCE.nonce.key i 0])
  let drawn := fun (s t : State) => t.dev.nonce = Config.randomNonce s.dev.free % 2 ^ 128 ∧ t.dev.free = s.dev.free + 1 ∧
    t.dev.sec.nonceValid = true ∧ t.dev.sec.nonceDrawn = s.dev.ticks ∧ t.dev.sec.checked = none
  (∀ (who : Initiator) (s : State), let u := settled who (SEC_NONCE_CTRL.ent.at_ 0 0) s
    Lets u who SEC_NONCE_CTRL.ent 0 0 → ∃ t, exec (.nonceDraw who) s = .next t ∧ drawn u t ∧ CellsKept u t keys ∧
      t = { u with dev := { u.dev with regs := t.dev.regs, free := t.dev.free, sec := { t.dev.sec with
        token := u.dev.sec.token, checking := u.dev.sec.checking, mbxCheck := u.dev.sec.mbxCheck, otp := u.dev.sec.otp,
        nonceOk := u.dev.sec.nonceOk, debugOpen := u.dev.sec.debugOpen,
        expKey := u.dev.sec.expKey } } }) ∧
  (∀ (who : Initiator) (s : State), let u := settled who (SEC_TOKEN_CTRL.ent.at_ 0 0) s
    Lets u who SEC_TOKEN_CTRL.ent 0 0 →
    (u.dev.sec.checking = true → exec (.tokenCheck who) s = .next u) ∧
    (u.dev.sec.checking = false →
      let w := (List.range 40).map (fun i => u.dev.rd SEC_TOKEN.token i)
      exec (.tokenCheck who) s = .next { u with dev := { u.dev with sec := { u.dev.sec with
        checking := true, mbxCheck := false, token := w, nonceOk := u.dev.nonceNamed w, nonceValid := false } } })) ∧
  (∀ s : State, (s.dev.sec.nonceValid = false → exec .nonceExpiry s = .next s) ∧
    (s.dev.sec.nonceValid = true → ∃ t, exec .nonceExpiry s = .next t ∧ SameStores s t ∧ t.dev.regs = s.dev.regs ∧
      t.dev.sec = { s.dev.sec with nonceValid := false } ∧ s.dev.sec.nonceDrawn + msTicks 60000 ≤ t.dev.ticks)) ∧
  (∀ s : State, s.dev.secRuns = true → (s.dev.sec.checking = false → exec .tokenCheckDone s = .next s) ∧
    (s.dev.sec.checking = true →
      let w := s.dev.sec.token
      let code := tokenCode s w
      let p := lget w 1 0 / 2 ^ 16
      let mbx := SEC_MBX_STATUS.code.key 0 0
      let tok := SEC_TOKEN_STATUS.code.key 0 0
      let ended := { s.dev.sec with checking := false, mbxCheck := false, token := [], nonceOk := false }
      ∃ t, exec .tokenCheckDone s = .next t ∧
        (s.dev.sec.mbxCheck = true → t.dev.rd SEC_MBX_STATUS.code = code ∧ (code = 0 → tfind t.dev.regs tok = tfind s.dev.regs tok)) ∧
        (s.dev.sec.mbxCheck = false ∨ code ≠ 0 → t.dev.rd SEC_TOKEN_STATUS.code = code) ∧
        (s.dev.sec.mbxCheck = false → tfind t.dev.regs mbx = tfind s.dev.regs mbx) ∧
        t = { s with dev := { s.dev with regs := t.dev.regs, out := t.dev.out, evr := t.dev.evr, stk := t.dev.stk, sec := t.dev.sec } } ∧
        (∀ k, k ∉ [mbx, tok, SEC_STATUS.mbx_open.key 0 0, SEC_EVT_STATUS.status.key 0 0] → blockOf (k / 32) ≠ 15 →
          tfind t.dev.regs k = tfind s.dev.regs k) ∧
        (code ≠ 0 → t.dev.eventSet 515 = true ∧ t.dev.sec = ended ∧ t.dev.rd SEC_STATUS.mbx_open = s.dev.rd SEC_STATUS.mbx_open) ∧
        (code = 0 → s.dev.sec.mbxCheck = true → p = 1 → t.dev.rd SEC_STATUS.mbx_open = 1 ∧ t.dev.eventSet 516 = true ∧ t.dev.sec = ended) ∧
        (code = 0 → p = 4 → s.dev.lifecycle = 2 → t.dev.sec = { ended with debugOpen := true }) ∧
        (code = 0 → ¬ (s.dev.sec.mbxCheck = true ∧ p = 1) → ¬ (p = 4 ∧ s.dev.lifecycle = 2) → t.dev.sec = { ended with
          checked := some ⟨p, (List.range 8).map (fun i => lget w (8 + i) 0), lget w 1 0 % 8⟩ }))) ∧
  ∀ (v x : Nat) (cmd : Instr) (s : State), Lets s .mailbox SEC_MBX_CTRL.ent 0 0 →
    ((x, cmd) ∈ [(withBit v 31, .mbxCheck v), (withBit v 30, .mbxClose v), (withBit v 29, .mbxNewNonce v)]) →
    ∃ t, exec cmd s = .next t ∧ SameStores s t ∧ CellsKept s t (SEC_STATUS.mbx_open.key 0 0 :: keys) ∧ t.dev.sec.otp = s.dev.sec.otp ∧
      t.dev.sec.expKey = s.dev.sec.expKey ∧
      (x.testBit 29 = true → t.dev.nonce = Config.randomNonce s.dev.free % 2 ^ 128 ∧ t.dev.free = s.dev.free + 1 ∧
        t.dev.sec.nonceDrawn = s.dev.ticks ∧ t.dev.sec.checked = none) ∧
      (x.testBit 29 = false → t.dev.nonce = s.dev.nonce ∧ t.dev.sec.checked = s.dev.sec.checked) ∧
      t.dev.sec.nonceValid = (if x.testBit 30 = false ∧ x.testBit 31 = true ∧ s.dev.sec.checking = false then false
        else s.dev.sec.nonceValid || x.testBit 29) ∧
      (x.testBit 30 = true → t.dev.rd SEC_STATUS.mbx_open = 0 ∧ t.dev.sec.checking = s.dev.sec.checking) ∧
      (x.testBit 30 = false → t.dev.rd SEC_STATUS.mbx_open = s.dev.rd SEC_STATUS.mbx_open ∧
        (x.testBit 31 = false ∨ s.dev.sec.checking = true → t.dev.sec.checking = s.dev.sec.checking ∧ t.dev.sec.token = s.dev.sec.token) ∧
        (x.testBit 31 = true → s.dev.sec.checking = false → t.dev.sec.checking = true ∧ t.dev.sec.mbxCheck = true ∧
          t.dev.sec.token = (List.range 40).map (fun i => s.dev.rd SEC_MBX_TOKEN.token i)))

/-- The recorder writes, rewrites and clears records, and the kiln measures, corrects code by code and reports what waits (R540,
R543, R544, R547, R548, R549, R551, R552, R553, R554, R557 (14_recorder_kiln.md), model's choices (log entries 10, 63, 134, 139,
162)). RECORD_WRITE stores the oldest queued record in the next slot under the next sequence number, drops it where the log has no
slot for it (a full one takes the OTP records, up to slot 65,535: the bound's consequence is the model's choice, log entry 134), and
reports losses where the log takes the report. RECORD_REWRITE stores the newest record's shadow once 60 s have passed.
RECORDER_CLEAR is refused with its status, or leaves one record, the CLEAR record, in slot 0; a token of another purpose stays held.
KILN_MEASUREMENT brings the corrections of CAL_RES into force and marks a readout in Cinder, KILN_MEASUREMENT_DONE gives the readout
its value with its alarms and lists the corrections wanted, one not yet in force keeping its 10 s (log entry 162);
KILN_CORRECTION_APPLY in a boundary moves each by one code, once in the boundary, and a readout in Cinder holds; KILN_DEFERRED
counts and raises once for what of a resource is 10 s late. Who owns a bias correction (log entry 10), what the deferred flags show
(63) and when a boundary is seen to have ended (139) are the model's choices. -/
def Obligations.RecorderAndKiln : Prop :=
  (∀ s : State, s.dev.evrRuns = true →
    let c := s.dev.rd EVR_STATUS.count
    let q := s.dev.rd EVR_SEQ_NEXT.seq
    (s.dev.evr.queue = [] → s.dev.evr.lost = 0 → exec .recordWrite s = .next s) ∧
    (s.dev.evr.queue = [] → s.dev.rdb EVR_STATUS.full = true → exec .recordWrite s = .next s) ∧
    (s.dev.evr.queue = [] → s.dev.evr.lost ≠ 0 → s.dev.rdb EVR_STATUS.full = false → ∃ t, exec .recordWrite s = .next t ∧ SameStores s t ∧
      t.dev.peat = s.dev.peat ∧ t.dev.eventSet 545 = true ∧ t.dev.evr.lost = 0 ∧
      ∃ r ∈ t.dev.evr.queue, r.event = 545 ∧ r.detail = s.dev.evr.lost) ∧
    ∀ r rest, s.dev.evr.queue = r :: rest → ∃ t, exec .recordWrite s = .next t ∧ BlocksKept s t [15] ∧
      t = { s with dev := { s.dev with regs := t.dev.regs, out := t.dev.out, evr := t.dev.evr, stk := t.dev.stk, peat := t.dev.peat } } ∧
      t.dev.peat.journal = s.dev.peat.journal ∧ t.dev.peat.consumed = s.dev.peat.consumed ∧
      (s.dev.logTakes r.event = (s.dev.rdb EVR_STATUS.full == false || (r.event ∈ [552, 513, 514, 553] && decide (c < 65536)))) ∧
      (s.dev.logTakes r.event = false → t.dev.peat = s.dev.peat ∧ (s.dev.evr.lost = 0 → t.dev.evr = { s.dev.evr with queue := rest } ∧
        t.dev.regs = ((({ s.dev with evr := { s.dev.evr with queue := rest } } : Dev).count EVR_FULL_DROP_CNT.sat EVR_FULL_DROP_CNT.count
          r.shRepeat).showShadow).regs)) ∧
      (s.dev.logTakes r.event = true →
        (c < 65536 → tget t.dev.peat.slots c [] = recWords { r with seq := q, gen := 0 }) ∧
        (∀ k, k ≠ c → k ≠ s.dev.evr.newestSlot → tget t.dev.peat.slots k [] = tget s.dev.peat.slots k []) ∧
        t.dev.rd EVR_STATUS.count = (c + 1) % 2 ^ 17 ∧ t.dev.rd EVR_SEQ_NEXT.seq = (q + 1) % 2 ^ 32 ∧
        (c + 1 = 65520 → t.dev.rd EVR_STATUS.full = 1 ∧ t.dev.eventSet 544 = true) ∧
        (c + 1 ≠ 65520 → s.dev.evr.lost = 0 → t.dev.evr.queue = rest ∧ t.dev.evr.newestSlot = c ∧
          t.dev.evr.newest = some { r with seq := q, gen := 0 }))) ∧
  (∀ s : State, s.dev.evrRuns = true →
    (s.dev.evr.due = false ∨ s.dev.msSince s.dev.evr.lastWrite < 60000 → exec .recordRewrite s = .next s) ∧
    ∀ r, s.dev.evr.newest = some r → s.dev.evr.newestSlot < 65536 → s.dev.evr.due = true → 60000 ≤ s.dev.msSince s.dev.evr.lastWrite →
      let r' := { r with gen := (r.gen + 1) % 65536, rept := r.shRepeat, last := r.shLast }
      ∃ t, exec .recordRewrite s = .next t ∧ t = { s with dev := { s.dev with evr := t.dev.evr, peat := t.dev.peat } } ∧
        t.dev.evr = { s.dev.evr with newest := some r', lastWrite := s.dev.ticks, due := false } ∧
        t.dev.peat = { s.dev.peat with slots := t.dev.peat.slots } ∧ tget t.dev.peat.slots s.dev.evr.newestSlot [] = recWords r' ∧
        ∀ k, k ≠ s.dev.evr.newestSlot → tget t.dev.peat.slots k [] = tget s.dev.peat.slots k []) ∧
  (∀ (who : Initiator) (v : Nat) (s : State), let u := settled who (EVR_CLEAR_CTRL.ent.at_ 0 0) s
    Lets u who EVR_CLEAR_CTRL.ent 0 0 →
    (v.testBit 31 = false → exec (.recorderClear who v) s = .next u) ∧
    (v.testBit 31 = true → ∃ t, exec (.recorderClear who v) s = .next t ∧ SameStores u t ∧ BlocksKept u t [15] ∧
      t.dev.sec = { u.dev.sec with checked := u.dev.sec.checked.filter (fun k => k.purpose != 3) } ∧ t.dev.rd EVR_CLEAR_STATUS.status = u.dev.clearRefusal ∧
      (u.dev.clearRefusal ≠ 0 → CellsKept u t [EVR_CLEAR_STATUS.status.key 0 0] ∧ t.dev.peat = u.dev.peat ∧ t.dev.evr = u.dev.evr) ∧
      (u.dev.clearRefusal = 0 → t.dev.rd EVR_STATUS.count = 1 ∧ t.dev.rd EVR_STATUS.full = 0 ∧ t.dev.eventSet 546 = true ∧
        ∃ r, tget t.dev.peat.slots 0 [] = recWords r ∧ r.event = 546 ∧ r.detail = u.dev.rd EVR_STATUS.count ∧
          r.seq = u.dev.rd EVR_SEQ_NEXT.seq))) ∧
  (∀ (item inst : Nat) (s : State), s.dev.kilnRuns = true → 1 ≤ item → item ≤ 6 → (item = 5 → inst < 24) → (item = 6 → inst < 96) →
    let shown := fun (t : State) (b : Nat) => (item = 1 → t.dev.rd KLN_RES.cinder = b) ∧ (item = 2 → t.dev.rd KLN_BIAS_STATUS.cinder = b) ∧
      (item = 3 → ∀ i < 32, t.dev.rd KLN_TEMP.cinder i = b) ∧ (item = 4 → ∀ i < 8, t.dev.rd KLN_VMON.cinder i = b) ∧
      (item = 5 → t.dev.rd KLN_PG_STATUS.cinder inst = b) ∧ (item = 6 → t.dev.rd TLK_BC_EYE.cinder inst = b)
    let brought := fun (t : State) (m : Nat) => (∀ c : Correction, c ∈ t.dev.kln.waiting → c.item ≠ m ∨ c.since = s.dev.ticks) ∧
      (∀ k, (∀ c ∈ s.dev.kln.waiting, c.item = m → kilnKey m c.inst c.setting ≠ k) → tfind t.dev.kln.codes k = tfind s.dev.kln.codes k) ∧
      ∀ c ∈ s.dev.kln.waiting, c.item = m →
        (∀ e ∈ s.dev.kln.waiting, e.item = m → kilnKey m e.inst e.setting = kilnKey m c.inst c.setting → e = c) →
        t.dev.kilnCode m c.inst c.setting = c.target
    (∃ t, exec (.kilnMeasurement item inst) s = .next t ∧ t = { s with dev := { s.dev with regs := t.dev.regs, kln := t.dev.kln } } ∧
      BlocksKept s t [6, 16] ∧ t.dev.rd KLN_STATUS.busy = item ∧ shown t 1 ∧ brought t 1 ∧ t.dev.kln.goodRes = s.dev.kln.goodRes ∧
      t.dev.kln.moved = s.dev.kln.moved ∧ ∀ c : Correction, c ∈ t.dev.kln.waiting ↔ c ∈ s.dev.kln.waiting ∧ c.item ≠ 1) ∧
    (∀ vals codes : List Int, let v := fun (i : Nat) => lget vals i 0
      ∃ t, exec (.kilnMeasurementDone item inst vals codes) s = .next t ∧ SameStores s t ∧ BlocksKept s t [6, 15, 16] ∧
        t.dev.rd KLN_STATUS.busy = 0 ∧ shown t 0 ∧ (item = 3 ∨ item = 4 → brought t item) ∧
        (item ≠ 3 → item ≠ 4 → t.dev.kln.codes = s.dev.kln.codes ∧
          ∀ c : Correction, ¬ (c.item = item ∧ c.inst = inst) → (c ∈ t.dev.kln.waiting ↔ c ∈ s.dev.kln.waiting)) ∧
        (∀ c : Correction, c.item ≠ item → (c ∈ t.dev.kln.waiting ↔ c ∈ s.dev.kln.waiting)) ∧
        (∀ i, (∃ c ∈ t.dev.kln.waiting, c.item = item ∧ c.inst = inst ∧ c.setting = i) ↔
          i < codes.length ∧ lget codes i 0 ≠ t.dev.kilnCode item inst i) ∧
        (∀ c ∈ t.dev.kln.waiting, c.item = item → c.inst = inst → c.target = lget codes c.setting 0) ∧
        (let old := if item = 3 ∨ item = 4 then none else s.dev.kln.waiting.find? (fun c => c.item == item && c.inst == inst)
         ∀ c ∈ t.dev.kln.waiting, c.item = item → c.inst = inst →
          (old = none → c.since = s.dev.ticks ∧ c.deferred = false) ∧ (∀ o, old = some o → c.since = o.since ∧ c.deferred = o.deferred)) ∧
        (item = 1 → t.dev.rd KLN_RES.residual_ppm = ofS 24 (clampI (v 0 - 1000000) (-8388608) 8388607)) ∧
        (item = 1 → v 0 < 950000 ∨ 1050000 < v 0 → t.dev.rd KLN_STATUS.internal = 1 ∧ t.dev.eventSet 576 = true) ∧
        (item = 2 → (t.dev.rd KLN_BIAS_STATUS.deferred = 1 ↔ ∃ c ∈ t.dev.kln.waiting, c.item = 2) ∧ t.dev.rd KLN_BIAS_STATUS.worst_err = min (v 0).natAbs 255) ∧
        (item = 3 → ∀ i < 32, t.dev.rd KLN_TEMP.temp i = ofS 16 (clampI (v i) (-32768) 32767) ∧
          (toS 16 (s.dev.rd KLN_TEMP_LIMIT.limit) ≤ clampI (v i) (-32768) 32767 → t.dev.eventSet 580 = true)) ∧
        (item = 4 → ∀ i < 8, t.dev.rd KLN_VMON.mv i = min (v i).toNat 65535 ∧
          (lget railNominal i 0 * 105 < min (v i).toNat 65535 * 100 ∨ min (v i).toNat 65535 * 100 < lget railNominal i 0 * 95 →
            t.dev.rd KLN_VMON.alarm i = 1 ∧ t.dev.eventSet 581 = true)) ∧
        (item = 5 → t.dev.rd KLN_PG_STATUS.swing inst = satU 8 (t.dev.kilnCode 5 inst 0) ∧
          t.dev.rd KLN_PG_STATUS.term inst = satU 8 (t.dev.kilnCode 5 inst 1) ∧
          (t.dev.rd KLN_PG_STATUS.deferred inst = 1 ↔ ∃ c ∈ t.dev.kln.waiting, c.item = 5 ∧ c.inst = inst) ∧ t.dev.rd KLN_PG_STATUS.term_err inst = ofS 8 (clampI (v 0) (-128) 127) ∧
          (s.dev.rd KLN_CFG.term_limit < (v 0).natAbs → t.dev.eventSet 579 = true)) ∧
        (item = 6 → t.dev.rd TLK_BC_EYE.width inst = min (v 0).toNat 255 ∧ t.dev.rd TLK_BC_EYE.height inst = min (v 1).toNat 65535 ∧
          (min (v 0).toNat 255 < s.dev.rd KLN_CFG.eye_limit → t.dev.eventSet 579 = true))) ∧
    (s.dev.kilnBoundary item inst = false → exec (.kilnCorrectionApply item inst) s = .next s) ∧
    (s.dev.kilnBoundary item inst = true → ∃ t, exec (.kilnCorrectionApply item inst) s = .next t ∧ BlocksKept s t [16] ∧
      t = { s with dev := { s.dev with regs := t.dev.regs, kln := t.dev.kln } } ∧ t.dev.kln.goodRes = s.dev.kln.goodRes ∧
      (item = 5 ∧ s.dev.rd KLN_PG_STATUS.cinder inst ≠ 0 ∨ item = 2 ∧ s.dev.rd KLN_BIAS_STATUS.cinder ≠ 0 → t.dev.regs = s.dev.regs) ∧
      (∀ c ∈ s.dev.kln.waiting, c.item = item → c.inst = inst → kilnKey item inst c.setting ∈ s.dev.kln.moved →
        c ∈ t.dev.kln.waiting ∧ t.dev.kilnCode item inst c.setting = s.dev.kilnCode item inst c.setting) ∧
      ∀ c ∈ s.dev.kln.waiting, c.item = item → c.inst = inst → kilnKey item inst c.setting ∉ s.dev.kln.moved →
        kilnKey item inst c.setting ∈ t.dev.kln.moved ∧ ((∀ e ∈ s.dev.kln.waiting, e.item = item → e.inst = inst → e.setting = c.setting → e = c) →
        let x : Int := if c.current < c.target then c.current + 1 else if c.target < c.current then c.current - 1 else c.current
        t.dev.kilnCode item inst c.setting = x ∧ (x ≠ c.target → { c with current := x } ∈ t.dev.kln.waiting) ∧
        (x = c.target → ∀ e ∈ t.dev.kln.waiting, ¬ (e.item = item ∧ e.inst = inst ∧ e.setting = c.setting)))) ∧
    let late := fun (c : Correction) => c.item = item ∧ c.inst = inst ∧ c.deferred = false ∧ 10000 ≤ s.dev.msSince c.since
    ((∀ c ∈ s.dev.kln.waiting, ¬ late c) → exec (.kilnDeferred item inst) s = .next s) ∧
    ((∃ c ∈ s.dev.kln.waiting, late c) → ∃ t, exec (.kilnDeferred item inst) s = .next t ∧ SameStores s t ∧ BlocksKept s t [15, 16] ∧
      t.dev.eventSet 578 = true ∧ Counted s t KLN_DEFER_CNT.sat KLN_DEFER_CNT.count 0 ∧ t.dev.kln.codes = s.dev.kln.codes ∧
      ∀ c ∈ s.dev.kln.waiting, (late c → { c with deferred := true } ∈ t.dev.kln.waiting) ∧ (¬ late c → c ∈ t.dev.kln.waiting)))

/-- Each device-level reset leaves what its kind keeps, shows its kind, and boots once nothing holds it (R558, R560, R561, R562,
R566, R570, R574, R575, R576 (15_reset_power_faults.md), R587 (16_pins_electrical.md), R435 (11_stokers_rings.md), read by inference
and model's choice (log entries 71, 74, 76, 79, 80 and 11)). POWER_ON_RESET, BROWN_OUT, COLD_PIN_RESET, keyed COLD_REGISTER_RESET
and WARM_RESET, WAKE_PIN, the wake timer and a waiting exit at the return of POWER_FAIL_N leave the state of a reset of their kind
(0x8 from smoulder, whatever ends it: log entry 71): HBM lost but in a warm reset, which clears the secure regions of the image that
ran (log entry 76), no image loaded, every register outside GLB, KIN, SEC, EVR and KLN at its Reset entry or kept as log entry 80
reads the table, with the failed set cleared where a cold kind meets smoulder, the export key derived anew or, in a warm reset,
kept, and the boot begun or held, the flash pins driven once the boot choice is made. The timer's row waits for its moment (log
entry 11), and the exit waits for POWER_FAIL_N (log entry 74). THERMAL_TRIP and the loss of the system reference hold the reset,
each a cause of its own (log entry 79), until THERMAL_RELEASE and CLOCK_RESTORED; another reference's loss raises CLOCK_LOST alone.
A wrong key does nothing. A failure of stoker 0 by its watchdog, an ECC error or force_fail, where the image asks for it, is shown,
raised and recorded, and a watchdog reset follows. -/
def Obligations.DeviceResets : Prop :=
  let newKey := fun (t : State) => t.dev.sec.expKey = if imageKeyPresent t.otp t.dev.peat.consumed = true then some (exportKey t.otp) else none
  let fresh := fun (s t : State) (cause : Nat) =>
    let kind := s.dev.kindNow cause
    let run := if s.dev.loaded = true then s.dev.img else s.dev.kin.before
    t.pending = s.pending ∧ t.flash = s.flash ∧ (s.dev.sec.otp = none → t.otp = s.otp) ∧
    t.hbm = (if softKind kind = true then clearWorld run run true s.hbm else []) ∧ t.dev.rd GLB_RESET_STATUS.kind = kind ∧ t.dev.loaded = false ∧
    t.dev.img = Image.blank ∧ t.dev.jobs = ⟨[], 0, []⟩ ∧ t.dev.posted = [] ∧ t.dev.sec.otp = none ∧ s.dev.ticks ≤ t.dev.ticks ∧
    ∀ k, blockOf (k / 32) ∉ [0, 1, 14, 15, 16] → tfind t.dev.regs k =
      if regKept kind k (tget s.dev.regs k 0) = true ∧ (blockOf (k / 32) = 8 → softKind cause = true ∨ cause = 8) then tfind s.dev.regs k else none
  let boots := fun (s t : State) (cause : Nat) =>
    let soft := softKind (s.dev.kindNow cause)
    fresh s t cause ∧ t.dev.glb.heldBy = s.dev.glb.heldBy ∧ t.dev.glb.xspi = (soft && s.dev.glb.heldBy == 0) ∧
    (soft = true → t.dev.sec.expKey = s.dev.sec.expKey) ∧
    (s.dev.glb.heldBy ≠ 0 → t.dev.glb.phase = .held ∧ (soft = false → t.dev.sec.expKey = none)) ∧
    (s.dev.glb.heldBy = 0 → soft = false → t.dev.glb.phase = .waitTraining ∧ newKey t) ∧
    (s.dev.glb.heldBy = 0 → soft = true → t.dev.glb.phase = .verify ∨ t.dev.glb.phase = .halted)
  let holds := fun (s t : State) (cause : Nat) => fresh s t cause ∧ t.dev.glb.phase = .held ∧ t.dev.glb.heldBy.testBit cause = true ∧
    t.dev.glb.xspi = false ∧ t.dev.sec.expKey = none
  let freed := fun (s t : State) (cause : Nat) => t.pending = s.pending ∧ t.flash = s.flash ∧ t.otp = s.otp ∧ t.hbm = s.hbm ∧
    t.dev.glb.heldBy.testBit cause = false ∧ (s.dev.glb.heldBy ≠ 2 ^ cause → t.dev.glb.phase = s.dev.glb.phase) ∧
    (s.dev.glb.heldBy = 2 ^ cause → softKind s.dev.kin.bootKind = false → t.dev.glb.phase = .waitTraining ∧ newKey t)
  let supFails := fun (s : State) (r : Res) (fuses cause : Nat) => ∃ u t, r = .next t ∧ t = watchdogReset fuses u ∧ boots u t 5 ∧
    SameStores s u ∧ (u.dev.core 0).run = 3 ∧ u.dev.rd STK_LAST_FAULT.cause = cause ∧ u.dev.rd STK_LAST_FAULT.stoker = 0 ∧
    u.dev.rd STK_STOKER_PC.pc 0 = (s.dev.core 0).pc.toNat ∧ u.dev.eventSet 449 = true ∧
    (s.dev.evr.queue = [] → s.dev.evr.newest = none → s.dev.evr.lost = 0 → s.dev.rd EVR_STATUS.full = 0 → s.dev.rd EVR_STATUS.count < 65519 →
      s.dev.img.rings.rings = [] → (∀ k < 256, s.dev.rd STK_LOCK_ACQ.owner k ≠ 0) →
      ∃ r, tget u.dev.peat.slots (s.dev.rd EVR_STATUS.count) [] = recWords r ∧ r.event = 449)
  (∀ (fuses : Nat) (s : State), s.dev.stkRuns = true → (s.dev.core 0).alive = true → s.dev.img.secure.supReset = true →
    (s.dev.rd STK_STOKER_WDT.period_ms 0 ≠ 0 → supFails s (exec (.stokerWatchdogExpiry 0 fuses) s) fuses 1) ∧
    supFails s (exec (.stokerEccError 0 false fuses) s) fuses 2) ∧
  (∀ (who : Initiator) (v fuses : Nat) (s : State), let u := settled who (STK_STOKER_CTRL.ent.at_ 0 0) s
    Lets u who STK_STOKER_CTRL.ent 0 0 → (u.dev.core 0).run ≠ 3 → u.dev.img.secure.supReset = true →
    supFails u (exec (.stokerForceFail who 0 v fuses) s) fuses 3) ∧
  (∀ (b : BootCircs) (s : State), b.kiln.groups.length ≤ 24 →
    (∃ t, exec (.powerOnReset b) s = .next t ∧ boots s t 1) ∧
    (∃ t, exec (.brownOut b) s = .next t ∧ boots s t 2) ∧
    (∃ t, exec (.coldPinReset b) s = .next t ∧ boots s t 3) ∧
    (∀ (who : Initiator) (v : Nat) (u : State), u = settled who (GLB_RESET_CTRL.ent.at_ 0 0) s → Lets u who GLB_RESET_CTRL.ent 0 0 →
      (v % 65536 ≠ 0x0A5C → exec (.coldRegisterReset who v b) s = .next u ∧ exec (.warmReset who v b) s = .next u) ∧
      (v % 65536 = 0x0A5C → (∃ t, exec (.coldRegisterReset who v b) s = .next t ∧ boots u t 4) ∧
        ∃ t, exec (.warmReset who v b) s = .next t ∧ boots u t (if v.testBit 31 = true then 4 else 6))) ∧
    (s.dev.glb.phase ≠ .smoulder ∨ s.dev.glb.failPin = true → exec (.wakePin b) s = .next s) ∧
    (s.dev.glb.phase = .smoulder → s.dev.glb.failPin = false → ∃ t, exec (.wakePin b) s = .next t ∧ boots s t 8 ∧
      t.dev.rd GLB_SMOULDER_STATUS.wake = 1 ∧ t.dev.tct = s.dev.tct ∧ t.dev.bus = s.dev.bus) ∧
    (s.dev.glb.phase ≠ .smoulder ∨ s.dev.rd GLB_SMOULDER_CTRL.wake_s = 0 → exec (.smoulderWakeTimer b) s = .next s) ∧
    (s.dev.glb.phase = .smoulder → s.dev.rd GLB_SMOULDER_CTRL.wake_s ≠ 0 → ∃ t, exec (.smoulderWakeTimer b) s = .next t ∧
      s.dev.glb.smoulderTick + msTicks (1000 * s.dev.rd GLB_SMOULDER_CTRL.wake_s) ≤ t.dev.ticks ∧
      (s.dev.glb.failPin = false → boots s t 8 ∧ t.dev.rd GLB_SMOULDER_STATUS.wake = 2) ∧
      (s.dev.glb.failPin = true → SameStores s t ∧ t.dev.regs = s.dev.regs ∧ t.dev.glb = { s.dev.glb with wakeWait := true })) ∧
    (s.dev.glb.phase ≠ .smoulder ∨ s.dev.glb.wakeWait = false →
      exec (.powerFailNReturnsHigh b) s = .next { s with dev := { s.dev with glb := { s.dev.glb with failPin := false } } }) ∧
    (s.dev.glb.phase = .smoulder → s.dev.glb.wakeWait = true → ∃ t, exec (.powerFailNReturnsHigh b) s = .next t ∧ boots s t 8 ∧
      t.dev.rd GLB_SMOULDER_STATUS.wake = 2 ∧ t.dev.glb.failPin = false)) ∧
  ∀ (r fuses : Nat) (k : KilnReadings) (s : State),
    (s.dev.glb.heldBy.testBit 7 = true ∨ s.dev.rdb GLB_PWR_STATUS.core = false → exec (.thermalTrip fuses) s = .next s) ∧
    (s.dev.glb.heldBy.testBit 7 = false → s.dev.rdb GLB_PWR_STATUS.core = true → s.dev.glb.phase = .held →
      exec (.thermalTrip fuses) s = .next { s with dev := { s.dev with glb := { s.dev.glb with heldBy := s.dev.glb.heldBy ||| 2 ^ 7 } } }) ∧
    (s.dev.glb.heldBy.testBit 7 = false → s.dev.rdb GLB_PWR_STATUS.core = true → s.dev.glb.phase ≠ .held →
      ∃ t, exec (.thermalTrip fuses) s = .next t ∧ holds s t 7) ∧
    (s.dev.glb.heldBy.testBit 7 = false → exec (.thermalRelease k) s = .next s) ∧
    (s.dev.glb.heldBy.testBit 7 = true → ∃ t, exec (.thermalRelease k) s = .next t ∧ freed s t 7) ∧
    (6 < r ∨ s.dev.glb.clocksLost.testBit r = true → exec (.clockFault r fuses) s = .next s) ∧
    (r < 6 → s.dev.glb.clocksLost.testBit r = false → ∃ t, exec (.clockFault r fuses) s = .next t ∧ SameStores s t ∧
      t.dev.eventSet 2 = true ∧ t.dev.glb = { s.dev.glb with clocksLost := s.dev.glb.clocksLost ||| 2 ^ r } ∧
      (r < 4 → ∀ n, n / 24 = r → t.dev.linkState n ≤ 1) ∧
      (r = 4 → ∀ e < 4, t.dev.ethUp e = false) ∧ (r = 5 → t.dev.stk.pcieUp = false)) ∧
    (s.dev.glb.clocksLost.testBit 6 = false → ∃ t, exec (.clockFault 6 fuses) s = .next t ∧ holds s t 9) ∧
    (6 < r ∨ s.dev.glb.clocksLost.testBit r = false → exec (.clockRestored r k) s = .next s) ∧
    (r < 6 → s.dev.glb.clocksLost.testBit r = true → ∃ t, exec (.clockRestored r k) s = .next t ∧ SameStores s t ∧
      t.dev.eventSet 3 = true ∧ t.dev.glb.clocksLost.testBit r = false ∧ t.dev.glb.phase = s.dev.glb.phase) ∧
    (s.dev.glb.clocksLost.testBit 6 = true → s.dev.glb.heldBy.testBit 9 = true → ∃ t, exec (.clockRestored 6 k) s = .next t ∧ freed s t 9 ∧
      t.dev.eventSet 3 = true ∧ t.dev.glb.clocksLost.testBit 6 = false)

/-- Block and port resets take and end, smoulder is refused, entered group by group or at once, and a power-fail warning discharges
the wall (R333 (08_tile_control.md), R451 (11_stokers_rings.md), R564, R565, R568, R572, R573 (15_reset_power_faults.md), read by
inference (log entries 74, 75, 81), model's choices (log entries 11, 82)). Where the fabric lets the write through: BLOCK_RESET
marks each resettable block it names as held and resets it, as the row of R564's table for each of the eleven blocks says what it
loses and keeps (what the table leaves open is read as log entry 81 says: the firescreen's working sums stand, waiting kiln
corrections are dropped, "img" fields keep their values), PORT_RESET each port, one that the image omits too; which packets end with
ABT is the row's operand (log entry 82). BLOCK_RESET_DONE ends the reset of a held block or port and raises RESET_DONE.
SMOULDER_ENTER stores wake_s, is refused by the power estimate with SMOULDER_REJECT, or begins the entry, which with no group
running turns the domains off and loses HBM. POWER_FAIL_WARNING discharges every LIT port, ends a flash write and raises POWER_FAIL,
in smoulder and in reset none of it (log entry 74); POWER_RESTORED follows 100 ms after it, which its row waits for (log entry 11).
The timer of smoulder counts from the write of enter (log entry 75). -/
def Obligations.BlockPortSmoulderPower : Prop :=
  let ingReset := fun (u t : State) => u.dev.img.net.streams.length ≤ 4 →
    t = { u with dev := { u.dev with regs := t.dev.regs, latch := t.dev.latch, ltab := [],
                                     ing := u.dev.ing.map (fun x => (x.1, { x.2 with pending := [], tables := [] })) } } ∧
    BlocksKept u t [0, 2] ∧ (∀ k, blockOf (k / 32) = 2 → (∀ g < 4, ∀ f ∈ [ING_STREAM_CFG.slots, ING_STREAM_CFG.stream_id,
      ING_STREAM_CFG.eth_mask, ING_STREAM_CFG.enable, ING_STREAM_UDP.udp_port, ING_ADMIT_FRAME.frame_number], k ≠ f.key g 0) →
        tfind t.dev.regs k = none) ∧
    ∀ g < 4, t.dev.rd ING_STREAM_CFG.slots g = u.dev.rd ING_STREAM_CFG.slots g % 16 ∧
      t.dev.rd ING_ADMIT_FRAME.frame_number g = u.dev.rd ING_ADMIT_FRAME.frame_number g % 2 ^ 32
  let rayReset := fun (u t : State) =>
    t = { u with dev := { u.dev with regs := t.dev.regs, latch := t.dev.latch, scn := t.dev.scn,
                                     ray := { Dev.reset.ray with takeover := u.dev.ray.takeover, waiting := u.dev.ray.waiting } } } ∧
    BlocksKept u t [0, 3] ∧ (∀ x < 100, t.dev.rd RAY_SLICE_STATUS.state x = u.dev.rd RAY_SLICE_STATUS.state x % 2 ^ RAY_SLICE_STATUS.state.w ∧
      t.dev.rd RAY_SLICE_STATUS.port x = u.dev.rd RAY_SLICE_STATUS.port x % 2 ^ RAY_SLICE_STATUS.port.w) ∧
    t.dev.rd RAY_STATUS.spares_free = u.dev.rd RAY_STATUS.spares_free % 2 ^ RAY_STATUS.spares_free.w ∧
    (∀ g < 4, ∀ j < 16, t.dev.rd RAY_COEFF_SEL.active_en g j = 0 ∧ t.dev.rd RAY_COEFF_SEL.active_set g j = 0 ∧
      t.dev.rd RAY_COEFF_SEL.pending_en g j = 0 ∧ t.dev.rd RAY_COEFF_SEL.pending_set g j = 0) ∧
    t.dev.rd RAY_BELLOWS_WM.low = RAY_BELLOWS_WM.low.rst ∧ t.dev.rd RAY_BELLOWS_WM.high = RAY_BELLOWS_WM.high.rst ∧
    ∀ n ∈ u.dev.img.activePorts, let g := u.dev.portGroup n
      ((u.dev.scnG g).begun = true → u.dev.curLine g + 2 < u.dev.nActive g → (t.dev.scnG g).lost.testBit n = true) ∧
      (u.dev.inExtension g = false → u.dev.nTotal g ≤ u.dev.curLine g + 2 → (t.dev.scnG g).lostNext.testBit n = true)
  let cmpReset := fun (u t : State) (inPacket : List Nat) => (∀ n ∈ inPacket, n < 96) →
    t = { u with dev := { u.dev with regs := t.dev.regs, latch := t.dev.latch, scn := t.dev.scn, link := t.dev.link, out := t.dev.out,
                                     free := t.dev.free, cmp := { Dev.reset.cmp with force := u.dev.cmp.force, latched := u.dev.cmp.latched } } } ∧
    (∀ k, blockOf (k / 32) ∉ [0, 4] → (∀ n ∈ inPacket, k ≠ TLK_ABORT_CNT.count.key n 0 ∧ k ≠ TLK_ABORT_CNT.sat.key n 0) →
      tfind t.dev.regs k = tfind u.dev.regs k) ∧
    (∀ n < 96, t.dev.rd CMP_MAP_STATUS.absent n = u.dev.rd CMP_MAP_STATUS.absent n % 2 ∧
      t.dev.rd CMP_MAP_STATUS.active_buf n = u.dev.rd CMP_MAP_STATUS.active_buf n % 2 ∧ t.dev.rd CMP_MAP_STATUS.pending n = 0 ∧
      t.dev.rd CMP_MAP_STATUS.checking n = 0 ∧ t.dev.rd CMP_PORT_SEL.active_xfer n = 0 ∧ t.dev.rd CMP_PORT_SEL.dither_off n = 0) ∧
    (∀ n ∈ inPacket, ∃ k b c, Out.abort n k b c ∈ t.dev.out) ∧
    ∀ n ∈ u.dev.img.activePorts, let g := u.dev.portGroup n
      (u.dev.scnG g).begun = true → (u.dev.scnG g).scanning = true → u.dev.inExtension g = false → u.dev.curLine g < u.dev.nActive g →
        (t.dev.scnG g).lost.testBit n = true
  let scnReset := fun (u t : State) => SameStores u t ∧ BlocksKept u t [0, 5, 13, 15] ∧ t.dev.ray.computed = [] ∧ t.dev.cmp.lines = [] ∧
    t.dev.cmp.force = u.dev.cmp.force ∧ ∀ g < 4,
      t.dev.rd SCN_MODE.active_mode g = u.dev.rd SCN_MODE.active_mode g % 2 ^ SCN_MODE.active_mode.w ∧
      t.dev.rd SCN_PHASE_ACTIVE.phase g = u.dev.rd SCN_PHASE_ACTIVE.phase g % 2 ^ SCN_PHASE_ACTIVE.phase.w ∧
      t.dev.rd SCN_FRAME_NUM.frame g = 0 ∧ t.dev.started g = false ∧ (t.dev.scnG g).begun = false ∧
      ((t.dev.scnG g).running = true ↔ (u.dev.img.group g).isSome = true)
  let tlkReset := fun (u t : State) => SameStores u t ∧ BlocksKept u t [0, 6] ∧ ∀ n < 96,
    (u.dev.linkState n = 0 → t.dev.linkState n = 0) ∧
    (u.dev.linkState n = 1 → (u.dev.lnk n).await = false → t.dev.linkState n = 1 ∧ (t.dev.lnk n).held = (u.dev.lnk n).held) ∧
    (2 ≤ u.dev.linkState n ∨ u.dev.linkState n = 1 ∧ (u.dev.lnk n).await = true →
      t.dev.linkState n = if u.dev.glb.phase = .halted ∨ u.dev.refLost n = true then 1 else 2) ∧
    (2 ≤ u.dev.linkState n → (t.dev.scnG (u.dev.portGroup n)).lost.testBit n = true)
  let tctReset := fun (u t : State) => SameStores u t ∧ BlocksKept u t [0, 7] ∧ t.dev.fsc = u.dev.fsc ∧ ∀ n < 96,
    t.dev.rd TCT_PORT_STATE.pstate n = u.dev.rd TCT_PORT_STATE.pstate n % 2 ^ TCT_PORT_STATE.pstate.w ∧
    t.dev.rd TCT_PORT_STATE.band n = u.dev.rd TCT_PORT_STATE.band n % 2 ^ TCT_PORT_STATE.band.w ∧
    t.dev.rd TCT_PORT_REF_RG.red n = u.dev.rd TCT_PORT_REF_RG.red n % 2 ^ TCT_PORT_REF_RG.red.w ∧
    t.dev.rd TCT_PORT_REF_RG.green n = u.dev.rd TCT_PORT_REF_RG.green n % 2 ^ TCT_PORT_REF_RG.green.w ∧
    t.dev.rd TCT_PORT_REF_B.blue n = u.dev.rd TCT_PORT_REF_B.blue n % 2 ^ TCT_PORT_REF_B.blue.w ∧ (t.dev.ctl n).found = false
  let netReset := fun (u t : State) => u.dev.img.net.eth.length ≤ 4 → u.dev.img.net.queues.length ≤ 16 →
    (∀ c ∈ u.dev.img.net.eth, c.ctrlUdp.length ≤ 8) →
    SameStores u t ∧ BlocksKept u t [0, 13, 15] ∧ t.dev.net.tbs = u.dev.net.tbs ∧ t.dev.net.pulses = [] ∧ t.dev.net.tx = [] ∧ t.dev.net.rx = [] ∧
    t.dev.net.capFifo = [] ∧ t.dev.net.stamps = [] ∧ (∀ e < 4, t.dev.ethUp e = false) ∧
    (∀ q < 16, t.dev.rd NET_Q_HEAD.index q = 0 ∧ t.dev.rd NET_Q_TAIL.index q = 0) ∧
    ∀ b < 4, t.dev.rd NET_TB_RATE.rate b = u.dev.rd NET_TB_RATE.rate b ∧ t.dev.rd NET_TB_CTRL.discipline b = u.dev.rd NET_TB_CTRL.discipline b
  (∀ (who : Initiator) (v : Nat) (inPacket : List Nat) (s : State), let u := settled who (GLB_BLOCK_RESET.ent.at_ 0 0) s
    Lets u who GLB_BLOCK_RESET.ent 0 0 → ∃ t, exec (.blockReset who v inPacket) s = .next t ∧ SameStores u t ∧
      (∀ b < 18, t.dev.rdBit GLB_BLOCK_RESET.reset b = (u.dev.rdBit GLB_BLOCK_RESET.reset b || (v.testBit b && blockResettable b))) ∧
      ((∀ b < 18, v.testBit b = true → blockResettable b = true → u.dev.rdBit GLB_BLOCK_RESET.reset b = true) → t = u) ∧
      (∀ b ∈ [2, 3, 4, 5, 6, 7, 13], v = 2 ^ b → u.dev.rdBit GLB_BLOCK_RESET.reset b = false →
        (b = 2 → ingReset u t) ∧ (b = 3 → rayReset u t) ∧ (b = 4 → cmpReset u t inPacket) ∧ (b = 5 → scnReset u t) ∧
        (b = 6 → tlkReset u t) ∧ (b = 7 → tctReset u t) ∧ (b = 13 → netReset u t)) ∧
      ∀ b ∈ [10, 11, 16, 17], v = 2 ^ b → u.dev.rdBit GLB_BLOCK_RESET.reset b = false → BlocksKept u t [0, b] ∧
        (b = 10 → (∀ k, blockOf (k / 32) = 10 → tfind t.dev.regs k = none) ∧ t.dev.jobs.inflight = u.dev.jobs.inflight.map (fun p =>
          (p.1, p.2.map (fun j => if j.engine = 0x50 then { j with state := 4, finished := false } else j)))) ∧
        (b = 11 → (∀ k, blockOf (k / 32) = 11 → k ≠ TWD_DAMPER.gap.key 0 0 → tfind t.dev.regs k = none) ∧
          t.dev.jobs.inflight = u.dev.jobs.inflight.map (fun p =>
            (p.1, p.2.map (fun j => if j.engine = 0x51 then { j with state := 4, finished := false } else j)))) ∧
        (b = 16 → t.dev.kln = ⟨[], 0, u.dev.kln.codes, u.dev.kln.moved⟩ ∧ t.dev.rd KLN_RES.residual_ppm = 0 ∧ t.dev.rd KLN_CFG.term_limit = 30) ∧
        (b = 17 → t.dev.fsc = { u.dev.fsc with hbTick := u.dev.ticks, hbAge := 0 } ∧
          t.dev.rd FSC_WALL_TRIM.trim = u.dev.rd FSC_WALL_TRIM.trim % 2 ^ FSC_WALL_TRIM.trim.w ∧
          ∀ n < 96, t.dev.rd FSC_PORT_RAW.power n = 0 ∧
            t.dev.rd FSC_PORT_LEVEL.active_level n = u.dev.rd FSC_PORT_LEVEL.active_level n % 2 ^ FSC_PORT_LEVEL.active_level.w ∧
            t.dev.rd FSC_PORT_K.k_tile n = u.dev.rd FSC_PORT_K.k_tile n % 2 ^ FSC_PORT_K.k_tile.w)) ∧
  (∀ (who : Initiator) (m v : Nat) (inPacket : List Nat) (s : State), let u := settled who (GLB_PORT_RESET.ent.at_ m 0) s
    Lets u who GLB_PORT_RESET.ent m 0 → ∃ t, exec (.portReset who m v inPacket) s = .next t ∧ SameStores u t ∧
      (∀ b < 32, t.dev.rdBit GLB_PORT_RESET.reset b m = (u.dev.rdBit GLB_PORT_RESET.reset b m || v.testBit b)) ∧
      ∀ b < 32, v = 2 ^ b → m < 3 → u.dev.rdBit GLB_PORT_RESET.reset b m = false → let n := 32 * m + b
        BlocksKept u t [0, 4, 6, 17] ∧ t.dev.rd CMP_PORT_SEL.active_xfer n = 0 ∧ t.dev.rd CMP_PORT_SEL.pending_xfer n = 0 ∧
        t.dev.rd CMP_PORT_SEL.dither_off n = 0 ∧ t.dev.rd FSC_PORT_RAW.power n = 0 ∧ tfind t.dev.cmp.checks n = none ∧
        tfind t.dev.cmp.pend n = none ∧ t.dev.cmp.force = u.dev.cmp.force ∧ t.dev.cmp.latched = u.dev.cmp.latched ∧ t.dev.fsc = u.dev.fsc ∧
        (u.dev.linkState n = 0 → t.dev.linkState n = 0) ∧
        (u.dev.linkState n = 1 → (u.dev.lnk n).await = false → t.dev.linkState n = 1 ∧ (t.dev.lnk n).held = (u.dev.lnk n).held) ∧
        (2 ≤ u.dev.linkState n ∨ u.dev.linkState n = 1 ∧ (u.dev.lnk n).await = true →
          t.dev.linkState n = if u.dev.glb.phase = .halted ∨ u.dev.refLost n = true then 1 else 2) ∧
        ((u.dev.img.port n).isSome = true → inPacket.contains n = true → ∃ k b c, Out.abort n k b c ∈ t.dev.out) ∧
        ∀ j < 96, j ≠ n → t.dev.linkState j = u.dev.linkState j) ∧
  (∀ (port : Bool) (n : Nat) (s : State), (if port = true then n < 96 else n < 18) →
    let f := if port = true then GLB_PORT_RESET.reset else GLB_BLOCK_RESET.reset
    let i := if port = true then n / 32 else 0
    let b := if port = true then n % 32 else n
    (s.dev.rdBit f b i = false → exec (.blockResetDone port n) s = .next s) ∧
    (s.dev.rdBit f b i = true → ∃ t, exec (.blockResetDone port n) s = .next t ∧ t.dev.rdBit f b i = false ∧ t.dev.eventSet 4 = true ∧
      RaisedOnly s t [f.key i 0, GLB_EVT_STATUS.status.key 0 0])) ∧
  (∀ (who : Initiator) (v : Nat) (s : State), let u := settled who (GLB_SMOULDER_CTRL.ent.at_ 0 0) s
    let key := GLB_SMOULDER_CTRL.wake_s.key 0 0
    Lets u who GLB_SMOULDER_CTRL.ent 0 0 → ∃ t, exec (.smoulderEnter who v) s = .next t ∧ t.pending = u.pending ∧ t.otp = u.otp ∧
      t.flash = u.flash ∧ t.dev.rd GLB_SMOULDER_CTRL.wake_s = v % 65536 ∧
      (u.dev.glb.phase = .smoulder ∨ u.dev.glb.smoulderEntry = true → OnlyCells u t [key]) ∧
      (u.dev.glb.phase ≠ .smoulder → u.dev.glb.smoulderEntry = false →
        (u.dev.smoulderRefused = true → t.dev.eventSet 268 = true ∧ RaisedOnly u t [key, TCT_EVT_STATUS.status.key 0 0]) ∧
        (u.dev.smoulderRefused = false →
          ((∃ g < 4, (u.dev.scnG g).running = true) → t.hbm = u.hbm ∧ CellsKept u t [key] ∧ t.dev.kin = u.dev.kin ∧
            t.dev.glb = { u.dev.glb with smoulderEntry := true, smoulderTick := u.dev.ticks, smoulderGroups := t.dev.glb.smoulderGroups } ∧
            ∀ g < 4, t.dev.glb.smoulderGroups.testBit g = (u.dev.scnG g).running) ∧
          ((∀ g < 4, (u.dev.scnG g).running = false) → t.hbm = [] ∧ t.dev.glb.phase = .smoulder ∧ t.dev.glb.smoulderEntry = false ∧
            t.dev.rd GLB_PWR_STATUS.core = 0 ∧ t.dev.rd GLB_PWR_STATUS.hbm = 0 ∧ t.dev.rd GLB_PWR_STATUS.pcie = 0 ∧
            t.dev.rd GLB_PWR_STATUS.ethernet = 0 ∧ t.dev.rd GLB_PWR_STATUS.quarters = 0 ∧ t.dev.rd GLB_PG_PWR.groups = 0 ∧
            (∀ m, (t.dev.busS m).open_ = none ∧ (t.dev.busS m).waiting = []) ∧ t.dev.stk.pcieUp = false ∧ t.dev.rd SEC_STATUS.mbx_open = 0 ∧ (∀ n, (t.dev.core n).run = 0) ∧
            ((∀ n ∈ u.dev.img.activePorts, n < 96) → ∀ n ∈ u.dev.img.activePorts, t.dev.linkState n = 0))))) ∧
  ∀ s : State,
    (s.dev.glb.failPin = true → exec .powerFailWarning s = .next s) ∧
    (s.dev.glb.failPin = false → ∃ t, exec .powerFailWarning s = .next t ∧ SameStores s t ∧
      t.dev.glb = { s.dev.glb with failPin := true, warned := true, warnTick := s.dev.ticks } ∧
      (s.dev.glb.phase = .held ∨ s.dev.glb.phase = .smoulder → t.dev.regs = s.dev.regs ∧ t.dev.evr = s.dev.evr) ∧
      (s.dev.glb.phase ≠ .held → s.dev.glb.phase ≠ .smoulder → t.dev.eventSet 0 = true ∧ t.dev.kin.flashRun = none ∧
        ((∀ n ∈ s.dev.img.activePorts, n < 96) → ∀ n ∈ s.dev.img.activePorts,
          t.dev.pstate n = (if s.dev.lit n = true then 4 else s.dev.pstate n)))) ∧
    (s.dev.glb.warned = false ∨ s.dev.glb.failPin = true → exec .powerRestored s = .next s) ∧
    (s.dev.glb.warned = true → s.dev.glb.failPin = false → ∃ t, exec .powerRestored s = .next t ∧ SameStores s t ∧
      t.dev.eventSet 1 = true ∧ t.dev.glb = { s.dev.glb with warned := false } ∧ s.dev.glb.warnTick + msTicks 100 ≤ t.dev.ticks ∧
      ∀ k, k ≠ GLB_EVT_STATUS.status.key 0 0 → blockOf (k / 32) ≠ 15 → tfind t.dev.regs k = tfind s.dev.regs k)

/-- An image is chosen, verified and applied at boot, and a relight is started, dropped, confirmed, carried on or fallen back from
(R66, R67, R68, R71, R72, R84, R85, R86, R91, R94 (02_kindling_image.md), read by inference (log entries 37, 38), model's choices
(log entries 11, 95, 127)). HBM_BOOT_TRAINING_DONE fails the pseudo-channels named and chooses the latest GOOD slot or halts, or in
a relight that changes an HBM clock fails those of its stacks and lets the application end (a margin found is a free value, log
entry 95, and a pseudo-channel without one is no failed training, log entry 127). LOAD_VERIFY_DONE goes on to application, or marks
the slot BAD and takes the other GOOD slot or halts. LOAD_APPLY_DONE runs the image with LOAD_DONE. RELIGHT_START, ABORT_RELIGHT and
CONFIRM_GOOD act or are refused as their rules say, a relight from HALTED and an abort in a fallback as log entries 37 and 38 read
them. RELIGHT_VERIFY_DONE drops the relight or journals RELIGHT_BEGIN and stops admission; RELIGHT_APPLY_DONE runs the new image;
SUPERVISOR_READY_TIMEOUT waits for the end of the 5 s (log entry 11), or ends a failed training with the new clocks in force, marks
the slot BAD and relights the latest GOOD slot or halts. Each outside its step changes nothing. -/
def Obligations.BootAndRelight : Prop :=
  let halted := fun (t : State) => t.dev.glb.phase = .halted ∧ t.dev.rd KIN_STATUS.state = 0xF ∧ t.dev.kin.relight = none
  let failed := fun (t : State) (code sect : Nat) => t.dev.rd KIN_ERR.code = code % 256 ∧ t.dev.rd KIN_ERR.section = sect % 256 ∧
    t.dev.rd KIN_ERR.patch = 0 ∧ t.dev.eventSet 33 = true
  let dropped := fun (t : State) => t.dev.kin.relight = none ∧ t.dev.kin.cand = none ∧ t.dev.rd KIN_RELIGHT.step = 0 ∧
    t.dev.rd KIN_STATUS.state = (if t.dev.glb.phase = .halted then 0xF else 3)
  (∀ (fails : List Nat) (s : State),
    (s.dev.glb.phase ≠ .waitTraining → s.dev.trainingDue = false → exec (.hbmBootTrainingDone fails) s = .next s) ∧
    (s.dev.glb.phase ≠ .waitTraining → s.dev.trainingDue = true → ∃ t, exec (.hbmBootTrainingDone fails) s = .next t ∧ SameStores s t ∧
      t.dev.kin = { s.dev.kin with relight := s.dev.kin.relight.map (fun r => { r with trained := true }) } ∧ t.dev.trainingDue = false ∧
      ∀ im p, s.dev.kin.cand = some im → p < 64 → hbmClockChanged s.dev.img im (p / 32) = true →
        (p ∈ fails → t.dev.pchFailed p = true ∧ t.dev.rd MEM_TRAIN_STATUS.margin p = 0) ∧
        (p ∉ fails → t.dev.rd MEM_TRAIN_STATUS.margin p ≠ 0)) ∧
    (s.dev.glb.phase = .waitTraining → ∃ t, exec (.hbmBootTrainingDone fails) s = .next t ∧ SameStores s t ∧
      t.dev.peat = s.dev.peat ∧ (∀ p < 64, (p ∈ fails → t.dev.pchFailed p = true ∧ t.dev.rd MEM_TRAIN_STATUS.margin p = 0) ∧
        (p ∉ fails → t.dev.rd MEM_TRAIN_STATUS.margin p ≠ 0)) ∧
      (loadBarred s.otp = true → halted t ∧ failed t 0x0E 0) ∧ (loadBarred s.otp = false → s.dev.bestGood = none → halted t) ∧
      ∀ slot, loadBarred s.otp = false → s.dev.bestGood = some slot →
        t.dev.glb.phase = .verify ∧ t.dev.kin.source = slot ∧ t.dev.rd KIN_STATUS.state = 1)) ∧
  (∀ s : State, let slot := s.dev.kin.source
    (s.dev.glb.phase ≠ .verify → exec .loadVerifyDone s = .next s) ∧
    (s.dev.glb.phase = .verify → ∃ t, exec .loadVerifyDone s = .next t ∧ SameStores s t ∧
      (loadBarred s.otp = true → halted t ∧ failed t 0x0E 0) ∧
      (loadBarred s.otp = false → (∀ im, verifyImage s (tget s.flash slot []) = .accept im → t.dev.kin.cand = some im ∧
          t.dev.glb.phase = .apply ∧ t.dev.rd KIN_STATUS.state = 2 ∧ t.dev.peat = s.dev.peat) ∧
        ∀ code sect, verifyImage s (tget s.flash slot []) = .reject code sect → failed t code sect ∧ t.dev.slotState slot = slotBad ∧
          (s.dev.slotState (1 - slot) = slotGood → t.dev.kin.source = 1 - slot ∧ t.dev.glb.phase = .verify ∧ t.dev.eventSet 36 = true) ∧
          (s.dev.slotState (1 - slot) ≠ slotGood → halted t)))) ∧
  (∀ (fails : List Nat) (s : State),
    (s.dev.glb.phase ≠ .apply ∨ s.dev.kin.cand = none → exec (.loadApplyDone fails) s = .next s) ∧
    ∀ im, s.dev.glb.phase = .apply → s.dev.kin.cand = some im → ∃ t, exec (.loadApplyDone fails) s = .next t ∧ KeepsRest s t ∧
      t.dev.img = im ∧ t.dev.loaded = true ∧ t.dev.glb.phase = .run ∧ t.dev.glb.held = 0 ∧ t.dev.kin.cand = none ∧
      t.dev.rd KIN_STATUS.state = 3 ∧ t.dev.rd KIN_STATUS.slot = s.dev.kin.source % 2 ∧ t.dev.eventSet 32 = true) ∧
  (∀ (who : Initiator) (v : Nat) (s : State), let u := settled who (KIN_CTRL.ent.at_ 0 0) s
    Lets u who KIN_CTRL.ent 0 0 →
    (let p := kinWrite (clearBits v 1) u
     let slot := b2n (v.testBit 4)
     ∃ t, exec (.relightStart who v) s = .next t ∧ SameStores u t ∧ t.dev.rd KIN_CTRL.slot_select = slot ∧
      (p.dev.kin.relight ≠ none → t.dev.regs = (p.dev.count KIN_ABORT_IGNORED_CNT.sat KIN_ABORT_IGNORED_CNT.count).regs ∧ t.dev.kin = p.dev.kin) ∧
      (p.dev.kin.relight = none →
        (loadBarred u.otp = true → failed t 0x0E 0 ∧ t.dev.kin = p.dev.kin) ∧
        (loadBarred u.otp = false → p.dev.slotState slot = 0 ∨ p.dev.slotState slot = slotBad → failed t 0x14 0 ∧ t.dev.kin = p.dev.kin ∧
          t.dev.peat = p.dev.peat ∧ t.dev.rd KIN_RELIGHT.step = p.dev.rd KIN_RELIGHT.step) ∧
        (loadBarred u.otp = false → p.dev.slotState slot ≠ 0 → p.dev.slotState slot ≠ slotBad →
          (p.dev.glb.phase ≠ .run → p.dev.glb.phase ≠ .halted → t = p) ∧
          (p.dev.glb.phase = .run ∨ p.dev.glb.phase = .halted → t.dev.kin = { p.dev.kin with relight := some ⟨slot, p.dev.ticks, false, 0, false⟩, cand := none } ∧
          t.dev.rd KIN_STATUS.state = 4 ∧ t.dev.rd KIN_RELIGHT.step = 1 ∧ t.dev.eventSet 34 = true)))) ∧
    (v.testBit 0 = false → ∃ t, exec (.abortRelight who v) s = .next t ∧ SameStores u t ∧
      (∀ r, u.dev.kin.relight = some r → u.dev.rd KIN_RELIGHT.step = 1 → dropped t ∧ t.dev.kin.noAdmit = false ∧ t.dev.rd KIN_RELIGHT.elapsed_ms = u.dev.msSince r.started % 2 ^ 24) ∧
      (u.dev.kin.relight = none ∨ u.dev.rd KIN_RELIGHT.step ≠ 1 →
        t.dev.kin = u.dev.kin ∧ (v.testBit 8 = false → t.dev.rd KIN_ABORT_IGNORED_CNT.count =
          (u.dev.count KIN_ABORT_IGNORED_CNT.sat KIN_ABORT_IGNORED_CNT.count).rd KIN_ABORT_IGNORED_CNT.count))) ∧
    (v.testBit 0 = false → let p := kinWrite (clearBits v 256) u
      let slot := p.dev.rd KIN_STATUS.slot
      ∃ t, exec (.confirmGood who v) s = .next t ∧ SameStores u t ∧ t.dev.kin = p.dev.kin ∧
      (p.dev.glb.phase = .run → p.dev.slotState slot = slotTrial →
        t.dev.slotState slot = slotGood ∧ t.dev.rd KIN_STATUS.trial = 0) ∧
      (p.dev.glb.phase ≠ .run ∨ p.dev.slotState slot ≠ slotTrial → t = p))) ∧
  ∀ (fails : List Nat) (s : State), s.dev.kinRuns = true →
    (s.dev.kin.relight = none ∨ s.dev.rd KIN_RELIGHT.step ≠ 1 → exec .relightVerifyDone s = .next s) ∧
    (s.dev.kin.relight = none ∨ s.dev.kin.cand = none ∨ s.dev.rd KIN_RELIGHT.step ≠ 5 ∨ s.dev.trainingDue = true →
      exec (.relightApplyDone fails) s = .next s) ∧
    (s.dev.kin.relight = none ∨ s.dev.trainingDue = false ∧ (s.dev.rd KIN_RELIGHT.step ≠ 6 ∨ s.dev.kin.supReady = true) →
      exec .supervisorReadyTimeout s = .next s) ∧
    ∀ r, s.dev.kin.relight = some r →
      (s.dev.rd KIN_RELIGHT.step = 1 → ∃ t, exec .relightVerifyDone s = .next t ∧ SameStores s t ∧
        (∀ code sect, loadBarred s.otp = true ∧ (code, sect) = (0x0E, 0) ∨
            loadBarred s.otp = false ∧ verifyImage s (tget s.flash r.target []) = .reject code sect →
          failed t code sect ∧ (r.fallback = false → dropped t ∧ t.dev.peat.journal = s.dev.peat.journal) ∧
          (r.fallback = true → halted t ∧ t.dev.slotState r.target = slotBad)) ∧
        ∀ im, loadBarred s.otp = false → verifyImage s (tget s.flash r.target []) = .accept im →
          t.dev.kin.cand = some im ∧ t.dev.kin.noAdmit = true ∧ (∃ e, t.dev.peat.journal = s.dev.peat.journal ++ [e] ∧ e.kind = 1 ∧
            e.slot = r.target ∧ e.imageId = im.imageId) ∧
          ((∃ g < 4, t.dev.started g = true) → t.dev.rd KIN_RELIGHT.step = 2 ∨ t.dev.rd KIN_RELIGHT.step = 3) ∧
          ((∀ g < 4, t.dev.started g = false) → t.dev.rd KIN_RELIGHT.step = 4 ∨ t.dev.rd KIN_RELIGHT.step = 5)) ∧
      (∀ im, s.dev.kin.cand = some im → s.dev.rd KIN_RELIGHT.step = 5 → s.dev.trainingDue = false → ∃ t, exec (.relightApplyDone fails) s = .next t ∧ KeepsRest s t ∧
        t.dev.img = im ∧ t.dev.loaded = true ∧ t.dev.glb.phase = .run ∧ t.dev.glb.held = 0 ∧ t.dev.kin.relight = some r ∧ t.dev.rd KIN_RELIGHT.step = 6 ∧
        t.dev.rd KIN_STATUS.state = (if r.fallback = true then 5 else 4) ∧ t.dev.rd KIN_STATUS.slot = r.target % 2 ∧ t.dev.eventSet 32 = true) ∧
      ((s.dev.rd KIN_RELIGHT.step = 6 ∧ s.dev.kin.supReady = false) ∨ s.dev.trainingDue = true →
        ∃ t, exec .supervisorReadyTimeout s = .next t ∧ SameStores s t ∧ t.dev.slotState r.target = slotBad ∧ t.dev.eventSet 36 = true ∧
          (s.dev.rd KIN_RELIGHT.step = 6 → s.dev.kin.released + msTicks 5000 ≤ t.dev.ticks) ∧
          (s.dev.trainingDue = true → ∀ im, s.dev.kin.cand = some im → t.dev.img.clock.freq = im.clock.freq ∧ t.dev.glb.held = 0) ∧
          (t.dev.rd KIN_STATUS.trial = 1 ↔ t.dev.slotState (t.dev.rd KIN_STATUS.slot) = slotTrial) ∧
          (t.dev.bestGood = none → halted t) ∧
          ∀ slot, t.dev.bestGood = some slot → t.dev.kin.relight = some ⟨slot, r.started, true, 0, false⟩ ∧
            t.dev.rd KIN_RELIGHT.step = 1 ∧ t.dev.rd KIN_STATUS.state = 5)

/-- Live patches are submitted, staged, superseded or rejected, and a flash slot is emptied, written and marked TRIAL (R64, R69,
R75, R76, R77, R78, R79, R80, R96 (02_kindling_image.md), R563 (15_reset_power_faults.md), read by inference (log entries 40, 93),
model's choice (log entry 39)). LIVE_PATCH_SUBMIT by a secure stoker or the open mailbox queues a patch, or during a relight rejects
it. LIVE_PATCH_VERIFIED of the oldest rejects it with its code, or stages it for its wall groups, dropping whole the staged patches
it supersedes (log entry 40), and one for no group is done at once; a section for the whole device takes effect at once while no
wall group has started, and where else is log entry 93's reading. FLASH_SLOT_WRITE by such a sender, where R69 lets it, empties the
slot and begins; FLASH_WRITE_DONE, whose operand says whether the read-back agreed (log entry 39), stores the bytes and marks the
slot TRIAL, or leaves it EMPTY. All else changes nothing. -/
def Obligations.PatchesAndFlash : Prop :=
  let rejected := fun (s t : State) (code sect : Nat) => SameStores s t ∧ t.dev.rd KIN_ERR.code = code % 256 ∧
    t.dev.rd KIN_ERR.section = sect % 256 ∧ t.dev.rd KIN_ERR.patch = 1 ∧ t.dev.eventSet 38 = true ∧ t.dev.kin.staged = s.dev.kin.staged ∧
    t.dev.rd KIN_LIVE_REJECT_CNT.count = (s.dev.count KIN_LIVE_REJECT_CNT.sat KIN_LIVE_REJECT_CNT.count).rd KIN_LIVE_REJECT_CNT.count ∧
    t.dev.img = s.dev.img
  (∀ (who : Initiator) (b : List Byte) (s : State),
    (s.dev.kinRuns = false ∨ s.dev.secureSender who = false → exec (.livePatchSubmit who b) s = .next s) ∧
    (s.dev.kinRuns = true → s.dev.secureSender who = true →
      (s.dev.kin.relight = none → exec (.livePatchSubmit who b) s =
        .next { s with dev := { s.dev with kin := { s.dev.kin with patches := s.dev.kin.patches ++ [b] } } }) ∧
      (s.dev.kin.relight ≠ none → ∃ t, exec (.livePatchSubmit who b) s = .next t ∧ rejected s t 0x12 0 ∧ t.dev.kin = s.dev.kin))) ∧
  (∀ s : State, s.dev.kinRuns = true → (s.dev.kin.patches = [] → exec .livePatchVerified s = .next s) ∧
    ∀ b rest, s.dev.kin.patches = b :: rest →
      let u : State := { s with dev := { s.dev with kin := { s.dev.kin with patches := rest } } }
      ∃ t, exec .livePatchVerified s = .next t ∧ SameStores s t ∧ t.dev.kin.patches = rest ∧
        (∀ code sect, verifyPatch u b = .reject code sect → rejected s t code sect) ∧
        ∀ im, verifyPatch u b = .accept im →
          let wide := u.dev.lowestStarted
          let now := im.sections.filter (fun x => deviceWide x.id && wide.isNone)
          let rest := im.sections.filter (fun x => ! (deviceWide x.id && wide.isNone))
          let p : Staged := ⟨u.dev.kin.nextPatch, imgPatchSeq b, rest, u.dev.patchGroups wide rest, wide⟩
          let left := s.dev.kin.staged.filter (fun q => ! s.dev.kin.staged.any (fun x => u.dev.clashes p x && x.num == q.num))
          t.dev.img = now.foldl (fun m x => m.putWhole { x with scope := none }) s.dev.img ∧ t.dev.kin.nextPatch = s.dev.kin.nextPatch + 1 ∧
          (let arb := (now.filter (fun x => x.id == 0x0C)).foldl (fun d x => d.arbiterRegs (Config.arbiterSection x.body)) s.dev
           ∀ k, blockOf (k / 32) = 9 → tfind t.dev.regs k = tfind arb.regs k) ∧
          ((∃ q ∈ s.dev.kin.staged, u.dev.clashes p q = true) → t.dev.eventSet 39 = true) ∧
          (p.groups ≠ 0 → t.dev.kin.staged = left ++ [p] ∧
            t.dev.rd KIN_LIVE_STATUS.groups_pending = stagedGroups t.dev.kin.staged ∧ t.dev.rd KIN_STATUS.live_busy = 1) ∧
          (p.groups = 0 → t.dev.kin.staged = left ∧ t.dev.eventSet 37 = true ∧
            t.dev.rd KIN_LIVE_STATUS.patch_seq = imgPatchSeq b % 2 ^ 16)) ∧
  (∀ (who : Initiator) (slot : Nat) (b : List Byte) (s : State),
    (s.dev.kinRuns = false ∨ s.dev.secureSender who = false ∨ s.dev.flashOk slot b = false → exec (.flashSlotWrite who slot b) s = .next s) ∧
    (who = .bar0 ∨ who = .jtag ∨ (∃ n, who = .engine n) → s.dev.secureSender who = false) ∧
    (s.dev.kinRuns = true → s.dev.secureSender who = true → s.dev.flashOk slot b = true →
      ∃ t, exec (.flashSlotWrite who slot b) s = .next t ∧ t.pending = s.pending ∧ t.otp = s.otp ∧ t.hbm = s.hbm ∧
        t.flash = tput s.flash slot [] ∧ t.dev.kin = { s.dev.kin with flashRun := some (slot, b) } ∧ t.dev.slotState slot = 0 ∧
        t.dev.slotState (1 - slot) = s.dev.slotState (1 - slot) ∧ t.dev.rd KIN_SLOT.state slot = 0 ∧ BlocksKept s t [1])) ∧
  ∀ (ok : Bool) (s : State), s.dev.kinRuns = true →
    (s.dev.kin.flashRun = none → exec (.flashWriteDone ok) s = .next s) ∧
    ∀ slot b, s.dev.kin.flashRun = some (slot, b) → ∃ t, exec (.flashWriteDone ok) s = .next t ∧ t.pending = s.pending ∧ t.otp = s.otp ∧
      t.hbm = s.hbm ∧ t.dev.kin = { s.dev.kin with flashRun := none } ∧
      (ok = true → t.flash = tput s.flash slot b ∧ t.dev.slotState slot = slotTrial) ∧
      (ok = false → t.flash = s.flash ∧ t.dev.regs = s.dev.regs ∧ t.dev.peat = s.dev.peat)
end

