-- ==== Sys2Proof/Laws/State.lean ====
section
/-!
SUPPORT. What each update of the state leaves as it was: one lemma per field and update, so that no proof unfolds a record update.
-/
namespace Sys2Proof.Machine

/-! ### The device part of a state -/

@[simp] theorem onDev_pending (s : State) (f : Dev → Dev) : (onDev s f).pending = s.pending := rfl
@[simp] theorem onDev_otp (s : State) (f : Dev → Dev) : (onDev s f).otp = s.otp := rfl
@[simp] theorem onDev_flash (s : State) (f : Dev → Dev) : (onDev s f).flash = s.flash := rfl
@[simp] theorem onDev_hbm (s : State) (f : Dev → Dev) : (onDev s f).hbm = s.hbm := rfl
@[simp] theorem onDev_dev (s : State) (f : Dev → Dev) : (onDev s f).dev = f s.dev := rfl
theorem onDev_onDev (s : State) (f g : Dev → Dev) : onDev (onDev s f) g = onDev s (fun d => g (f d)) := rfl

/-! ### Dev.wr -/

@[simp] theorem Dev.wr_img (d : Dev) (f : Fld) (v i j : Nat) : (d.wr f v i j).img = d.img := rfl
@[simp] theorem Dev.wr_loaded (d : Dev) (f : Fld) (v i j : Nat) : (d.wr f v i j).loaded = d.loaded := rfl
@[simp] theorem Dev.wr_ticks (d : Dev) (f : Fld) (v i j : Nat) : (d.wr f v i j).ticks = d.ticks := rfl
@[simp] theorem Dev.wr_free (d : Dev) (f : Fld) (v i j : Nat) : (d.wr f v i j).free = d.free := rfl
@[simp] theorem Dev.wr_out (d : Dev) (f : Fld) (v i j : Nat) : (d.wr f v i j).out = d.out := rfl
@[simp] theorem Dev.wr_posted (d : Dev) (f : Fld) (v i j : Nat) : (d.wr f v i j).posted = d.posted := rfl
@[simp] theorem Dev.wr_latch (d : Dev) (f : Fld) (v i j : Nat) : (d.wr f v i j).latch = d.latch := rfl
@[simp] theorem Dev.wr_peat (d : Dev) (f : Fld) (v i j : Nat) : (d.wr f v i j).peat = d.peat := rfl
@[simp] theorem Dev.wr_evr (d : Dev) (f : Fld) (v i j : Nat) : (d.wr f v i j).evr = d.evr := rfl
@[simp] theorem Dev.wr_kln (d : Dev) (f : Fld) (v i j : Nat) : (d.wr f v i j).kln = d.kln := rfl
@[simp] theorem Dev.wr_sec (d : Dev) (f : Fld) (v i j : Nat) : (d.wr f v i j).sec = d.sec := rfl
@[simp] theorem Dev.wr_kin (d : Dev) (f : Fld) (v i j : Nat) : (d.wr f v i j).kin = d.kin := rfl
@[simp] theorem Dev.wr_glb (d : Dev) (f : Fld) (v i j : Nat) : (d.wr f v i j).glb = d.glb := rfl
@[simp] theorem Dev.wr_ing (d : Dev) (f : Fld) (v i j : Nat) : (d.wr f v i j).ing = d.ing := rfl
@[simp] theorem Dev.wr_ltab (d : Dev) (f : Fld) (v i j : Nat) : (d.wr f v i j).ltab = d.ltab := rfl
@[simp] theorem Dev.wr_ray (d : Dev) (f : Fld) (v i j : Nat) : (d.wr f v i j).ray = d.ray := rfl
@[simp] theorem Dev.wr_cmp (d : Dev) (f : Fld) (v i j : Nat) : (d.wr f v i j).cmp = d.cmp := rfl
@[simp] theorem Dev.wr_scn (d : Dev) (f : Fld) (v i j : Nat) : (d.wr f v i j).scn = d.scn := rfl
@[simp] theorem Dev.wr_link (d : Dev) (f : Fld) (v i j : Nat) : (d.wr f v i j).link = d.link := rfl
@[simp] theorem Dev.wr_bus (d : Dev) (f : Fld) (v i j : Nat) : (d.wr f v i j).bus = d.bus := rfl
@[simp] theorem Dev.wr_tct (d : Dev) (f : Fld) (v i j : Nat) : (d.wr f v i j).tct = d.tct := rfl
@[simp] theorem Dev.wr_fsc (d : Dev) (f : Fld) (v i j : Nat) : (d.wr f v i j).fsc = d.fsc := rfl
@[simp] theorem Dev.wr_arb (d : Dev) (f : Fld) (v i j : Nat) : (d.wr f v i j).arb = d.arb := rfl
@[simp] theorem Dev.wr_pch (d : Dev) (f : Fld) (v i j : Nat) : (d.wr f v i j).pch = d.pch := rfl
@[simp] theorem Dev.wr_jobs (d : Dev) (f : Fld) (v i j : Nat) : (d.wr f v i j).jobs = d.jobs := rfl
@[simp] theorem Dev.wr_stk (d : Dev) (f : Fld) (v i j : Nat) : (d.wr f v i j).stk = d.stk := rfl
@[simp] theorem Dev.wr_net (d : Dev) (f : Fld) (v i j : Nat) : (d.wr f v i j).net = d.net := rfl

/-! ### Dev.wrb -/

@[simp] theorem Dev.wrb_img (d : Dev) (f : Fld) (b : Bool) (i j : Nat) : (d.wrb f b i j).img = d.img := rfl
@[simp] theorem Dev.wrb_loaded (d : Dev) (f : Fld) (b : Bool) (i j : Nat) : (d.wrb f b i j).loaded = d.loaded := rfl
@[simp] theorem Dev.wrb_ticks (d : Dev) (f : Fld) (b : Bool) (i j : Nat) : (d.wrb f b i j).ticks = d.ticks := rfl
@[simp] theorem Dev.wrb_free (d : Dev) (f : Fld) (b : Bool) (i j : Nat) : (d.wrb f b i j).free = d.free := rfl
@[simp] theorem Dev.wrb_out (d : Dev) (f : Fld) (b : Bool) (i j : Nat) : (d.wrb f b i j).out = d.out := rfl
@[simp] theorem Dev.wrb_posted (d : Dev) (f : Fld) (b : Bool) (i j : Nat) : (d.wrb f b i j).posted = d.posted := rfl
@[simp] theorem Dev.wrb_latch (d : Dev) (f : Fld) (b : Bool) (i j : Nat) : (d.wrb f b i j).latch = d.latch := rfl
@[simp] theorem Dev.wrb_peat (d : Dev) (f : Fld) (b : Bool) (i j : Nat) : (d.wrb f b i j).peat = d.peat := rfl
@[simp] theorem Dev.wrb_evr (d : Dev) (f : Fld) (b : Bool) (i j : Nat) : (d.wrb f b i j).evr = d.evr := rfl
@[simp] theorem Dev.wrb_kln (d : Dev) (f : Fld) (b : Bool) (i j : Nat) : (d.wrb f b i j).kln = d.kln := rfl
@[simp] theorem Dev.wrb_sec (d : Dev) (f : Fld) (b : Bool) (i j : Nat) : (d.wrb f b i j).sec = d.sec := rfl
@[simp] theorem Dev.wrb_kin (d : Dev) (f : Fld) (b : Bool) (i j : Nat) : (d.wrb f b i j).kin = d.kin := rfl
@[simp] theorem Dev.wrb_glb (d : Dev) (f : Fld) (b : Bool) (i j : Nat) : (d.wrb f b i j).glb = d.glb := rfl
@[simp] theorem Dev.wrb_ing (d : Dev) (f : Fld) (b : Bool) (i j : Nat) : (d.wrb f b i j).ing = d.ing := rfl
@[simp] theorem Dev.wrb_ltab (d : Dev) (f : Fld) (b : Bool) (i j : Nat) : (d.wrb f b i j).ltab = d.ltab := rfl
@[simp] theorem Dev.wrb_ray (d : Dev) (f : Fld) (b : Bool) (i j : Nat) : (d.wrb f b i j).ray = d.ray := rfl
@[simp] theorem Dev.wrb_cmp (d : Dev) (f : Fld) (b : Bool) (i j : Nat) : (d.wrb f b i j).cmp = d.cmp := rfl
@[simp] theorem Dev.wrb_scn (d : Dev) (f : Fld) (b : Bool) (i j : Nat) : (d.wrb f b i j).scn = d.scn := rfl
@[simp] theorem Dev.wrb_link (d : Dev) (f : Fld) (b : Bool) (i j : Nat) : (d.wrb f b i j).link = d.link := rfl
@[simp] theorem Dev.wrb_bus (d : Dev) (f : Fld) (b : Bool) (i j : Nat) : (d.wrb f b i j).bus = d.bus := rfl
@[simp] theorem Dev.wrb_tct (d : Dev) (f : Fld) (b : Bool) (i j : Nat) : (d.wrb f b i j).tct = d.tct := rfl
@[simp] theorem Dev.wrb_fsc (d : Dev) (f : Fld) (b : Bool) (i j : Nat) : (d.wrb f b i j).fsc = d.fsc := rfl
@[simp] theorem Dev.wrb_arb (d : Dev) (f : Fld) (b : Bool) (i j : Nat) : (d.wrb f b i j).arb = d.arb := rfl
@[simp] theorem Dev.wrb_pch (d : Dev) (f : Fld) (b : Bool) (i j : Nat) : (d.wrb f b i j).pch = d.pch := rfl
@[simp] theorem Dev.wrb_jobs (d : Dev) (f : Fld) (b : Bool) (i j : Nat) : (d.wrb f b i j).jobs = d.jobs := rfl
@[simp] theorem Dev.wrb_stk (d : Dev) (f : Fld) (b : Bool) (i j : Nat) : (d.wrb f b i j).stk = d.stk := rfl
@[simp] theorem Dev.wrb_net (d : Dev) (f : Fld) (b : Bool) (i j : Nat) : (d.wrb f b i j).net = d.net := rfl

/-! ### Dev.wrBit -/

@[simp] theorem Dev.wrBit_img (d : Dev) (f : Fld) (k : Nat) (b : Bool) (i j : Nat) : (d.wrBit f k b i j).img = d.img := rfl
@[simp] theorem Dev.wrBit_loaded (d : Dev) (f : Fld) (k : Nat) (b : Bool) (i j : Nat) : (d.wrBit f k b i j).loaded = d.loaded := rfl
@[simp] theorem Dev.wrBit_ticks (d : Dev) (f : Fld) (k : Nat) (b : Bool) (i j : Nat) : (d.wrBit f k b i j).ticks = d.ticks := rfl
@[simp] theorem Dev.wrBit_free (d : Dev) (f : Fld) (k : Nat) (b : Bool) (i j : Nat) : (d.wrBit f k b i j).free = d.free := rfl
@[simp] theorem Dev.wrBit_out (d : Dev) (f : Fld) (k : Nat) (b : Bool) (i j : Nat) : (d.wrBit f k b i j).out = d.out := rfl
@[simp] theorem Dev.wrBit_posted (d : Dev) (f : Fld) (k : Nat) (b : Bool) (i j : Nat) : (d.wrBit f k b i j).posted = d.posted := rfl
@[simp] theorem Dev.wrBit_latch (d : Dev) (f : Fld) (k : Nat) (b : Bool) (i j : Nat) : (d.wrBit f k b i j).latch = d.latch := rfl
@[simp] theorem Dev.wrBit_peat (d : Dev) (f : Fld) (k : Nat) (b : Bool) (i j : Nat) : (d.wrBit f k b i j).peat = d.peat := rfl
@[simp] theorem Dev.wrBit_evr (d : Dev) (f : Fld) (k : Nat) (b : Bool) (i j : Nat) : (d.wrBit f k b i j).evr = d.evr := rfl
@[simp] theorem Dev.wrBit_kln (d : Dev) (f : Fld) (k : Nat) (b : Bool) (i j : Nat) : (d.wrBit f k b i j).kln = d.kln := rfl
@[simp] theorem Dev.wrBit_sec (d : Dev) (f : Fld) (k : Nat) (b : Bool) (i j : Nat) : (d.wrBit f k b i j).sec = d.sec := rfl
@[simp] theorem Dev.wrBit_kin (d : Dev) (f : Fld) (k : Nat) (b : Bool) (i j : Nat) : (d.wrBit f k b i j).kin = d.kin := rfl
@[simp] theorem Dev.wrBit_glb (d : Dev) (f : Fld) (k : Nat) (b : Bool) (i j : Nat) : (d.wrBit f k b i j).glb = d.glb := rfl
@[simp] theorem Dev.wrBit_ing (d : Dev) (f : Fld) (k : Nat) (b : Bool) (i j : Nat) : (d.wrBit f k b i j).ing = d.ing := rfl
@[simp] theorem Dev.wrBit_ltab (d : Dev) (f : Fld) (k : Nat) (b : Bool) (i j : Nat) : (d.wrBit f k b i j).ltab = d.ltab := rfl
@[simp] theorem Dev.wrBit_ray (d : Dev) (f : Fld) (k : Nat) (b : Bool) (i j : Nat) : (d.wrBit f k b i j).ray = d.ray := rfl
@[simp] theorem Dev.wrBit_cmp (d : Dev) (f : Fld) (k : Nat) (b : Bool) (i j : Nat) : (d.wrBit f k b i j).cmp = d.cmp := rfl
@[simp] theorem Dev.wrBit_scn (d : Dev) (f : Fld) (k : Nat) (b : Bool) (i j : Nat) : (d.wrBit f k b i j).scn = d.scn := rfl
@[simp] theorem Dev.wrBit_link (d : Dev) (f : Fld) (k : Nat) (b : Bool) (i j : Nat) : (d.wrBit f k b i j).link = d.link := rfl
@[simp] theorem Dev.wrBit_bus (d : Dev) (f : Fld) (k : Nat) (b : Bool) (i j : Nat) : (d.wrBit f k b i j).bus = d.bus := rfl
@[simp] theorem Dev.wrBit_tct (d : Dev) (f : Fld) (k : Nat) (b : Bool) (i j : Nat) : (d.wrBit f k b i j).tct = d.tct := rfl
@[simp] theorem Dev.wrBit_fsc (d : Dev) (f : Fld) (k : Nat) (b : Bool) (i j : Nat) : (d.wrBit f k b i j).fsc = d.fsc := rfl
@[simp] theorem Dev.wrBit_arb (d : Dev) (f : Fld) (k : Nat) (b : Bool) (i j : Nat) : (d.wrBit f k b i j).arb = d.arb := rfl
@[simp] theorem Dev.wrBit_pch (d : Dev) (f : Fld) (k : Nat) (b : Bool) (i j : Nat) : (d.wrBit f k b i j).pch = d.pch := rfl
@[simp] theorem Dev.wrBit_jobs (d : Dev) (f : Fld) (k : Nat) (b : Bool) (i j : Nat) : (d.wrBit f k b i j).jobs = d.jobs := rfl
@[simp] theorem Dev.wrBit_stk (d : Dev) (f : Fld) (k : Nat) (b : Bool) (i j : Nat) : (d.wrBit f k b i j).stk = d.stk := rfl
@[simp] theorem Dev.wrBit_net (d : Dev) (f : Fld) (k : Nat) (b : Bool) (i j : Nat) : (d.wrBit f k b i j).net = d.net := rfl

/-! ### Dev.resetRegs -/

@[simp] theorem Dev.resetRegs_img (d : Dev) (a n : Nat) : (d.resetRegs a n).img = d.img := rfl
@[simp] theorem Dev.resetRegs_loaded (d : Dev) (a n : Nat) : (d.resetRegs a n).loaded = d.loaded := rfl
@[simp] theorem Dev.resetRegs_ticks (d : Dev) (a n : Nat) : (d.resetRegs a n).ticks = d.ticks := rfl
@[simp] theorem Dev.resetRegs_free (d : Dev) (a n : Nat) : (d.resetRegs a n).free = d.free := rfl
@[simp] theorem Dev.resetRegs_out (d : Dev) (a n : Nat) : (d.resetRegs a n).out = d.out := rfl
@[simp] theorem Dev.resetRegs_posted (d : Dev) (a n : Nat) : (d.resetRegs a n).posted = d.posted := rfl
@[simp] theorem Dev.resetRegs_latch (d : Dev) (a n : Nat) : (d.resetRegs a n).latch = d.latch := rfl
@[simp] theorem Dev.resetRegs_peat (d : Dev) (a n : Nat) : (d.resetRegs a n).peat = d.peat := rfl
@[simp] theorem Dev.resetRegs_evr (d : Dev) (a n : Nat) : (d.resetRegs a n).evr = d.evr := rfl
@[simp] theorem Dev.resetRegs_kln (d : Dev) (a n : Nat) : (d.resetRegs a n).kln = d.kln := rfl
@[simp] theorem Dev.resetRegs_sec (d : Dev) (a n : Nat) : (d.resetRegs a n).sec = d.sec := rfl
@[simp] theorem Dev.resetRegs_kin (d : Dev) (a n : Nat) : (d.resetRegs a n).kin = d.kin := rfl
@[simp] theorem Dev.resetRegs_glb (d : Dev) (a n : Nat) : (d.resetRegs a n).glb = d.glb := rfl
@[simp] theorem Dev.resetRegs_ing (d : Dev) (a n : Nat) : (d.resetRegs a n).ing = d.ing := rfl
@[simp] theorem Dev.resetRegs_ltab (d : Dev) (a n : Nat) : (d.resetRegs a n).ltab = d.ltab := rfl
@[simp] theorem Dev.resetRegs_ray (d : Dev) (a n : Nat) : (d.resetRegs a n).ray = d.ray := rfl
@[simp] theorem Dev.resetRegs_cmp (d : Dev) (a n : Nat) : (d.resetRegs a n).cmp = d.cmp := rfl
@[simp] theorem Dev.resetRegs_scn (d : Dev) (a n : Nat) : (d.resetRegs a n).scn = d.scn := rfl
@[simp] theorem Dev.resetRegs_link (d : Dev) (a n : Nat) : (d.resetRegs a n).link = d.link := rfl
@[simp] theorem Dev.resetRegs_bus (d : Dev) (a n : Nat) : (d.resetRegs a n).bus = d.bus := rfl
@[simp] theorem Dev.resetRegs_tct (d : Dev) (a n : Nat) : (d.resetRegs a n).tct = d.tct := rfl
@[simp] theorem Dev.resetRegs_fsc (d : Dev) (a n : Nat) : (d.resetRegs a n).fsc = d.fsc := rfl
@[simp] theorem Dev.resetRegs_arb (d : Dev) (a n : Nat) : (d.resetRegs a n).arb = d.arb := rfl
@[simp] theorem Dev.resetRegs_pch (d : Dev) (a n : Nat) : (d.resetRegs a n).pch = d.pch := rfl
@[simp] theorem Dev.resetRegs_jobs (d : Dev) (a n : Nat) : (d.resetRegs a n).jobs = d.jobs := rfl
@[simp] theorem Dev.resetRegs_stk (d : Dev) (a n : Nat) : (d.resetRegs a n).stk = d.stk := rfl
@[simp] theorem Dev.resetRegs_net (d : Dev) (a n : Nat) : (d.resetRegs a n).net = d.net := rfl

/-! ### Dev.emit -/

@[simp] theorem Dev.emit_regs (d : Dev) (o : Out) : (d.emit o).regs = d.regs := rfl
@[simp] theorem Dev.emit_img (d : Dev) (o : Out) : (d.emit o).img = d.img := rfl
@[simp] theorem Dev.emit_loaded (d : Dev) (o : Out) : (d.emit o).loaded = d.loaded := rfl
@[simp] theorem Dev.emit_ticks (d : Dev) (o : Out) : (d.emit o).ticks = d.ticks := rfl
@[simp] theorem Dev.emit_free (d : Dev) (o : Out) : (d.emit o).free = d.free := rfl
@[simp] theorem Dev.emit_posted (d : Dev) (o : Out) : (d.emit o).posted = d.posted := rfl
@[simp] theorem Dev.emit_latch (d : Dev) (o : Out) : (d.emit o).latch = d.latch := rfl
@[simp] theorem Dev.emit_peat (d : Dev) (o : Out) : (d.emit o).peat = d.peat := rfl
@[simp] theorem Dev.emit_evr (d : Dev) (o : Out) : (d.emit o).evr = d.evr := rfl
@[simp] theorem Dev.emit_kln (d : Dev) (o : Out) : (d.emit o).kln = d.kln := rfl
@[simp] theorem Dev.emit_sec (d : Dev) (o : Out) : (d.emit o).sec = d.sec := rfl
@[simp] theorem Dev.emit_kin (d : Dev) (o : Out) : (d.emit o).kin = d.kin := rfl
@[simp] theorem Dev.emit_glb (d : Dev) (o : Out) : (d.emit o).glb = d.glb := rfl
@[simp] theorem Dev.emit_ing (d : Dev) (o : Out) : (d.emit o).ing = d.ing := rfl
@[simp] theorem Dev.emit_ltab (d : Dev) (o : Out) : (d.emit o).ltab = d.ltab := rfl
@[simp] theorem Dev.emit_ray (d : Dev) (o : Out) : (d.emit o).ray = d.ray := rfl
@[simp] theorem Dev.emit_cmp (d : Dev) (o : Out) : (d.emit o).cmp = d.cmp := rfl
@[simp] theorem Dev.emit_scn (d : Dev) (o : Out) : (d.emit o).scn = d.scn := rfl
@[simp] theorem Dev.emit_link (d : Dev) (o : Out) : (d.emit o).link = d.link := rfl
@[simp] theorem Dev.emit_bus (d : Dev) (o : Out) : (d.emit o).bus = d.bus := rfl
@[simp] theorem Dev.emit_tct (d : Dev) (o : Out) : (d.emit o).tct = d.tct := rfl
@[simp] theorem Dev.emit_fsc (d : Dev) (o : Out) : (d.emit o).fsc = d.fsc := rfl
@[simp] theorem Dev.emit_arb (d : Dev) (o : Out) : (d.emit o).arb = d.arb := rfl
@[simp] theorem Dev.emit_pch (d : Dev) (o : Out) : (d.emit o).pch = d.pch := rfl
@[simp] theorem Dev.emit_jobs (d : Dev) (o : Out) : (d.emit o).jobs = d.jobs := rfl
@[simp] theorem Dev.emit_stk (d : Dev) (o : Out) : (d.emit o).stk = d.stk := rfl
@[simp] theorem Dev.emit_net (d : Dev) (o : Out) : (d.emit o).net = d.net := rfl

/-! ### Dev.nextFree -/

@[simp] theorem Dev.nextFree_regs (d : Dev) : (d.nextFree).regs = d.regs := rfl
@[simp] theorem Dev.nextFree_img (d : Dev) : (d.nextFree).img = d.img := rfl
@[simp] theorem Dev.nextFree_loaded (d : Dev) : (d.nextFree).loaded = d.loaded := rfl
@[simp] theorem Dev.nextFree_ticks (d : Dev) : (d.nextFree).ticks = d.ticks := rfl
@[simp] theorem Dev.nextFree_out (d : Dev) : (d.nextFree).out = d.out := rfl
@[simp] theorem Dev.nextFree_posted (d : Dev) : (d.nextFree).posted = d.posted := rfl
@[simp] theorem Dev.nextFree_latch (d : Dev) : (d.nextFree).latch = d.latch := rfl
@[simp] theorem Dev.nextFree_peat (d : Dev) : (d.nextFree).peat = d.peat := rfl
@[simp] theorem Dev.nextFree_evr (d : Dev) : (d.nextFree).evr = d.evr := rfl
@[simp] theorem Dev.nextFree_kln (d : Dev) : (d.nextFree).kln = d.kln := rfl
@[simp] theorem Dev.nextFree_sec (d : Dev) : (d.nextFree).sec = d.sec := rfl
@[simp] theorem Dev.nextFree_kin (d : Dev) : (d.nextFree).kin = d.kin := rfl
@[simp] theorem Dev.nextFree_glb (d : Dev) : (d.nextFree).glb = d.glb := rfl
@[simp] theorem Dev.nextFree_ing (d : Dev) : (d.nextFree).ing = d.ing := rfl
@[simp] theorem Dev.nextFree_ltab (d : Dev) : (d.nextFree).ltab = d.ltab := rfl
@[simp] theorem Dev.nextFree_ray (d : Dev) : (d.nextFree).ray = d.ray := rfl
@[simp] theorem Dev.nextFree_cmp (d : Dev) : (d.nextFree).cmp = d.cmp := rfl
@[simp] theorem Dev.nextFree_scn (d : Dev) : (d.nextFree).scn = d.scn := rfl
@[simp] theorem Dev.nextFree_link (d : Dev) : (d.nextFree).link = d.link := rfl
@[simp] theorem Dev.nextFree_bus (d : Dev) : (d.nextFree).bus = d.bus := rfl
@[simp] theorem Dev.nextFree_tct (d : Dev) : (d.nextFree).tct = d.tct := rfl
@[simp] theorem Dev.nextFree_fsc (d : Dev) : (d.nextFree).fsc = d.fsc := rfl
@[simp] theorem Dev.nextFree_arb (d : Dev) : (d.nextFree).arb = d.arb := rfl
@[simp] theorem Dev.nextFree_pch (d : Dev) : (d.nextFree).pch = d.pch := rfl
@[simp] theorem Dev.nextFree_jobs (d : Dev) : (d.nextFree).jobs = d.jobs := rfl
@[simp] theorem Dev.nextFree_stk (d : Dev) : (d.nextFree).stk = d.stk := rfl
@[simp] theorem Dev.nextFree_net (d : Dev) : (d.nextFree).net = d.net := rfl

/-! ### Dev.advance -/

@[simp] theorem Dev.advance_regs (d : Dev) (n : Nat) : (d.advance n).regs = d.regs := rfl
@[simp] theorem Dev.advance_img (d : Dev) (n : Nat) : (d.advance n).img = d.img := rfl
@[simp] theorem Dev.advance_loaded (d : Dev) (n : Nat) : (d.advance n).loaded = d.loaded := rfl
@[simp] theorem Dev.advance_free (d : Dev) (n : Nat) : (d.advance n).free = d.free := rfl
@[simp] theorem Dev.advance_out (d : Dev) (n : Nat) : (d.advance n).out = d.out := rfl
@[simp] theorem Dev.advance_posted (d : Dev) (n : Nat) : (d.advance n).posted = d.posted := rfl
@[simp] theorem Dev.advance_latch (d : Dev) (n : Nat) : (d.advance n).latch = d.latch := rfl
@[simp] theorem Dev.advance_peat (d : Dev) (n : Nat) : (d.advance n).peat = d.peat := rfl
@[simp] theorem Dev.advance_evr (d : Dev) (n : Nat) : (d.advance n).evr = d.evr := rfl
@[simp] theorem Dev.advance_kln (d : Dev) (n : Nat) : (d.advance n).kln = d.kln := rfl
@[simp] theorem Dev.advance_sec (d : Dev) (n : Nat) : (d.advance n).sec = d.sec := rfl
@[simp] theorem Dev.advance_kin (d : Dev) (n : Nat) : (d.advance n).kin = d.kin := rfl
@[simp] theorem Dev.advance_glb (d : Dev) (n : Nat) : (d.advance n).glb = d.glb := rfl
@[simp] theorem Dev.advance_ing (d : Dev) (n : Nat) : (d.advance n).ing = d.ing := rfl
@[simp] theorem Dev.advance_ltab (d : Dev) (n : Nat) : (d.advance n).ltab = d.ltab := rfl
@[simp] theorem Dev.advance_ray (d : Dev) (n : Nat) : (d.advance n).ray = d.ray := rfl
@[simp] theorem Dev.advance_cmp (d : Dev) (n : Nat) : (d.advance n).cmp = d.cmp := rfl
@[simp] theorem Dev.advance_scn (d : Dev) (n : Nat) : (d.advance n).scn = d.scn := rfl
@[simp] theorem Dev.advance_link (d : Dev) (n : Nat) : (d.advance n).link = d.link := rfl
@[simp] theorem Dev.advance_bus (d : Dev) (n : Nat) : (d.advance n).bus = d.bus := rfl
@[simp] theorem Dev.advance_tct (d : Dev) (n : Nat) : (d.advance n).tct = d.tct := rfl
@[simp] theorem Dev.advance_fsc (d : Dev) (n : Nat) : (d.advance n).fsc = d.fsc := rfl
@[simp] theorem Dev.advance_arb (d : Dev) (n : Nat) : (d.advance n).arb = d.arb := rfl
@[simp] theorem Dev.advance_pch (d : Dev) (n : Nat) : (d.advance n).pch = d.pch := rfl
@[simp] theorem Dev.advance_jobs (d : Dev) (n : Nat) : (d.advance n).jobs = d.jobs := rfl
@[simp] theorem Dev.advance_stk (d : Dev) (n : Nat) : (d.advance n).stk = d.stk := rfl
@[simp] theorem Dev.emit_out (d : Dev) (o : Out) : (d.emit o).out = o :: d.out := rfl
@[simp] theorem Dev.nextFree_free (d : Dev) : d.nextFree.free = d.free + 1 := rfl
@[simp] theorem Dev.advance_ticks (d : Dev) (n : Nat) : (d.advance n).ticks = d.ticks + n := rfl

/-! ### Dev.setIng -/

@[simp] theorem Dev.setIng_regs (d : Dev) (g : Nat) (x : IngGroup) : (d.setIng g x).regs = d.regs := rfl
@[simp] theorem Dev.setIng_img (d : Dev) (g : Nat) (x : IngGroup) : (d.setIng g x).img = d.img := rfl
@[simp] theorem Dev.setIng_loaded (d : Dev) (g : Nat) (x : IngGroup) : (d.setIng g x).loaded = d.loaded := rfl
@[simp] theorem Dev.setIng_ticks (d : Dev) (g : Nat) (x : IngGroup) : (d.setIng g x).ticks = d.ticks := rfl
@[simp] theorem Dev.setIng_free (d : Dev) (g : Nat) (x : IngGroup) : (d.setIng g x).free = d.free := rfl
@[simp] theorem Dev.setIng_out (d : Dev) (g : Nat) (x : IngGroup) : (d.setIng g x).out = d.out := rfl
@[simp] theorem Dev.setIng_posted (d : Dev) (g : Nat) (x : IngGroup) : (d.setIng g x).posted = d.posted := rfl
@[simp] theorem Dev.setIng_latch (d : Dev) (g : Nat) (x : IngGroup) : (d.setIng g x).latch = d.latch := rfl
@[simp] theorem Dev.setIng_peat (d : Dev) (g : Nat) (x : IngGroup) : (d.setIng g x).peat = d.peat := rfl
@[simp] theorem Dev.setIng_evr (d : Dev) (g : Nat) (x : IngGroup) : (d.setIng g x).evr = d.evr := rfl
@[simp] theorem Dev.setIng_kln (d : Dev) (g : Nat) (x : IngGroup) : (d.setIng g x).kln = d.kln := rfl
@[simp] theorem Dev.setIng_sec (d : Dev) (g : Nat) (x : IngGroup) : (d.setIng g x).sec = d.sec := rfl
@[simp] theorem Dev.setIng_kin (d : Dev) (g : Nat) (x : IngGroup) : (d.setIng g x).kin = d.kin := rfl
@[simp] theorem Dev.setIng_glb (d : Dev) (g : Nat) (x : IngGroup) : (d.setIng g x).glb = d.glb := rfl
@[simp] theorem Dev.setIng_ltab (d : Dev) (g : Nat) (x : IngGroup) : (d.setIng g x).ltab = d.ltab := rfl
@[simp] theorem Dev.setIng_ray (d : Dev) (g : Nat) (x : IngGroup) : (d.setIng g x).ray = d.ray := rfl
@[simp] theorem Dev.setIng_cmp (d : Dev) (g : Nat) (x : IngGroup) : (d.setIng g x).cmp = d.cmp := rfl
@[simp] theorem Dev.setIng_scn (d : Dev) (g : Nat) (x : IngGroup) : (d.setIng g x).scn = d.scn := rfl
@[simp] theorem Dev.setIng_link (d : Dev) (g : Nat) (x : IngGroup) : (d.setIng g x).link = d.link := rfl
@[simp] theorem Dev.setIng_bus (d : Dev) (g : Nat) (x : IngGroup) : (d.setIng g x).bus = d.bus := rfl
@[simp] theorem Dev.setIng_tct (d : Dev) (g : Nat) (x : IngGroup) : (d.setIng g x).tct = d.tct := rfl
@[simp] theorem Dev.setIng_fsc (d : Dev) (g : Nat) (x : IngGroup) : (d.setIng g x).fsc = d.fsc := rfl
@[simp] theorem Dev.setIng_arb (d : Dev) (g : Nat) (x : IngGroup) : (d.setIng g x).arb = d.arb := rfl
@[simp] theorem Dev.setIng_pch (d : Dev) (g : Nat) (x : IngGroup) : (d.setIng g x).pch = d.pch := rfl
@[simp] theorem Dev.setIng_jobs (d : Dev) (g : Nat) (x : IngGroup) : (d.setIng g x).jobs = d.jobs := rfl
@[simp] theorem Dev.setIng_stk (d : Dev) (g : Nat) (x : IngGroup) : (d.setIng g x).stk = d.stk := rfl
@[simp] theorem Dev.setIng_net (d : Dev) (g : Nat) (x : IngGroup) : (d.setIng g x).net = d.net := rfl

/-! ### Dev.setScn -/

@[simp] theorem Dev.setScn_regs (d : Dev) (g : Nat) (x : ScnGroup) : (d.setScn g x).regs = d.regs := rfl
@[simp] theorem Dev.setScn_img (d : Dev) (g : Nat) (x : ScnGroup) : (d.setScn g x).img = d.img := rfl
@[simp] theorem Dev.setScn_loaded (d : Dev) (g : Nat) (x : ScnGroup) : (d.setScn g x).loaded = d.loaded := rfl
@[simp] theorem Dev.setScn_ticks (d : Dev) (g : Nat) (x : ScnGroup) : (d.setScn g x).ticks = d.ticks := rfl
@[simp] theorem Dev.setScn_free (d : Dev) (g : Nat) (x : ScnGroup) : (d.setScn g x).free = d.free := rfl
@[simp] theorem Dev.setScn_out (d : Dev) (g : Nat) (x : ScnGroup) : (d.setScn g x).out = d.out := rfl
@[simp] theorem Dev.setScn_posted (d : Dev) (g : Nat) (x : ScnGroup) : (d.setScn g x).posted = d.posted := rfl
@[simp] theorem Dev.setScn_latch (d : Dev) (g : Nat) (x : ScnGroup) : (d.setScn g x).latch = d.latch := rfl
@[simp] theorem Dev.setScn_peat (d : Dev) (g : Nat) (x : ScnGroup) : (d.setScn g x).peat = d.peat := rfl
@[simp] theorem Dev.setScn_evr (d : Dev) (g : Nat) (x : ScnGroup) : (d.setScn g x).evr = d.evr := rfl
@[simp] theorem Dev.setScn_kln (d : Dev) (g : Nat) (x : ScnGroup) : (d.setScn g x).kln = d.kln := rfl
@[simp] theorem Dev.setScn_sec (d : Dev) (g : Nat) (x : ScnGroup) : (d.setScn g x).sec = d.sec := rfl
@[simp] theorem Dev.setScn_kin (d : Dev) (g : Nat) (x : ScnGroup) : (d.setScn g x).kin = d.kin := rfl
@[simp] theorem Dev.setScn_glb (d : Dev) (g : Nat) (x : ScnGroup) : (d.setScn g x).glb = d.glb := rfl
@[simp] theorem Dev.setScn_ing (d : Dev) (g : Nat) (x : ScnGroup) : (d.setScn g x).ing = d.ing := rfl
@[simp] theorem Dev.setScn_ltab (d : Dev) (g : Nat) (x : ScnGroup) : (d.setScn g x).ltab = d.ltab := rfl
@[simp] theorem Dev.setScn_ray (d : Dev) (g : Nat) (x : ScnGroup) : (d.setScn g x).ray = d.ray := rfl
@[simp] theorem Dev.setScn_cmp (d : Dev) (g : Nat) (x : ScnGroup) : (d.setScn g x).cmp = d.cmp := rfl
@[simp] theorem Dev.setScn_link (d : Dev) (g : Nat) (x : ScnGroup) : (d.setScn g x).link = d.link := rfl
@[simp] theorem Dev.setScn_bus (d : Dev) (g : Nat) (x : ScnGroup) : (d.setScn g x).bus = d.bus := rfl
@[simp] theorem Dev.setScn_tct (d : Dev) (g : Nat) (x : ScnGroup) : (d.setScn g x).tct = d.tct := rfl
@[simp] theorem Dev.setScn_fsc (d : Dev) (g : Nat) (x : ScnGroup) : (d.setScn g x).fsc = d.fsc := rfl
@[simp] theorem Dev.setScn_arb (d : Dev) (g : Nat) (x : ScnGroup) : (d.setScn g x).arb = d.arb := rfl
@[simp] theorem Dev.setScn_pch (d : Dev) (g : Nat) (x : ScnGroup) : (d.setScn g x).pch = d.pch := rfl
@[simp] theorem Dev.setScn_jobs (d : Dev) (g : Nat) (x : ScnGroup) : (d.setScn g x).jobs = d.jobs := rfl
@[simp] theorem Dev.setScn_stk (d : Dev) (g : Nat) (x : ScnGroup) : (d.setScn g x).stk = d.stk := rfl
@[simp] theorem Dev.setScn_net (d : Dev) (g : Nat) (x : ScnGroup) : (d.setScn g x).net = d.net := rfl

/-! ### Dev.setLnk -/

@[simp] theorem Dev.setLnk_regs (d : Dev) (n : Nat) (x : LinkState) : (d.setLnk n x).regs = d.regs := rfl
@[simp] theorem Dev.setLnk_img (d : Dev) (n : Nat) (x : LinkState) : (d.setLnk n x).img = d.img := rfl
@[simp] theorem Dev.setLnk_loaded (d : Dev) (n : Nat) (x : LinkState) : (d.setLnk n x).loaded = d.loaded := rfl
@[simp] theorem Dev.setLnk_ticks (d : Dev) (n : Nat) (x : LinkState) : (d.setLnk n x).ticks = d.ticks := rfl
@[simp] theorem Dev.setLnk_free (d : Dev) (n : Nat) (x : LinkState) : (d.setLnk n x).free = d.free := rfl
@[simp] theorem Dev.setLnk_out (d : Dev) (n : Nat) (x : LinkState) : (d.setLnk n x).out = d.out := rfl
@[simp] theorem Dev.setLnk_posted (d : Dev) (n : Nat) (x : LinkState) : (d.setLnk n x).posted = d.posted := rfl
@[simp] theorem Dev.setLnk_latch (d : Dev) (n : Nat) (x : LinkState) : (d.setLnk n x).latch = d.latch := rfl
@[simp] theorem Dev.setLnk_peat (d : Dev) (n : Nat) (x : LinkState) : (d.setLnk n x).peat = d.peat := rfl
@[simp] theorem Dev.setLnk_evr (d : Dev) (n : Nat) (x : LinkState) : (d.setLnk n x).evr = d.evr := rfl
@[simp] theorem Dev.setLnk_kln (d : Dev) (n : Nat) (x : LinkState) : (d.setLnk n x).kln = d.kln := rfl
@[simp] theorem Dev.setLnk_sec (d : Dev) (n : Nat) (x : LinkState) : (d.setLnk n x).sec = d.sec := rfl
@[simp] theorem Dev.setLnk_kin (d : Dev) (n : Nat) (x : LinkState) : (d.setLnk n x).kin = d.kin := rfl
@[simp] theorem Dev.setLnk_glb (d : Dev) (n : Nat) (x : LinkState) : (d.setLnk n x).glb = d.glb := rfl
@[simp] theorem Dev.setLnk_ing (d : Dev) (n : Nat) (x : LinkState) : (d.setLnk n x).ing = d.ing := rfl
@[simp] theorem Dev.setLnk_ltab (d : Dev) (n : Nat) (x : LinkState) : (d.setLnk n x).ltab = d.ltab := rfl
@[simp] theorem Dev.setLnk_ray (d : Dev) (n : Nat) (x : LinkState) : (d.setLnk n x).ray = d.ray := rfl
@[simp] theorem Dev.setLnk_cmp (d : Dev) (n : Nat) (x : LinkState) : (d.setLnk n x).cmp = d.cmp := rfl
@[simp] theorem Dev.setLnk_scn (d : Dev) (n : Nat) (x : LinkState) : (d.setLnk n x).scn = d.scn := rfl
@[simp] theorem Dev.setLnk_bus (d : Dev) (n : Nat) (x : LinkState) : (d.setLnk n x).bus = d.bus := rfl
@[simp] theorem Dev.setLnk_tct (d : Dev) (n : Nat) (x : LinkState) : (d.setLnk n x).tct = d.tct := rfl
@[simp] theorem Dev.setLnk_fsc (d : Dev) (n : Nat) (x : LinkState) : (d.setLnk n x).fsc = d.fsc := rfl
@[simp] theorem Dev.setLnk_arb (d : Dev) (n : Nat) (x : LinkState) : (d.setLnk n x).arb = d.arb := rfl
@[simp] theorem Dev.setLnk_pch (d : Dev) (n : Nat) (x : LinkState) : (d.setLnk n x).pch = d.pch := rfl
@[simp] theorem Dev.setLnk_jobs (d : Dev) (n : Nat) (x : LinkState) : (d.setLnk n x).jobs = d.jobs := rfl
@[simp] theorem Dev.setLnk_stk (d : Dev) (n : Nat) (x : LinkState) : (d.setLnk n x).stk = d.stk := rfl
@[simp] theorem Dev.setLnk_net (d : Dev) (n : Nat) (x : LinkState) : (d.setLnk n x).net = d.net := rfl

/-! ### Dev.setCtl -/

@[simp] theorem Dev.setCtl_regs (d : Dev) (n : Nat) (x : PortCtl) : (d.setCtl n x).regs = d.regs := rfl
@[simp] theorem Dev.setCtl_img (d : Dev) (n : Nat) (x : PortCtl) : (d.setCtl n x).img = d.img := rfl
@[simp] theorem Dev.setCtl_loaded (d : Dev) (n : Nat) (x : PortCtl) : (d.setCtl n x).loaded = d.loaded := rfl
@[simp] theorem Dev.setCtl_ticks (d : Dev) (n : Nat) (x : PortCtl) : (d.setCtl n x).ticks = d.ticks := rfl
@[simp] theorem Dev.setCtl_free (d : Dev) (n : Nat) (x : PortCtl) : (d.setCtl n x).free = d.free := rfl
@[simp] theorem Dev.setCtl_out (d : Dev) (n : Nat) (x : PortCtl) : (d.setCtl n x).out = d.out := rfl
@[simp] theorem Dev.setCtl_posted (d : Dev) (n : Nat) (x : PortCtl) : (d.setCtl n x).posted = d.posted := rfl
@[simp] theorem Dev.setCtl_latch (d : Dev) (n : Nat) (x : PortCtl) : (d.setCtl n x).latch = d.latch := rfl
@[simp] theorem Dev.setCtl_peat (d : Dev) (n : Nat) (x : PortCtl) : (d.setCtl n x).peat = d.peat := rfl
@[simp] theorem Dev.setCtl_evr (d : Dev) (n : Nat) (x : PortCtl) : (d.setCtl n x).evr = d.evr := rfl
@[simp] theorem Dev.setCtl_kln (d : Dev) (n : Nat) (x : PortCtl) : (d.setCtl n x).kln = d.kln := rfl
@[simp] theorem Dev.setCtl_sec (d : Dev) (n : Nat) (x : PortCtl) : (d.setCtl n x).sec = d.sec := rfl
@[simp] theorem Dev.setCtl_kin (d : Dev) (n : Nat) (x : PortCtl) : (d.setCtl n x).kin = d.kin := rfl
@[simp] theorem Dev.setCtl_glb (d : Dev) (n : Nat) (x : PortCtl) : (d.setCtl n x).glb = d.glb := rfl
@[simp] theorem Dev.setCtl_ing (d : Dev) (n : Nat) (x : PortCtl) : (d.setCtl n x).ing = d.ing := rfl
@[simp] theorem Dev.setCtl_ltab (d : Dev) (n : Nat) (x : PortCtl) : (d.setCtl n x).ltab = d.ltab := rfl
@[simp] theorem Dev.setCtl_ray (d : Dev) (n : Nat) (x : PortCtl) : (d.setCtl n x).ray = d.ray := rfl
@[simp] theorem Dev.setCtl_cmp (d : Dev) (n : Nat) (x : PortCtl) : (d.setCtl n x).cmp = d.cmp := rfl
@[simp] theorem Dev.setCtl_scn (d : Dev) (n : Nat) (x : PortCtl) : (d.setCtl n x).scn = d.scn := rfl
@[simp] theorem Dev.setCtl_link (d : Dev) (n : Nat) (x : PortCtl) : (d.setCtl n x).link = d.link := rfl
@[simp] theorem Dev.setCtl_bus (d : Dev) (n : Nat) (x : PortCtl) : (d.setCtl n x).bus = d.bus := rfl
@[simp] theorem Dev.setCtl_fsc (d : Dev) (n : Nat) (x : PortCtl) : (d.setCtl n x).fsc = d.fsc := rfl
@[simp] theorem Dev.setCtl_arb (d : Dev) (n : Nat) (x : PortCtl) : (d.setCtl n x).arb = d.arb := rfl
@[simp] theorem Dev.setCtl_pch (d : Dev) (n : Nat) (x : PortCtl) : (d.setCtl n x).pch = d.pch := rfl
@[simp] theorem Dev.setCtl_jobs (d : Dev) (n : Nat) (x : PortCtl) : (d.setCtl n x).jobs = d.jobs := rfl
@[simp] theorem Dev.setCtl_stk (d : Dev) (n : Nat) (x : PortCtl) : (d.setCtl n x).stk = d.stk := rfl
@[simp] theorem Dev.setCtl_net (d : Dev) (n : Nat) (x : PortCtl) : (d.setCtl n x).net = d.net := rfl

/-! ### Dev.setBus -/

@[simp] theorem Dev.setBus_regs (d : Dev) (m : Nat) (x : BusState) : (d.setBus m x).regs = d.regs := rfl
@[simp] theorem Dev.setBus_img (d : Dev) (m : Nat) (x : BusState) : (d.setBus m x).img = d.img := rfl
@[simp] theorem Dev.setBus_loaded (d : Dev) (m : Nat) (x : BusState) : (d.setBus m x).loaded = d.loaded := rfl
@[simp] theorem Dev.setBus_ticks (d : Dev) (m : Nat) (x : BusState) : (d.setBus m x).ticks = d.ticks := rfl
@[simp] theorem Dev.setBus_free (d : Dev) (m : Nat) (x : BusState) : (d.setBus m x).free = d.free := rfl
@[simp] theorem Dev.setBus_out (d : Dev) (m : Nat) (x : BusState) : (d.setBus m x).out = d.out := rfl
@[simp] theorem Dev.setBus_posted (d : Dev) (m : Nat) (x : BusState) : (d.setBus m x).posted = d.posted := rfl
@[simp] theorem Dev.setBus_latch (d : Dev) (m : Nat) (x : BusState) : (d.setBus m x).latch = d.latch := rfl
@[simp] theorem Dev.setBus_peat (d : Dev) (m : Nat) (x : BusState) : (d.setBus m x).peat = d.peat := rfl
@[simp] theorem Dev.setBus_evr (d : Dev) (m : Nat) (x : BusState) : (d.setBus m x).evr = d.evr := rfl
@[simp] theorem Dev.setBus_kln (d : Dev) (m : Nat) (x : BusState) : (d.setBus m x).kln = d.kln := rfl
@[simp] theorem Dev.setBus_sec (d : Dev) (m : Nat) (x : BusState) : (d.setBus m x).sec = d.sec := rfl
@[simp] theorem Dev.setBus_kin (d : Dev) (m : Nat) (x : BusState) : (d.setBus m x).kin = d.kin := rfl
@[simp] theorem Dev.setBus_glb (d : Dev) (m : Nat) (x : BusState) : (d.setBus m x).glb = d.glb := rfl
@[simp] theorem Dev.setBus_ing (d : Dev) (m : Nat) (x : BusState) : (d.setBus m x).ing = d.ing := rfl
@[simp] theorem Dev.setBus_ltab (d : Dev) (m : Nat) (x : BusState) : (d.setBus m x).ltab = d.ltab := rfl
@[simp] theorem Dev.setBus_ray (d : Dev) (m : Nat) (x : BusState) : (d.setBus m x).ray = d.ray := rfl
@[simp] theorem Dev.setBus_cmp (d : Dev) (m : Nat) (x : BusState) : (d.setBus m x).cmp = d.cmp := rfl
@[simp] theorem Dev.setBus_scn (d : Dev) (m : Nat) (x : BusState) : (d.setBus m x).scn = d.scn := rfl
@[simp] theorem Dev.setBus_link (d : Dev) (m : Nat) (x : BusState) : (d.setBus m x).link = d.link := rfl
@[simp] theorem Dev.setBus_tct (d : Dev) (m : Nat) (x : BusState) : (d.setBus m x).tct = d.tct := rfl
@[simp] theorem Dev.setBus_fsc (d : Dev) (m : Nat) (x : BusState) : (d.setBus m x).fsc = d.fsc := rfl
@[simp] theorem Dev.setBus_arb (d : Dev) (m : Nat) (x : BusState) : (d.setBus m x).arb = d.arb := rfl
@[simp] theorem Dev.setBus_pch (d : Dev) (m : Nat) (x : BusState) : (d.setBus m x).pch = d.pch := rfl
@[simp] theorem Dev.setBus_jobs (d : Dev) (m : Nat) (x : BusState) : (d.setBus m x).jobs = d.jobs := rfl
@[simp] theorem Dev.setBus_stk (d : Dev) (m : Nat) (x : BusState) : (d.setBus m x).stk = d.stk := rfl
@[simp] theorem Dev.setBus_net (d : Dev) (m : Nat) (x : BusState) : (d.setBus m x).net = d.net := rfl

/-! ### Dev.setFire -/

@[simp] theorem Dev.setFire_regs (d : Dev) (n : Nat) (x : FscPort) : (d.setFire n x).regs = d.regs := rfl
@[simp] theorem Dev.setFire_img (d : Dev) (n : Nat) (x : FscPort) : (d.setFire n x).img = d.img := rfl
@[simp] theorem Dev.setFire_loaded (d : Dev) (n : Nat) (x : FscPort) : (d.setFire n x).loaded = d.loaded := rfl
@[simp] theorem Dev.setFire_ticks (d : Dev) (n : Nat) (x : FscPort) : (d.setFire n x).ticks = d.ticks := rfl
@[simp] theorem Dev.setFire_free (d : Dev) (n : Nat) (x : FscPort) : (d.setFire n x).free = d.free := rfl
@[simp] theorem Dev.setFire_out (d : Dev) (n : Nat) (x : FscPort) : (d.setFire n x).out = d.out := rfl
@[simp] theorem Dev.setFire_posted (d : Dev) (n : Nat) (x : FscPort) : (d.setFire n x).posted = d.posted := rfl
@[simp] theorem Dev.setFire_latch (d : Dev) (n : Nat) (x : FscPort) : (d.setFire n x).latch = d.latch := rfl
@[simp] theorem Dev.setFire_peat (d : Dev) (n : Nat) (x : FscPort) : (d.setFire n x).peat = d.peat := rfl
@[simp] theorem Dev.setFire_evr (d : Dev) (n : Nat) (x : FscPort) : (d.setFire n x).evr = d.evr := rfl
@[simp] theorem Dev.setFire_kln (d : Dev) (n : Nat) (x : FscPort) : (d.setFire n x).kln = d.kln := rfl
@[simp] theorem Dev.setFire_sec (d : Dev) (n : Nat) (x : FscPort) : (d.setFire n x).sec = d.sec := rfl
@[simp] theorem Dev.setFire_kin (d : Dev) (n : Nat) (x : FscPort) : (d.setFire n x).kin = d.kin := rfl
@[simp] theorem Dev.setFire_glb (d : Dev) (n : Nat) (x : FscPort) : (d.setFire n x).glb = d.glb := rfl
@[simp] theorem Dev.setFire_ing (d : Dev) (n : Nat) (x : FscPort) : (d.setFire n x).ing = d.ing := rfl
@[simp] theorem Dev.setFire_ltab (d : Dev) (n : Nat) (x : FscPort) : (d.setFire n x).ltab = d.ltab := rfl
@[simp] theorem Dev.setFire_ray (d : Dev) (n : Nat) (x : FscPort) : (d.setFire n x).ray = d.ray := rfl
@[simp] theorem Dev.setFire_cmp (d : Dev) (n : Nat) (x : FscPort) : (d.setFire n x).cmp = d.cmp := rfl
@[simp] theorem Dev.setFire_scn (d : Dev) (n : Nat) (x : FscPort) : (d.setFire n x).scn = d.scn := rfl
@[simp] theorem Dev.setFire_link (d : Dev) (n : Nat) (x : FscPort) : (d.setFire n x).link = d.link := rfl
@[simp] theorem Dev.setFire_bus (d : Dev) (n : Nat) (x : FscPort) : (d.setFire n x).bus = d.bus := rfl
@[simp] theorem Dev.setFire_tct (d : Dev) (n : Nat) (x : FscPort) : (d.setFire n x).tct = d.tct := rfl
@[simp] theorem Dev.setFire_arb (d : Dev) (n : Nat) (x : FscPort) : (d.setFire n x).arb = d.arb := rfl
@[simp] theorem Dev.setFire_pch (d : Dev) (n : Nat) (x : FscPort) : (d.setFire n x).pch = d.pch := rfl
@[simp] theorem Dev.setFire_jobs (d : Dev) (n : Nat) (x : FscPort) : (d.setFire n x).jobs = d.jobs := rfl
@[simp] theorem Dev.setFire_stk (d : Dev) (n : Nat) (x : FscPort) : (d.setFire n x).stk = d.stk := rfl
@[simp] theorem Dev.setFire_net (d : Dev) (n : Nat) (x : FscPort) : (d.setFire n x).net = d.net := rfl

/-! ### Dev.setCore -/

@[simp] theorem Dev.setCore_regs (d : Dev) (n : Nat) (x : StkCore) : (d.setCore n x).regs = d.regs := rfl
@[simp] theorem Dev.setCore_img (d : Dev) (n : Nat) (x : StkCore) : (d.setCore n x).img = d.img := rfl
@[simp] theorem Dev.setCore_loaded (d : Dev) (n : Nat) (x : StkCore) : (d.setCore n x).loaded = d.loaded := rfl
@[simp] theorem Dev.setCore_ticks (d : Dev) (n : Nat) (x : StkCore) : (d.setCore n x).ticks = d.ticks := rfl
@[simp] theorem Dev.setCore_free (d : Dev) (n : Nat) (x : StkCore) : (d.setCore n x).free = d.free := rfl
@[simp] theorem Dev.setCore_out (d : Dev) (n : Nat) (x : StkCore) : (d.setCore n x).out = d.out := rfl
@[simp] theorem Dev.setCore_posted (d : Dev) (n : Nat) (x : StkCore) : (d.setCore n x).posted = d.posted := rfl
@[simp] theorem Dev.setCore_latch (d : Dev) (n : Nat) (x : StkCore) : (d.setCore n x).latch = d.latch := rfl
@[simp] theorem Dev.setCore_peat (d : Dev) (n : Nat) (x : StkCore) : (d.setCore n x).peat = d.peat := rfl
@[simp] theorem Dev.setCore_evr (d : Dev) (n : Nat) (x : StkCore) : (d.setCore n x).evr = d.evr := rfl
@[simp] theorem Dev.setCore_kln (d : Dev) (n : Nat) (x : StkCore) : (d.setCore n x).kln = d.kln := rfl
@[simp] theorem Dev.setCore_sec (d : Dev) (n : Nat) (x : StkCore) : (d.setCore n x).sec = d.sec := rfl
@[simp] theorem Dev.setCore_kin (d : Dev) (n : Nat) (x : StkCore) : (d.setCore n x).kin = d.kin := rfl
@[simp] theorem Dev.setCore_glb (d : Dev) (n : Nat) (x : StkCore) : (d.setCore n x).glb = d.glb := rfl
@[simp] theorem Dev.setCore_ing (d : Dev) (n : Nat) (x : StkCore) : (d.setCore n x).ing = d.ing := rfl
@[simp] theorem Dev.setCore_ltab (d : Dev) (n : Nat) (x : StkCore) : (d.setCore n x).ltab = d.ltab := rfl
@[simp] theorem Dev.setCore_ray (d : Dev) (n : Nat) (x : StkCore) : (d.setCore n x).ray = d.ray := rfl
@[simp] theorem Dev.setCore_cmp (d : Dev) (n : Nat) (x : StkCore) : (d.setCore n x).cmp = d.cmp := rfl
@[simp] theorem Dev.setCore_scn (d : Dev) (n : Nat) (x : StkCore) : (d.setCore n x).scn = d.scn := rfl
@[simp] theorem Dev.setCore_link (d : Dev) (n : Nat) (x : StkCore) : (d.setCore n x).link = d.link := rfl
@[simp] theorem Dev.setCore_bus (d : Dev) (n : Nat) (x : StkCore) : (d.setCore n x).bus = d.bus := rfl
@[simp] theorem Dev.setCore_tct (d : Dev) (n : Nat) (x : StkCore) : (d.setCore n x).tct = d.tct := rfl
@[simp] theorem Dev.setCore_fsc (d : Dev) (n : Nat) (x : StkCore) : (d.setCore n x).fsc = d.fsc := rfl
@[simp] theorem Dev.setCore_arb (d : Dev) (n : Nat) (x : StkCore) : (d.setCore n x).arb = d.arb := rfl
@[simp] theorem Dev.setCore_pch (d : Dev) (n : Nat) (x : StkCore) : (d.setCore n x).pch = d.pch := rfl
@[simp] theorem Dev.setCore_jobs (d : Dev) (n : Nat) (x : StkCore) : (d.setCore n x).jobs = d.jobs := rfl
@[simp] theorem Dev.setCore_net (d : Dev) (n : Nat) (x : StkCore) : (d.setCore n x).net = d.net := rfl

/-! ### Dev.setArb -/

@[simp] theorem Dev.setArb_regs (d : Dev) (i : Nat) (x : ArbInst) : (d.setArb i x).regs = d.regs := rfl
@[simp] theorem Dev.setArb_img (d : Dev) (i : Nat) (x : ArbInst) : (d.setArb i x).img = d.img := rfl
@[simp] theorem Dev.setArb_loaded (d : Dev) (i : Nat) (x : ArbInst) : (d.setArb i x).loaded = d.loaded := rfl
@[simp] theorem Dev.setArb_ticks (d : Dev) (i : Nat) (x : ArbInst) : (d.setArb i x).ticks = d.ticks := rfl
@[simp] theorem Dev.setArb_free (d : Dev) (i : Nat) (x : ArbInst) : (d.setArb i x).free = d.free := rfl
@[simp] theorem Dev.setArb_out (d : Dev) (i : Nat) (x : ArbInst) : (d.setArb i x).out = d.out := rfl
@[simp] theorem Dev.setArb_posted (d : Dev) (i : Nat) (x : ArbInst) : (d.setArb i x).posted = d.posted := rfl
@[simp] theorem Dev.setArb_latch (d : Dev) (i : Nat) (x : ArbInst) : (d.setArb i x).latch = d.latch := rfl
@[simp] theorem Dev.setArb_peat (d : Dev) (i : Nat) (x : ArbInst) : (d.setArb i x).peat = d.peat := rfl
@[simp] theorem Dev.setArb_evr (d : Dev) (i : Nat) (x : ArbInst) : (d.setArb i x).evr = d.evr := rfl
@[simp] theorem Dev.setArb_kln (d : Dev) (i : Nat) (x : ArbInst) : (d.setArb i x).kln = d.kln := rfl
@[simp] theorem Dev.setArb_sec (d : Dev) (i : Nat) (x : ArbInst) : (d.setArb i x).sec = d.sec := rfl
@[simp] theorem Dev.setArb_kin (d : Dev) (i : Nat) (x : ArbInst) : (d.setArb i x).kin = d.kin := rfl
@[simp] theorem Dev.setArb_glb (d : Dev) (i : Nat) (x : ArbInst) : (d.setArb i x).glb = d.glb := rfl
@[simp] theorem Dev.setArb_ing (d : Dev) (i : Nat) (x : ArbInst) : (d.setArb i x).ing = d.ing := rfl
@[simp] theorem Dev.setArb_ltab (d : Dev) (i : Nat) (x : ArbInst) : (d.setArb i x).ltab = d.ltab := rfl
@[simp] theorem Dev.setArb_ray (d : Dev) (i : Nat) (x : ArbInst) : (d.setArb i x).ray = d.ray := rfl
@[simp] theorem Dev.setArb_cmp (d : Dev) (i : Nat) (x : ArbInst) : (d.setArb i x).cmp = d.cmp := rfl
@[simp] theorem Dev.setArb_scn (d : Dev) (i : Nat) (x : ArbInst) : (d.setArb i x).scn = d.scn := rfl
@[simp] theorem Dev.setArb_link (d : Dev) (i : Nat) (x : ArbInst) : (d.setArb i x).link = d.link := rfl
@[simp] theorem Dev.setArb_bus (d : Dev) (i : Nat) (x : ArbInst) : (d.setArb i x).bus = d.bus := rfl
@[simp] theorem Dev.setArb_tct (d : Dev) (i : Nat) (x : ArbInst) : (d.setArb i x).tct = d.tct := rfl
@[simp] theorem Dev.setArb_fsc (d : Dev) (i : Nat) (x : ArbInst) : (d.setArb i x).fsc = d.fsc := rfl
@[simp] theorem Dev.setArb_pch (d : Dev) (i : Nat) (x : ArbInst) : (d.setArb i x).pch = d.pch := rfl
@[simp] theorem Dev.setArb_jobs (d : Dev) (i : Nat) (x : ArbInst) : (d.setArb i x).jobs = d.jobs := rfl
@[simp] theorem Dev.setArb_stk (d : Dev) (i : Nat) (x : ArbInst) : (d.setArb i x).stk = d.stk := rfl
@[simp] theorem Dev.setArb_net (d : Dev) (i : Nat) (x : ArbInst) : (d.setArb i x).net = d.net := rfl

/-! ### Dev.setPch -/

@[simp] theorem Dev.setPch_regs (d : Dev) (p : Nat) (x : Pch) : (d.setPch p x).regs = d.regs := rfl
@[simp] theorem Dev.setPch_img (d : Dev) (p : Nat) (x : Pch) : (d.setPch p x).img = d.img := rfl
@[simp] theorem Dev.setPch_loaded (d : Dev) (p : Nat) (x : Pch) : (d.setPch p x).loaded = d.loaded := rfl
@[simp] theorem Dev.setPch_ticks (d : Dev) (p : Nat) (x : Pch) : (d.setPch p x).ticks = d.ticks := rfl
@[simp] theorem Dev.setPch_free (d : Dev) (p : Nat) (x : Pch) : (d.setPch p x).free = d.free := rfl
@[simp] theorem Dev.setPch_out (d : Dev) (p : Nat) (x : Pch) : (d.setPch p x).out = d.out := rfl
@[simp] theorem Dev.setPch_posted (d : Dev) (p : Nat) (x : Pch) : (d.setPch p x).posted = d.posted := rfl
@[simp] theorem Dev.setPch_latch (d : Dev) (p : Nat) (x : Pch) : (d.setPch p x).latch = d.latch := rfl
@[simp] theorem Dev.setPch_peat (d : Dev) (p : Nat) (x : Pch) : (d.setPch p x).peat = d.peat := rfl
@[simp] theorem Dev.setPch_evr (d : Dev) (p : Nat) (x : Pch) : (d.setPch p x).evr = d.evr := rfl
@[simp] theorem Dev.setPch_kln (d : Dev) (p : Nat) (x : Pch) : (d.setPch p x).kln = d.kln := rfl
@[simp] theorem Dev.setPch_sec (d : Dev) (p : Nat) (x : Pch) : (d.setPch p x).sec = d.sec := rfl
@[simp] theorem Dev.setPch_kin (d : Dev) (p : Nat) (x : Pch) : (d.setPch p x).kin = d.kin := rfl
@[simp] theorem Dev.setPch_glb (d : Dev) (p : Nat) (x : Pch) : (d.setPch p x).glb = d.glb := rfl
@[simp] theorem Dev.setPch_ing (d : Dev) (p : Nat) (x : Pch) : (d.setPch p x).ing = d.ing := rfl
@[simp] theorem Dev.setPch_ltab (d : Dev) (p : Nat) (x : Pch) : (d.setPch p x).ltab = d.ltab := rfl
@[simp] theorem Dev.setPch_ray (d : Dev) (p : Nat) (x : Pch) : (d.setPch p x).ray = d.ray := rfl
@[simp] theorem Dev.setPch_cmp (d : Dev) (p : Nat) (x : Pch) : (d.setPch p x).cmp = d.cmp := rfl
@[simp] theorem Dev.setPch_scn (d : Dev) (p : Nat) (x : Pch) : (d.setPch p x).scn = d.scn := rfl
@[simp] theorem Dev.setPch_link (d : Dev) (p : Nat) (x : Pch) : (d.setPch p x).link = d.link := rfl
@[simp] theorem Dev.setPch_bus (d : Dev) (p : Nat) (x : Pch) : (d.setPch p x).bus = d.bus := rfl
@[simp] theorem Dev.setPch_tct (d : Dev) (p : Nat) (x : Pch) : (d.setPch p x).tct = d.tct := rfl
@[simp] theorem Dev.setPch_fsc (d : Dev) (p : Nat) (x : Pch) : (d.setPch p x).fsc = d.fsc := rfl
@[simp] theorem Dev.setPch_arb (d : Dev) (p : Nat) (x : Pch) : (d.setPch p x).arb = d.arb := rfl
@[simp] theorem Dev.setPch_jobs (d : Dev) (p : Nat) (x : Pch) : (d.setPch p x).jobs = d.jobs := rfl
@[simp] theorem Dev.setPch_stk (d : Dev) (p : Nat) (x : Pch) : (d.setPch p x).stk = d.stk := rfl
@[simp] theorem Dev.setPch_net (d : Dev) (p : Nat) (x : Pch) : (d.setPch p x).net = d.net := rfl

/-! ### Dev.setTb -/

@[simp] theorem Dev.setTb_regs (d : Dev) (b : Nat) (x : TimeBase) : (d.setTb b x).regs = d.regs := rfl
@[simp] theorem Dev.setTb_img (d : Dev) (b : Nat) (x : TimeBase) : (d.setTb b x).img = d.img := rfl
@[simp] theorem Dev.setTb_loaded (d : Dev) (b : Nat) (x : TimeBase) : (d.setTb b x).loaded = d.loaded := rfl
@[simp] theorem Dev.setTb_ticks (d : Dev) (b : Nat) (x : TimeBase) : (d.setTb b x).ticks = d.ticks := rfl
@[simp] theorem Dev.setTb_free (d : Dev) (b : Nat) (x : TimeBase) : (d.setTb b x).free = d.free := rfl
@[simp] theorem Dev.setTb_out (d : Dev) (b : Nat) (x : TimeBase) : (d.setTb b x).out = d.out := rfl
@[simp] theorem Dev.setTb_posted (d : Dev) (b : Nat) (x : TimeBase) : (d.setTb b x).posted = d.posted := rfl
@[simp] theorem Dev.setTb_latch (d : Dev) (b : Nat) (x : TimeBase) : (d.setTb b x).latch = d.latch := rfl
@[simp] theorem Dev.setTb_peat (d : Dev) (b : Nat) (x : TimeBase) : (d.setTb b x).peat = d.peat := rfl
@[simp] theorem Dev.setTb_evr (d : Dev) (b : Nat) (x : TimeBase) : (d.setTb b x).evr = d.evr := rfl
@[simp] theorem Dev.setTb_kln (d : Dev) (b : Nat) (x : TimeBase) : (d.setTb b x).kln = d.kln := rfl
@[simp] theorem Dev.setTb_sec (d : Dev) (b : Nat) (x : TimeBase) : (d.setTb b x).sec = d.sec := rfl
@[simp] theorem Dev.setTb_kin (d : Dev) (b : Nat) (x : TimeBase) : (d.setTb b x).kin = d.kin := rfl
@[simp] theorem Dev.setTb_glb (d : Dev) (b : Nat) (x : TimeBase) : (d.setTb b x).glb = d.glb := rfl
@[simp] theorem Dev.setTb_ing (d : Dev) (b : Nat) (x : TimeBase) : (d.setTb b x).ing = d.ing := rfl
@[simp] theorem Dev.setTb_ltab (d : Dev) (b : Nat) (x : TimeBase) : (d.setTb b x).ltab = d.ltab := rfl
@[simp] theorem Dev.setTb_ray (d : Dev) (b : Nat) (x : TimeBase) : (d.setTb b x).ray = d.ray := rfl
@[simp] theorem Dev.setTb_cmp (d : Dev) (b : Nat) (x : TimeBase) : (d.setTb b x).cmp = d.cmp := rfl
@[simp] theorem Dev.setTb_scn (d : Dev) (b : Nat) (x : TimeBase) : (d.setTb b x).scn = d.scn := rfl
@[simp] theorem Dev.setTb_link (d : Dev) (b : Nat) (x : TimeBase) : (d.setTb b x).link = d.link := rfl
@[simp] theorem Dev.setTb_bus (d : Dev) (b : Nat) (x : TimeBase) : (d.setTb b x).bus = d.bus := rfl
@[simp] theorem Dev.setTb_tct (d : Dev) (b : Nat) (x : TimeBase) : (d.setTb b x).tct = d.tct := rfl
@[simp] theorem Dev.setTb_fsc (d : Dev) (b : Nat) (x : TimeBase) : (d.setTb b x).fsc = d.fsc := rfl
@[simp] theorem Dev.setTb_arb (d : Dev) (b : Nat) (x : TimeBase) : (d.setTb b x).arb = d.arb := rfl
@[simp] theorem Dev.setTb_pch (d : Dev) (b : Nat) (x : TimeBase) : (d.setTb b x).pch = d.pch := rfl
@[simp] theorem Dev.setTb_jobs (d : Dev) (b : Nat) (x : TimeBase) : (d.setTb b x).jobs = d.jobs := rfl
@[simp] theorem Dev.setTb_stk (d : Dev) (b : Nat) (x : TimeBase) : (d.setTb b x).stk = d.stk := rfl

/-! ### Dev.setJobs -/

@[simp] theorem Dev.setJobs_regs (d : Dev) (r : Nat) (x : List Job) : (d.setJobs r x).regs = d.regs := rfl
@[simp] theorem Dev.setJobs_img (d : Dev) (r : Nat) (x : List Job) : (d.setJobs r x).img = d.img := rfl
@[simp] theorem Dev.setJobs_loaded (d : Dev) (r : Nat) (x : List Job) : (d.setJobs r x).loaded = d.loaded := rfl
@[simp] theorem Dev.setJobs_ticks (d : Dev) (r : Nat) (x : List Job) : (d.setJobs r x).ticks = d.ticks := rfl
@[simp] theorem Dev.setJobs_free (d : Dev) (r : Nat) (x : List Job) : (d.setJobs r x).free = d.free := rfl
@[simp] theorem Dev.setJobs_out (d : Dev) (r : Nat) (x : List Job) : (d.setJobs r x).out = d.out := rfl
@[simp] theorem Dev.setJobs_posted (d : Dev) (r : Nat) (x : List Job) : (d.setJobs r x).posted = d.posted := rfl
@[simp] theorem Dev.setJobs_latch (d : Dev) (r : Nat) (x : List Job) : (d.setJobs r x).latch = d.latch := rfl
@[simp] theorem Dev.setJobs_peat (d : Dev) (r : Nat) (x : List Job) : (d.setJobs r x).peat = d.peat := rfl
@[simp] theorem Dev.setJobs_evr (d : Dev) (r : Nat) (x : List Job) : (d.setJobs r x).evr = d.evr := rfl
@[simp] theorem Dev.setJobs_kln (d : Dev) (r : Nat) (x : List Job) : (d.setJobs r x).kln = d.kln := rfl
@[simp] theorem Dev.setJobs_sec (d : Dev) (r : Nat) (x : List Job) : (d.setJobs r x).sec = d.sec := rfl
@[simp] theorem Dev.setJobs_kin (d : Dev) (r : Nat) (x : List Job) : (d.setJobs r x).kin = d.kin := rfl
@[simp] theorem Dev.setJobs_glb (d : Dev) (r : Nat) (x : List Job) : (d.setJobs r x).glb = d.glb := rfl
@[simp] theorem Dev.setJobs_ing (d : Dev) (r : Nat) (x : List Job) : (d.setJobs r x).ing = d.ing := rfl
@[simp] theorem Dev.setJobs_ltab (d : Dev) (r : Nat) (x : List Job) : (d.setJobs r x).ltab = d.ltab := rfl
@[simp] theorem Dev.setJobs_ray (d : Dev) (r : Nat) (x : List Job) : (d.setJobs r x).ray = d.ray := rfl
@[simp] theorem Dev.setJobs_cmp (d : Dev) (r : Nat) (x : List Job) : (d.setJobs r x).cmp = d.cmp := rfl
@[simp] theorem Dev.setJobs_scn (d : Dev) (r : Nat) (x : List Job) : (d.setJobs r x).scn = d.scn := rfl
@[simp] theorem Dev.setJobs_link (d : Dev) (r : Nat) (x : List Job) : (d.setJobs r x).link = d.link := rfl
@[simp] theorem Dev.setJobs_bus (d : Dev) (r : Nat) (x : List Job) : (d.setJobs r x).bus = d.bus := rfl
@[simp] theorem Dev.setJobs_tct (d : Dev) (r : Nat) (x : List Job) : (d.setJobs r x).tct = d.tct := rfl
@[simp] theorem Dev.setJobs_fsc (d : Dev) (r : Nat) (x : List Job) : (d.setJobs r x).fsc = d.fsc := rfl
@[simp] theorem Dev.setJobs_arb (d : Dev) (r : Nat) (x : List Job) : (d.setJobs r x).arb = d.arb := rfl
@[simp] theorem Dev.setJobs_pch (d : Dev) (r : Nat) (x : List Job) : (d.setJobs r x).pch = d.pch := rfl
@[simp] theorem Dev.setJobs_stk (d : Dev) (r : Nat) (x : List Job) : (d.setJobs r x).stk = d.stk := rfl
@[simp] theorem Dev.setJobs_net (d : Dev) (r : Nat) (x : List Job) : (d.setJobs r x).net = d.net := rfl

end Sys2Proof.Machine
end

