-- ==== Sys2Proof/Laws/Data.lean ====
section
/-!
SUPPORT. Sparse tables, register fields and counters: what a read gives after a write, at the same place and at another.
-/
namespace Sys2Proof.Machine

/-! ### Tables -/

theorem tfind_tput {α : Type} (t : Tab α) (k k' : Nat) (v : α) : tfind (tput t k v) k' = if k' = k then some v else tfind t k' := by
  induction t with
  | nil => simp only [tput, tfind, eq_comm]
  | cons x t ih =>
    obtain ⟨a, w⟩ := x
    simp only [tput]
    split
    · subst a; by_cases h : k' = k
      · simp [tfind, h]
      · simp [tfind, h, Ne.symm h]
    · split
      · by_cases h : k' = k
        · simp [tfind, h]
        · simp [tfind, h, Ne.symm h]
      · simp only [tfind, ih]
        by_cases h : a = k'
        · subst a; simp [*]
        · simp [h]

@[simp] theorem tfind_tput_same {α : Type} (t : Tab α) (k : Nat) (v : α) : tfind (tput t k v) k = some v := by simp [tfind_tput]

theorem tfind_tput_ne {α : Type} (t : Tab α) {k k' : Nat} (v : α) (h : k' ≠ k) : tfind (tput t k v) k' = tfind t k' := by
  simp [tfind_tput, h]

theorem tget_tput {α : Type} (t : Tab α) (k k' : Nat) (v x : α) : tget (tput t k v) k' x = if k' = k then v else tget t k' x := by
  simp only [tget, tfind_tput]; split <;> rfl

@[simp] theorem tget_tput_same {α : Type} (t : Tab α) (k : Nat) (v x : α) : tget (tput t k v) k x = v := by simp [tget_tput]

/-! ### Register fields -/

/-- A field after a write of a field: the written value where both have one cell, else what it was. -/
theorem Dev.rd_wr (d : Dev) (f g : Fld) (v i j i' j' : Nat) :
    (d.wr f v i j).rd g i' j' = if g.key i' j' = f.key i j then v % 2 ^ f.w else d.rd g i' j' := by
  simp only [Dev.rd, Dev.wr, rget, rset, tget_tput]

@[simp] theorem Dev.rd_wr_same (d : Dev) (f : Fld) (v i j : Nat) : (d.wr f v i j).rd f i j = v % 2 ^ f.w := by simp [Dev.rd_wr]

theorem Dev.rd_wr_ne (d : Dev) {f g : Fld} (v : Nat) {i j i' j' : Nat} (h : g.key i' j' ≠ f.key i j) :
    (d.wr f v i j).rd g i' j' = d.rd g i' j' := by simp [Dev.rd_wr, h]

@[simp] theorem Dev.rdb_eq (d : Dev) (f : Fld) (i j : Nat) : d.rdb f i j = (d.rd f i j != 0) := rfl

/-- A write of a field changes no other cell. -/
theorem Dev.wr_cells (d : Dev) (f : Fld) (v i j k : Nat) (h : k ≠ f.key i j) : tfind (d.wr f v i j).regs k = tfind d.regs k := by
  simp [Dev.wr, rset, tfind_tput, h]

theorem Dev.wrb_cells (d : Dev) (f : Fld) (b : Bool) (i j k : Nat) (h : k ≠ f.key i j) : tfind (d.wrb f b i j).regs k = tfind d.regs k :=
  Dev.wr_cells d f (b2n b) i j k h

theorem Dev.wrBit_cells (d : Dev) (f : Fld) (n : Nat) (b : Bool) (i j k : Nat) (h : k ≠ f.key i j) :
    tfind (d.wrBit f n b i j).regs k = tfind d.regs k := by
  simp only [Dev.wrBit, rsetBit, rclrBit]
  split
  · simp [rset, tfind_tput, h]
  · split
    · simp [rset, tfind_tput, h]
    · rfl

/-! ### Counters (R43) -/

/-- Counting changes only registers, and among them only the counter's two fields. -/
theorem Dev.count_frame (d : Dev) (sat cnt : Fld) (n i j : Nat) :
    d.count sat cnt n i j = { d with regs := (d.count sat cnt n i j).regs } ∧
    ∀ k, k ≠ sat.key i j → k ≠ cnt.key i j → tfind (d.count sat cnt n i j).regs k = tfind d.regs k := by
  simp only [Dev.count]
  split
  · exact ⟨rfl, fun _ _ _ => rfl⟩
  · split
    · exact ⟨rfl, fun k _ h => Dev.wr_cells _ _ _ _ _ _ h⟩
    · exact ⟨rfl, fun k h h' => by rw [Dev.wr_cells _ _ _ _ _ _ h, Dev.wr_cells _ _ _ _ _ _ h']⟩

end Sys2Proof.Machine
end

