-- ==== Sys2Proof/Laws/Events.lean ====
section
/-!
SUPPORT. What raising an event can reach: its status bit, messages, claim queues and the recorder's own registers and queue.
-/
namespace Sys2Proof.Machine

/-! ### Recorder triggers -/

theorem Dev.repeatNewest_frame (d : Dev) (stamp : Nat) :
    d.repeatNewest stamp = { d with regs := (d.repeatNewest stamp).regs, evr := (d.repeatNewest stamp).evr } ∧
    ∀ k, blockOf (k / 32) ≠ 15 → tfind (d.repeatNewest stamp).regs k = tfind d.regs k := by
  have hb : blockOf (EVR_SHADOW.repeat.key 0 0 / 32) = 15 := by decide
  simp only [Dev.repeatNewest, Dev.showShadow]
  refine ⟨?_, fun k h => ?_⟩
  · split
    · rfl
    · split <;> rfl
  · have hk : k ≠ EVR_SHADOW.repeat.key 0 0 := fun e => h (e ▸ hb)
    rw [Dev.wr_cells _ _ _ _ _ _ hk]
    split
    · rfl
    · split <;> rfl

theorem Dev.enqueueRec_frame (d : Dev) (r : Rec) :
    d.enqueueRec r = { d with regs := (d.enqueueRec r).regs, evr := (d.enqueueRec r).evr } ∧
    ∀ k, blockOf (k / 32) ≠ 15 → tfind (d.enqueueRec r).regs k = tfind d.regs k := by
  have hb : blockOf (EVR_SHADOW.repeat.key 0 0 / 32) = 15 := by decide
  exact ⟨rfl, fun k h => Dev.wr_cells _ _ _ _ _ _ (fun e => h (e ▸ hb))⟩

/-- A recorder counter lies in block 15. -/
theorem Dev.count_evr (d : Dev) (sat cnt : Fld) (hs : blockOf (sat.key 0 0 / 32) = 15) (hc : blockOf (cnt.key 0 0 / 32) = 15) (k : Nat)
    (h : blockOf (k / 32) ≠ 15) : tfind (d.count sat cnt).regs k = tfind d.regs k :=
  (Dev.count_frame d sat cnt 1 0 0).2 k (fun e => h (e ▸ hs)) (fun e => h (e ▸ hc))

theorem Dev.trigger_frame (d : Dev) (n inst : Nat) :
    d.trigger n inst = { d with regs := (d.trigger n inst).regs, evr := (d.trigger n inst).evr } ∧
    ∀ k, blockOf (k / 32) ≠ 15 → tfind (d.trigger n inst).regs k = tfind d.regs k := by
  have c (sat cnt : Fld) : d.count sat cnt = { d with regs := (d.count sat cnt).regs } := (Dev.count_frame d sat cnt 1 0 0).1
  unfold Dev.trigger
  dsimp only
  split
  · exact Dev.repeatNewest_frame d _
  · split
    · refine ⟨by rw [c], Dev.count_evr d _ _ (by decide) (by decide)⟩
    · split
      · refine ⟨?_, Dev.count_evr d _ _ (by decide) (by decide)⟩
        rw [c]
      · exact Dev.enqueueRec_frame d _

/-- A device record reaches the recorder's own registers and queue. -/
theorem Dev.deviceRec_frame (d : Dev) (code detail : Nat) (data : List Nat) :
    d.deviceRec code detail data = { d with regs := (d.deviceRec code detail data).regs, evr := (d.deviceRec code detail data).evr } ∧
    ∀ k, blockOf (k / 32) ≠ 15 → tfind (d.deviceRec code detail data).regs k = tfind d.regs k := by
  have c (sat cnt : Fld) : d.count sat cnt = { d with regs := (d.count sat cnt).regs } := (Dev.count_frame d sat cnt 1 0 0).1
  unfold Dev.deviceRec
  split
  · refine ⟨by rw [c], Dev.count_evr d _ _ (by decide) (by decide)⟩
  · split
    · refine ⟨?_, Dev.count_evr d _ _ (by decide) (by decide)⟩
      rw [c]
    · exact Dev.enqueueRec_frame d _

/-! ### Messages -/

theorem Dev.claimEvent_frame (d : Dev) (s n : Nat) (sec : Bool) : d.claimEvent s n sec = { d with stk := (d.claimEvent s n sec).stk } := by
  unfold Dev.claimEvent
  dsimp only
  split
  · split
    · rfl
    · split <;> rfl
  · rfl

theorem Dev.message_frame (d : Dev) (n : Nat) : d.message n = { d with out := (d.message n).out, stk := (d.message n).stk } := by
  unfold Dev.message
  dsimp only
  split
  · split <;> rfl
  · rw [Dev.claimEvent_frame]
  · rfl

/-! ### Raising an event -/

/-- The key of event n's status cell. -/
def evKey (n : Nat) : Nat :=
  match evPos n with
  | some p => p.st.key p.inst 0
  | none => 0

theorem Dev.raiseAt_frame (d : Dev) (n inst : Nat) (force : Bool) :
    d.raiseAt n inst force = { d with regs := (d.raiseAt n inst force).regs, out := (d.raiseAt n inst force).out, evr := (d.raiseAt n inst force).evr,
                                      stk := (d.raiseAt n inst force).stk } ∧
    ∀ k, k ≠ evKey n → blockOf (k / 32) ≠ 15 → tfind (d.raiseAt n inst force).regs k = tfind d.regs k := by
  have hm := fun (d : Dev) => Dev.message_frame d n
  have hr : ∀ d : Dev, (d.message n).regs = d.regs := fun d => by rw [hm]
  have ht := fun (d : Dev) => Dev.trigger_frame d n inst
  simp only [Dev.raiseAt]
  cases he : evPos n with
  | none => exact ⟨rfl, fun _ _ _ => rfl⟩
  | some p =>
    have hk : evKey n = p.st.key p.inst 0 := by simp only [evKey, he]
    dsimp only
    refine ⟨?_, fun k h h' => ?_⟩
    · split
      · rw [(ht _).1]; split
        · rw [hm]; rfl
        · rfl
      · split
        · rw [hm]; rfl
        · rfl
    · have hw := Dev.wrBit_cells d p.st p.bit true p.inst 0 k (hk ▸ h)
      split
      · rw [(ht _).2 k h']; split
        · rw [hr, hw]
        · exact hw
      · split
        · rw [hr, hw]
        · exact hw

/-- Everything raising an event can do. -/
theorem Dev.raise_frame (d : Dev) (n : Nat) (force : Bool) :
    d.raise n force = { d with regs := (d.raise n force).regs, out := (d.raise n force).out, evr := (d.raise n force).evr,
                                   stk := (d.raise n force).stk } ∧
    ∀ k, k ≠ evKey n → blockOf (k / 32) ≠ 15 → tfind (d.raise n force).regs k = tfind d.regs k :=
  Dev.raiseAt_frame d n _ force

end Sys2Proof.Machine
end

