-- ==== Sys2Proof/Laws/Access.lean ====
section
/-!
SUPPORT. What the fabric's decision answers for each write and read.
-/
namespace Sys2Proof.Machine

/-- A write that the fabric lets through has its effect. -/
theorem Dev.gate_done {d : Dev} {who : Initiator} {e : RegEnt} {i j : Nat} (f : Dev → Dev) (h : d.writeCase who e i j = .done) :
    d.gate who e i j f = f d := by simp [Dev.gate, h]

theorem gateS_done {s : State} {who : Initiator} {e : RegEnt} {i j : Nat} (f : State → State) (h : s.dev.writeCase who e i j = .done) :
    gateS s who e i j f = f s := by simp [gateS, h]

theorem Dev.accessRead_done {d : Dev} {who : Initiator} {e : RegEnt} {i j : Nat} (pre post : Dev → Dev)
    (h : d.writeCase who e i j = .done) :
    d.accessRead who e i j pre post = (post ((pre d).takeLatch who e i j), (pre d).readWord who e i j) := by
  simp [Dev.accessRead, h]

/-- A write that it drops for its domain changes nothing. -/
theorem Dev.gate_off {d : Dev} {who : Initiator} {e : RegEnt} {i j : Nat} (f : Dev → Dev) (h : d.writeCase who e i j = .off) :
    d.gate who e i j f = d := by simp [Dev.gate, h]

/-- Everything a gated write on the whole state can do. -/
theorem gateS_cases (s : State) (who : Initiator) (e : RegEnt) (i j : Nat) (f : State → State) :
    gateS s who e i j f = f s ∨ ∃ g : Dev → Dev, gateS s who e i j f = onDev s g := by
  unfold gateS
  split
  · exact .inr ⟨_, rfl⟩
  · exact .inr ⟨_, rfl⟩
  · exact .inr ⟨id, rfl⟩
  · exact .inl rfl

end Sys2Proof.Machine
end

