-- ==== Sys2Proof/Laws/Hbm.lean ====
section
/-!
SUPPORT. HBM contents: a read after a write, and the canonical form that every store keeps.
-/
namespace Sys2Proof.Machine

/-! ### One byte -/

theorem Memory.wfFrom_mono {lo hi : Nat} {m : List Host.Cell} (h : lo ≤ hi) (w : Memory.wfFrom hi m = true) : Memory.wfFrom lo m = true := by
  cases m with
  | nil => rfl
  | cons x m =>
    simp only [Memory.wfFrom, Bool.and_eq_true, decide_eq_true_eq] at w ⊢
    exact ⟨⟨Nat.le_trans h w.1.1, w.1.2⟩, w.2⟩

/-- Storing a byte at or above the bound keeps the canonical form from the bound on. -/
theorem Memory.wfFrom_hbmPut (m : List Host.Cell) (lo a : Nat) (b : Byte) (h : lo ≤ a) (w : Memory.wfFrom lo m = true) :
    Memory.wfFrom lo (hbmPut m a b) = true := by
  have one : ∀ {lo a : Nat} {b : Byte} {m : List Host.Cell}, lo ≤ a → b ≠ 0 → Memory.wfFrom (a + 1) m = true →
      Memory.wfFrom lo ((a, b) :: m) = true := by
    intro lo a b m h hb w
    simp only [Memory.wfFrom, Bool.and_eq_true, decide_eq_true_eq]
    exact ⟨⟨h, bne_iff_ne.mpr hb⟩, w⟩
  induction m generalizing lo with
  | nil =>
    simp only [hbmPut]
    split
    · rfl
    · exact one h ‹_› rfl
  | cons x m ih =>
    obtain ⟨a', b'⟩ := x
    have w' := w
    simp only [Memory.wfFrom, Bool.and_eq_true, decide_eq_true_eq] at w
    obtain ⟨⟨w1, w2⟩, w3⟩ := w
    have w4 := bne_iff_ne.mp w2
    simp only [hbmPut]
    split
    · subst a
      split
      · exact Memory.wfFrom_mono (by omega) w3
      · exact one h ‹_› w3
    · split
      · split
        · exact w'
        · exact one h ‹_› (one (by omega) w4 w3)
      · exact one w1 w4 (ih (a' + 1) (by omega) w3)

theorem Memory.wf_hbmPut (m : List Host.Cell) (a : Nat) (b : Byte) (w : Memory.wf m = true) : Memory.wf (hbmPut m a b) = true :=
  Memory.wfFrom_hbmPut m 0 a b (Nat.zero_le a) w

/-- Below its first listed address a canonical memory reads 0. -/
theorem hbmGet_below {m : List Host.Cell} {lo a : Nat} (w : Memory.wfFrom lo m = true) (h : a < lo) : hbmGet m a = 0 := by
  induction m generalizing lo with
  | nil => rfl
  | cons x m ih =>
    obtain ⟨a', b'⟩ := x
    simp only [Memory.wfFrom, Bool.and_eq_true, decide_eq_true_eq] at w
    simp only [hbmGet]
    rw [if_neg (by omega)]
    exact ih w.2 (by omega)

/-- A byte after a store of a byte. -/
theorem hbmGet_hbmPut (m : List Host.Cell) (lo a a' : Nat) (b : Byte) (w : Memory.wfFrom lo m = true) :
    hbmGet (hbmPut m a b) a' = if a' = a then b else hbmGet m a' := by
  induction m generalizing lo with
  | nil =>
    simp only [hbmPut]
    split
    · simp [hbmGet, *]
    · simp only [hbmGet, eq_comm]
  | cons x m ih =>
    obtain ⟨c, y⟩ := x
    simp only [Memory.wfFrom, Bool.and_eq_true, decide_eq_true_eq] at w
    simp only [hbmPut]
    split
    · subst a
      split
      · subst b
        by_cases e : a' = c
        · subst e; simp [hbmGet_below w.2 (Nat.lt_succ_self a')]
        · simp [hbmGet, e, Ne.symm e]
      · by_cases e : a' = c
        · simp [hbmGet, e]
        · simp [hbmGet, e, Ne.symm e]
    · split
      · split
        · subst b
          by_cases e : a' = a
          · subst e
            rw [if_pos rfl]
            simp only [hbmGet]
            rw [if_neg (by omega)]
            exact hbmGet_below w.2 (by omega)
          · simp [e]
        · by_cases e : a' = a
          · simp [hbmGet, e]
          · simp [hbmGet, e, Ne.symm e]
      · simp only [hbmGet, ih _ w.2]
        by_cases e : c = a'
        · subst c; rw [if_pos rfl, if_pos rfl, if_neg (by omega)]
        · simp [e]

/-! ### Runs of bytes -/

theorem Memory.wf_hbmPutBytes (bs : List Byte) (m : List Host.Cell) (a : Nat) (w : Memory.wf m = true) :
    Memory.wf (hbmPutBytes m a bs) = true := by
  induction bs generalizing m a with
  | nil => exact w
  | cons b bs ih => exact ih _ _ (Memory.wf_hbmPut m a b w)

/-- A byte outside a run of stored bytes is what it was. -/
theorem hbmGet_hbmPutBytes_out (bs : List Byte) (m : List Host.Cell) (a x : Nat) (w : Memory.wf m = true)
    (h : x < a ∨ a + bs.length ≤ x) : hbmGet (hbmPutBytes m a bs) x = hbmGet m x := by
  induction bs generalizing m a with
  | nil => rfl
  | cons b bs ih =>
    simp only [List.length_cons] at h
    simp only [hbmPutBytes]
    rw [ih _ _ (Memory.wf_hbmPut m a b w) (by omega), hbmGet_hbmPut m 0 a x b w, if_neg (by omega)]

/-- A byte inside it is the stored one. -/
theorem hbmGet_hbmPutBytes_in (bs : List Byte) (m : List Host.Cell) (a i : Nat) (w : Memory.wf m = true) (h : i < bs.length) :
    hbmGet (hbmPutBytes m a bs) (a + i) = bs[i] := by
  induction bs generalizing m a i with
  | nil => exact absurd h (Nat.not_lt_zero i)
  | cons b bs ih =>
    have w' := Memory.wf_hbmPut m a b w
    simp only [hbmPutBytes]
    cases i with
    | zero => rw [hbmGet_hbmPutBytes_out bs _ _ _ w' (by omega), hbmGet_hbmPut m 0 a _ b w]; simp
    | succ i =>
      have := ih (hbmPut m a b) (a + 1) i w' (by simpa using h)
      rw [show a + (i + 1) = a + 1 + i by omega, this]; rfl

/-! ### Transactions -/

/-- A denied access reaches what raising REGION_DENIED reaches, and its own registers; no store changes. -/
theorem writeOne_stores (s : State) (req : Nat) (sec : Bool) (a : Nat) (bs : List Byte) :
    (writeOne s req sec a bs).1.otp = s.otp ∧ (writeOne s req sec a bs).1.flash = s.flash ∧
    (writeOne s req sec a bs).1.pending = s.pending ∧
    ((writeOne s req sec a bs).1.hbm = s.hbm ∨ (writeOne s req sec a bs).1.hbm = hbmPutBytes s.hbm a bs) := by
  unfold writeOne
  split
  · split
    · exact ⟨rfl, rfl, rfl, .inl rfl⟩
    · exact ⟨rfl, rfl, rfl, .inr rfl⟩
  · exact ⟨rfl, rfl, rfl, .inl rfl⟩

theorem writeOne_wf (s : State) (req : Nat) (sec : Bool) (a : Nat) (bs : List Byte) (w : Memory.wf s.hbm = true) :
    Memory.wf (writeOne s req sec a bs).1.hbm = true := by
  obtain ⟨-, -, -, h | h⟩ := writeOne_stores s req sec a bs
  · rw [h]; exact w
  · rw [h]; exact Memory.wf_hbmPutBytes bs _ a w

/-- A read transaction changes no store. -/
theorem readOne_stores (s : State) (req : Nat) (sec : Bool) (a n : Nat) :
    (readOne s req sec a n).1.pending = s.pending ∧ (readOne s req sec a n).1.otp = s.otp ∧
    (readOne s req sec a n).1.flash = s.flash ∧ (readOne s req sec a n).1.hbm = s.hbm := by
  unfold readOne
  split
  · split <;> exact ⟨rfl, rfl, rfl, rfl⟩
  · exact ⟨rfl, rfl, rfl, rfl⟩

/-- A fold keeps what each of its steps keeps. -/
theorem forUp_keeps {σ : Type} (P : σ → Prop) (n : Nat) (f : Nat → σ → σ) (s : σ) (h : P s) (k : ∀ i s, P s → P (f i s)) :
    P (forUp n f s) := by
  unfold forUp
  generalize List.range n = l
  induction l generalizing s with
  | nil => exact h
  | cons i l ih => exact ih _ (k i s h)

theorem writeHbm_wf (s : State) (req : Nat) (sec : Bool) (a : Nat) (bs : List Byte) (w : Memory.wf s.hbm = true) :
    Memory.wf (writeHbm s req sec a bs).1.hbm = true := by
  unfold writeHbm
  split
  · exact w
  · exact forUp_keeps (fun st : State × Bool => Memory.wf st.1.hbm = true) _ _ _ w (fun i st h => writeOne_wf st.1 _ _ _ _ h)

theorem readHbm_hbm (s : State) (req : Nat) (sec : Bool) (a n : Nat) : (readHbm s req sec a n).1.hbm = s.hbm := by
  unfold readHbm
  split
  · rfl
  · exact forUp_keeps (fun st : State × Bool × List Byte => st.1.hbm = s.hbm) _ _ _ rfl
      (fun i st h => ((readOne_stores st.1 _ _ _ _).2.2.2).trans h)

/-! ### What a row's access does to the device -/

/-- An access of a block's row that reaches the DRAM changes the pseudo-channels alone: their queues and open rows. -/
theorem Dev.reachDram_only (d : Dev) (a : Nat) (w : Bool) : d.reachDram a w = { d with pch := (d.reachDram a w).pch } := by
  have letGo_only : ∀ (e : Dev) p t, (∃ x, e = { d with pch := x }) → ∃ x, e.letGo p t = { d with pch := x } := by
    rintro e p t ⟨x, rfl⟩
    unfold Dev.letGo
    dsimp only
    split <;> exact ⟨_, rfl⟩
  have settle : ∃ x, d.settleBank (d.physPch a) a w = { d with pch := x } := by
    unfold Dev.settleBank
    split
    · exact ⟨d.pch, rfl⟩
    · refine forUp_keeps (fun e => ∃ x, e = { d with pch := x }) _ _ _ ⟨d.pch, rfl⟩ (fun _ e h => ?_)
      split
      · exact letGo_only e _ _ h
      · exact h
  obtain ⟨x, h⟩ := settle
  unfold Dev.reachDram
  rw [h]
  rfl

theorem placeBytes_wf (s : State) (a : Nat) (bs : List Byte) (w : Memory.wf s.hbm = true) : Memory.wf (placeBytes s a bs).hbm = true := by
  unfold placeBytes
  split
  · exact w
  · refine forUp_keeps (fun t : State => Memory.wf t.hbm = true) _ _ _ w (fun i t h => ?_)
    dsimp only
    split
    · exact h
    · exact Memory.wf_hbmPutBytes _ _ _ h

end Sys2Proof.Machine
end

