-- ==== Sys2Proof/Tests/Slice0.lean ====
section
/-!
SUPPORT. The model's own tests: ill-formed commands, worked values of the manual, and for every statement of
Certificates/Slice0/Obligations.lean a state and operands that meet its hypotheses (test_meets_<statement>).
-/
namespace Sys2Proof.Tests
open Sys2Proof Sys2Proof.Machine

/-! ### Helpers -/

/-- A device whose every domain has power and whose boot has reached RUN. -/
def dev : Dev :=
  let d := ((((((Dev.reset.wr GLB_PWR_STATUS.core 1).wr GLB_PWR_STATUS.quarters 15).wr GLB_PWR_STATUS.hbm 1).wr
    GLB_PWR_STATUS.ethernet 1).wr GLB_PWR_STATUS.pcie 1).wr GLB_PG_PWR.groups 0xFFFFFF).wr SEC_STATUS.lifecycle 1
  { d with glb := { d.glb with phase := .run } }

/-- The state of that device with a change. -/
def st (f : Dev → Dev) : State := { State.reset with dev := f dev }

/-- Stoker 0 runs in machine mode, so its accesses are secure. -/
def sup (d : Dev) : Dev := d.setCore 0 { StkCore.init with run := 1 }

/-- A property of the next state of a command. -/
def after (c : Instr) (s : State) (p : State → Bool) : Bool :=
  match exec c s with
  | .next t => p t
  | _ => false

/-! ### Ill-formed commands (WellFormed.lean) -/

theorem test_wf_word : (Instr.registerWrite .bar0 0 (2 ^ 32)).wf = false := by decide
theorem test_wf_port : (Instr.trainWrite .bar0 96 0).wf = false := by decide
theorem test_wf_stoker : (Instr.registerRead (.stoker 64) 0).wf = false := by decide
theorem test_wf_posted : (Instr.registerRead (.posted 64 true) 0).wf = false := by decide
theorem test_wf_engine : (Instr.registerRead (.engine 3) 0).wf = false := by decide
theorem test_wf_kiln : (Instr.thermalRelease ⟨0, 0, [], [], []⟩).wf = false := by decide
theorem test_wf_circs : (Instr.powerOnReset ⟨9000, none, false, ⟨0, 0, [], [], []⟩⟩).wf = false := by decide
theorem test_wf_group : (Instr.lineStart 4).wf = false := by decide
theorem test_wf_accepts : (Instr.registerWrite (.stoker 63) 0x1000 7).wf = true := by decide

theorem test_meets_IdleStepIsOneTick : (st id).pending = [] ∧ NonePosted (st id) ∧
    (st (fun d => { d with posted := [⟨.bar0, 0, 0⟩] })).pending = [] := by decide

theorem test_meets_StepKeepsMemoryForm : Memory.wf [(3, (7 : Byte)), (9, 1)] = true := by decide

theorem test_meets_OtherCommandsKeepOtp : (Instr.lineStart 0).mayReset = false := by decide

theorem test_meets_UnmappedAccess : regAt 0x1FF0000 = none := by decide
theorem test_unmapped_read : after (.registerRead .bar0 0x1FF0000) (st id) (fun t => t.dev.out == [.readData 0x40 0x1FF0000 0xDEAD0ADD] &&
    t.dev.rdb GLB_ERR_STATUS.unmapped) = true := by decide

theorem test_meets_BlockedAccess : regAt (SEC_OTP_DATA.ent.at_ 0 0) = some (SEC_OTP_DATA.ent, 0, 0) ∧
    (beforeWrite .bar0 (SEC_OTP_DATA.ent.at_ 0 0) (st (fun d => d.wr GLB_PWR_STATUS.core 0))).dev.writeCase .bar0 SEC_OTP_DATA.ent 0 0 = .blocked ∧
    (settled .bar0 (SEC_OTP_DATA.ent.at_ 0 0) (st (fun d => d.wr GLB_PWR_STATUS.core 0))).dev.writeCase .bar0 SEC_OTP_DATA.ent 0 0 = .blocked := by decide

theorem test_meets_DomainOffAccess : regAt (RAY_BELLOWS_WM.ent.at_ 0 0) = some (RAY_BELLOWS_WM.ent, 0, 0) ∧
    (beforeWrite .bar0 (RAY_BELLOWS_WM.ent.at_ 0 0) (st (fun d => d.wr GLB_PWR_STATUS.core 0))).dev.writeCase .bar0 RAY_BELLOWS_WM.ent 0 0 = .off ∧
    (settled .bar0 (RAY_BELLOWS_WM.ent.at_ 0 0) (st (fun d => d.wr GLB_PWR_STATUS.core 0))).dev.writeCase .bar0 RAY_BELLOWS_WM.ent 0 0 = .off := by
  decide

theorem test_meets_ReadReturnsTheWord : regAt (SCN_GRID_LO.ent.at_ 2 0) = some (SCN_GRID_LO.ent, 2, 0) ∧
    Lets (settled .bar0 (SCN_GRID_LO.ent.at_ 2 0) (st id)) .bar0 SCN_GRID_LO.ent 2 0 := by decide
theorem test_read_identity : after (.registerRead .bar0 (GLB_IDENTITY.ent.at_ 0 0)) (st id) (fun t => t.dev.out ==
    [.readData 0x40 0x100 0x960000B0]) = true := by decide

theorem test_meets_WriteByAccessCode : ING_STREAM_CFG.ent ∈ plainRegs ∧ regAt (ING_STREAM_CFG.ent.at_ 3 0) = some (ING_STREAM_CFG.ent, 3, 0) ∧
    Lets (settled .bar0 (ING_STREAM_CFG.ent.at_ 3 0) (st id)) .bar0 ING_STREAM_CFG.ent 3 0 := by decide
theorem test_w1c : after (.registerWrite .bar0 (GLB_ERR_STATUS.ent.at_ 0 0) 2) (st (fun d => (d.wr GLB_ERR_STATUS.unmapped 1).wr
    GLB_ERR_STATUS.domain_off 1)) (fun t => ! t.dev.rdb GLB_ERR_STATUS.unmapped && t.dev.rdb GLB_ERR_STATUS.domain_off) = true := by decide

theorem test_meets_EnableSendsWaitingMessages : evPos 163 = some ⟨SCN_EVT_STATUS.status, SCN_EVT_ENABLE.enable, 0, 3⟩ ∧
    regAt (SCN_EVT_ENABLE.ent.at_ 0 0) = some (SCN_EVT_ENABLE.ent, 0, 0) ∧
    Lets (settled (.stoker 0) (SCN_EVT_ENABLE.ent.at_ 0 0) (st sup)) (.stoker 0) SCN_EVT_ENABLE.ent 0 0 ∧ (st sup).dev.secureOf (.stoker 0) = true := by
  decide

theorem test_meets_StatusClearAgainstSet : evPos 131 = some ⟨CMP_EVT_STATUS.status, CMP_EVT_ENABLE.enable, 0, 3⟩ ∧
    regAt (CMP_EVT_STATUS.ent.at_ 0 0) = some (CMP_EVT_STATUS.ent, 0, 0) ∧
    Lets (settled (.stoker 0) (CMP_EVT_STATUS.ent.at_ 0 0) (st sup)) (.stoker 0) CMP_EVT_STATUS.ent 0 0 := by decide

theorem test_meets_CounterClearAgainstCount : regAt (ING_PKT_ERR_CNT.ent.at_ 2 0) = some (ING_PKT_ERR_CNT.ent, 2, 0) ∧
    ING_PKT_ERR_CNT.ent.counter = some (ING_PKT_ERR_CNT.sat, ING_PKT_ERR_CNT.count) ∧
    Lets (settled .bar0 (ING_PKT_ERR_CNT.ent.at_ 2 0) (st id)) .bar0 ING_PKT_ERR_CNT.ent 2 0 ∧ (st id).dev.rd ING_PKT_ERR_CNT.sat 2 = 0 := by decide

theorem test_meets_ReadsThatChange_low : Lets (settled .bar0 (RAY_SLICE_LEAD.ent.at_ 99 0) (st (fun d => d.wr GLB_PWR_STATUS.quarters 15)))
    .bar0 RAY_SLICE_LEAD.ent 99 0 := by decide
theorem test_meets_ReadsThatChange_lock : endpointOf (.stoker 63) = some 63 ∧
    Lets (settled (.stoker 63) (STK_LOCK_ACQ.ent.at_ 255 0) (st id)) (.stoker 63) STK_LOCK_ACQ.ent 255 0 ∧
    (st id).dev.rd STK_LOCK_ACQ.owner 255 = 0xFF := by decide
theorem test_meets_ReadsThatChange_stamp : Lets (settled .bar0 (NET_CAP_STAMP0.ent.at_ 7 0) (st id)) .bar0 NET_CAP_STAMP0.ent 7 0 := by decide

/-- A FRAME packet of frame 5 of group 0: P = 256, g = 0, data_bytes = 8192, one 32 by 4 layer, all rows. -/
def framePkt : List Byte :=
  beBytes 2 0x4656 ++ beBytes 2 0x1001 ++ beBytes 4 68 ++ beBytes 4 5 ++ beBytes 4 0 ++ beBytes 4 1 ++ beBytes 4 2 ++ beBytes 4 3 ++
  beBytes 2 256 ++ beBytes 2 1 ++ beBytes 4 8192 ++
  (beBytes 4 0x100 ++ beBytes 2 32 ++ beBytes 2 4 ++ beBytes 4 0 ++ beBytes 4 8192 ++ beBytes 4 0 ++ beBytes 4 2048 ++ beBytes 4 4096 ++
   beBytes 4 6144 ++ beBytes 4 0 ++ beBytes 4 0 ++ beBytes 8 0)

/-- Group 0 takes stream 0 from Ethernet port 1 and has two slots of 16 KiB. -/
def ingDev (d : Dev) : Dev :=
  let d1 := (((d.wr ING_STREAM_CFG.enable 1).wr ING_STREAM_CFG.eth_mask 2).wr ING_STREAM_CFG.slots 2).wr ING_STREAM_UDP.udp_port 4660
  { d1 with img := { d1.img with mem := { d1.img.mem with slotSize := [(0, 16384)], slotBase := [(0, 0x100000), (1, 0x200000)] } } }

/-- Region 0 lets every requester of either world read and write the first 16 MiB of HBM. -/
def regionAll (d : Dev) : Dev :=
  ((d.wr SEC_REGION.descriptor 0 0 0).wr SEC_REGION.descriptor 0xFF 0 1).wr SEC_REGION.descriptor (2 ^ 31 + 0xF3) 0 2
set_option maxRecDepth 8000 in
theorem test_meets_FrameClaimsSlot : let s := st ingDev
    Accepts s.dev 0 1 4660 1 framePkt ∧ beAt framePkt 6 2 = 20 + 48 * (beAt framePkt 0x1C 4 % 32) ∧ frameValid framePkt = true ∧
    (s.dev.ingG 0).slotFree 0 = true ∧ beAt framePkt 0x20 4 ≤ tget s.dev.img.mem.slotSize 0 0 := by decide

/-- A DATA (typ 2) or PARITY (typ 3) packet of frame 5 with sequence q, group size gs, data_bytes n and 256 bytes of value b. -/
def dataPkt (typ q gs n b : Nat) : List Byte :=
  beBytes 2 0x4656 ++ [0x10, BitVec.ofNat 8 typ] ++ beBytes 4 264 ++ beBytes 4 5 ++ beBytes 4 q ++ beBytes 2 256 ++
  [BitVec.ofNat 8 gs, 0] ++ beBytes 4 n ++ List.replicate 256 (BitVec.ofNat 8 b)
/-- Frame 5 holds slot 0 of group 0 with these parameters and packets present. -/
def heldDev (fix : Nat × Nat × Nat) (present : Tab Nat) (acc : Tab (List Byte)) (d : Dev) : Dev :=
  (regionAll (ingDev d)).setIng 0 { IngGroup.init with pending := [(0, ⟨5, some fix, none, present, acc, []⟩)] }
set_option maxRecDepth 8000 in
theorem test_meets_DataAndParityArrive_data : let p := dataPkt 2 32 0 8192 7
    PacketFits (st (heldDev (256, 0, 8192) [] [])).dev 0 1 4660 2 0 p ⟨5, some (256, 0, 8192), none, [], [], []⟩ (256, 0, 8192) ∧
    1 ≤ beAt p 12 4 ∧ beAt p 12 4 ≤ packetCount (256, 0, 8192) ∧ (p.drop 0x18).length = packetSpan (256, 0, 8192) (beAt p 12 4) := by decide
set_option maxRecDepth 8000 in
theorem test_meets_DataAndParityArrive_parity : let p := dataPkt 3 0 2 512 7
    PacketFits (st (heldDev (256, 2, 512) [] [])).dev 0 1 4660 3 0 p ⟨5, some (256, 2, 512), none, [], [], []⟩ (256, 2, 512) ∧
    beAt p 12 4 * 2 < packetCount (256, 2, 512) ∧ (p.drop 0x18).length = 256 ∧
    (IngSlot.missingOf ⟨5, some (256, 2, 512), none, [], [], []⟩ (256, 2, 512) 0).length = 2 ∧
    IngSlot.missingOf ⟨5, some (256, 2, 512), none, [(2, 1)], [], []⟩ (256, 2, 512) 0 = [1] ∧
    IngSlot.missingOf ⟨5, some (256, 2, 512), none, [(1, 1), (2, 1)], [], []⟩ (256, 2, 512) 0 = [] := by decide
set_option maxRecDepth 8000 in
theorem test_repair : after (.parityPacket 1 4660 (dataPkt 3 0 2 512 7)) (st (heldDev (256, 2, 512) [(2, 1)] [(0, List.replicate 256 4)]))
    (fun t => (hbmGet t.hbm 0x100000 == 3) && t.dev.rd ING_REPAIR_CNT.count 0 == 1) = true := by decide

theorem test_meets_TableCommit : Lets (settled .bar0 (ING_LTABLE_CTRL.ent.at_ 0 0) (st id)) .bar0 ING_LTABLE_CTRL.ent 0 0 := by decide
theorem test_table_three : after (.ltableCommit .bar0 3) (st (fun d => ((d.wr ING_LTABLE_LO.lengths_lo 0x33223456 1).wr ING_LTABLE_HI.lengths_hi 0x788 1)))
    (fun t => tfind t.dev.ltab 9 == some [3, 3, 2, 2, 3, 4, 5, 6, 7, 8, 8] && (tfind t.dev.ltab 8).isNone &&
      t.dev.rd ING_LAST_ERR.code == 0x41) = true := by decide

theorem test_meets_SliceFails : (st (fun d => d.wr RAY_SLICE_STATUS.port 95 99)).dev.sliceRuns 99 = true ∧
    (st id).dev.sliceState 99 ≠ 2 ∧ Lets (settled (.stoker 0) (RAY_SPARE_CTRL.ent.at_ 0 0) (st sup)) (.stoker 0) RAY_SPARE_CTRL.ent 0 0 ∧
    (let s := st (fun d => (d.wr RAY_SLICE_STATUS.port 95 98).wr RAY_STATUS.spares_free 8)
     s.dev.sliceRuns 98 = true ∧ s.dev.sliceState 98 ≠ 2 ∧ s.dev.rd RAY_SLICE_STATUS.port 98 < 96 ∧ s.dev.spareStands 3 = true ∧
     s.dev.rd (spareManual 3) = 0 ∧ s.dev.ray.takeover.any (fun x => x.1 / 25 == 3) = false) ∧
    (st (fun d => d.wr RAY_SLICE_STATUS.port 95 98)).dev.spareStands 3 = false := by decide
theorem test_slice_failure : after (.sliceFailure 98 2 false) (st (fun d => d.wr RAY_SLICE_STATUS.port 95 98))
    (fun t => t.dev.sliceState 98 == 2 && t.dev.eventSet 98) = true := by decide

theorem test_meets_TakeoverAndBellows : let s := st (fun d => (({ sup d with ray := { d.ray with takeover := [(98, 95)] } } : Dev).wr RAY_SLICE_STATUS.state 2 98).wr
      RAY_STATUS.spares_free 8)
    Lets (settled (.stoker 0) (RAY_SPARE_CTRL.ent.at_ 0 0) s) (.stoker 0) RAY_SPARE_CTRL.ent 0 0 ∧ s.dev.sliceState 98 = 2 ∧
    s.dev.servedBy 95 = none ∧ s.dev.spareStands 3 = true ∧
    Lets (settled .bar0 (RAY_BELLOWS_WM.ent.at_ 0 0) s) .bar0 RAY_BELLOWS_WM.ent 0 0 := by decide

/-- Group 0's SCHEDULES: stream 0 for plane 0, unit 0 and port 0 at byte 0; the entry of port 0, view 0, slot 0 at byte 32. -/
def rayBody : List Byte :=
  leBytes 4 0 ++ leBytes 4 0 ++ leBytes 12 1 ++ leBytes 12 0 ++
  (leBytes 4 0 ++ leBytes 4 (2 ^ 31) ++ leBytes 16 0 ++ leBytes 4 0 ++ leBytes 4 8)
def rayDev (d : Dev) : Dev :=
  let l : Layer := ⟨1, 0, true, false, 0, 32, 4, 0, 8192, [0, 2048, 4096, 6144], [0, 0, 0, 0], 0⟩
  let d1 := { d with img := { d.img with sections := [⟨0x07, some 0, false, rayBody⟩], schedOff := [[0, 0, 32, 0]] } }
  d1.setIng 0 { IngGroup.init with scan := some ⟨0, 5, ⟨1, [l], []⟩, [(0, 2), (4096, 2), (8192, 2), (12288, 2)], []⟩ }
set_option maxRecDepth 8000 in
theorem test_meets_BandRowArrives : let s := st rayDev
    s.dev.rayRuns = true ∧ s.dev.streamEnt 0 0 = some ⟨0, 0, 0, [0]⟩ ∧ (s.dev.ingG 0).scan.isSome = true ∧ (s.dev.layerAt 0 0).isSome = true ∧
    (s.dev.rowEntry 0 0 0).isSome = true ∧ (s.dev.band 0 0).rows.length < 8 ∧ dimsValid 0 32 4 = true ∧
    (∀ k < 4, ∀ r < 1, (s.dev.ingG 0).scan.bind (fun a => (s.dev.layerAt 0 0).bind (fun l => (s.dev.ingG 0).rowFrom a l 0 k r)) = none) ∧
    after (.bandRowFetch 0 0 0 0) s (fun t => ((tfind (t.dev.band 0 0).rows (bandKey 0 0)).map (fun c => c.length)) == some 8) = true := by
  decide

theorem test_meets_ComposeWrites : Lets (settled .bar0 (CMP_PORT_SEL.ent.at_ 95 0) (st id)) .bar0 CMP_PORT_SEL.ent 95 0 ∧
    Lets (settled .bar0 (CMP_OVL_PAL_LO.ent.at_ 1 255) (st id)) .bar0 CMP_OVL_PAL_LO.ent 1 255 ∧
    Lets (settled .bar0 (CMP_OVL_PAL_HI.ent.at_ 0 255) (st id)) .bar0 CMP_OVL_PAL_HI.ent 0 255 := by decide

/-- Port 5 is active, in wall group 0. -/
def portDev (d : Dev) : Dev := { d with img := { d.img with geo := { d.img.geo with ports := [(5, ⟨0, 0, 0, 1, 0, 0, 0⟩)] } } }
theorem test_meets_MapCheck : let s := st (fun d => ({ portDev d with cmp := { d.cmp with checks := [(5, 1)] } } : Dev))
    Lets (settled .bar0 (CMP_MAP_CTRL.ent.at_ 5 0) s) .bar0 CMP_MAP_CTRL.ent 5 0 ∧ (s.dev.img.port 5).isSome = true ∧
    s.dev.cmpRuns = true ∧ (readHbmStop s 19 (s.dev.blockSecure 4) (s.dev.mapBuf 5 1).1 64).2.1 = true := by decide
/-- Port 5's buffer 1 lies at 0x1000 and holds a map's magic and version, and 5 as its port. -/
def mapSt : State :=
  let s := st (fun d => regionAll ({ portDev d with cmp := { d.cmp with checks := [(5, 1)] } } : Dev))
  { s with hbm := hbmPutBytes s.hbm (s.dev.mapBuf 5 1).1 (beBytes 4 0x554D4150 ++ beBytes 2 1 ++ [5]) }
set_option maxRecDepth 8000 in
theorem test_meets_MapCheck_codes :
    (readHbmStop mapSt 19 (mapSt.dev.blockSecure 4) (mapSt.dev.mapBuf 5 1).1 64).2.1 = false ∧
    beAt (readHbmStop mapSt 19 (mapSt.dev.blockSecure 4) (mapSt.dev.mapBuf 5 1).1 64).2.2 0 4 = 0x554D4150 ∧
    after (.mapCheckDone 5) mapSt (fun t => t.dev.rd CMP_MAP_STATUS.reject 5 == 4) = true ∧
    after (.mapCheckDone 5) { mapSt with hbm := [] } (fun t => t.dev.rd CMP_MAP_STATUS.reject 5 == 1) = true := by decide

/-- Group 0 scans without rays at line 7 of 100. -/
def scanDev (d : Dev) : Dev :=
  ((((((d.wr SCN_MODE_LINES.n_total 100).wr SCN_MODE_LINES.n_active 60).wr SCN_MODE_MARKS.guard 50).wr SCN_MODE_MARKS.deadline 62).wr
    SCN_MODE_SWAP.swap 70).wr SCN_LINE.line 7).setScn 0 { ScnGroup.init with running := true, begun := true }
/-- The scan of group 0 with a change of its generator, at line l. -/
def scanAt (l : Nat) (f : ScnGroup → ScnGroup) (d : Dev) : Dev :=
  let d1 := (scanDev (portDev d)).wr SCN_LINE.line l
  d1.setScn 0 (f (d1.scnG 0))
theorem test_meets_LineStarts : (st scanDev).dev.scanRuns 0 = true ∧ (st scanDev).dev.curLine 0 + 1 + 9 < (st scanDev).dev.nTotal 0 ∧
    8 ≠ (st scanDev).dev.lSwap 0 ∧ (st scanDev).dev.glb.smoulderEntry = false ∧ (st scanDev).dev.cmp.placing = [] ∧
    (let s := st (fun d => (scanDev d).wr SCN_LINE.line 99)
     s.dev.curLine 0 + 1 = s.dev.lineTotal 0 ∧ (s.dev.scnG 0).lcDiff = 0 ∧ s.dev.kin.staged = []) ∧
    (let s := st (fun d => (scanDev d).setScn 0 { (scanDev d).scnG 0 with ext := true })
     s.dev.scanRuns 0 = true ∧ (s.dev.scnG 0).ext = true) ∧
    (let s := st (fun d => ((((scanDev d).wr SCN_MODE_LINES.n_total 13).wr SCN_IDLE_CFG.enable 1).setScn 0
        { (scanDev d).scnG 0 with ext := true }))
     idleRoom (s.dev.lineMode 0) = true ∧ s.dev.lineTotal 0 - 9 = (s.dev.lineMode 0).swap + 1 ∧ s.dev.rd SCN_IDLE_CFG.enable 0 ≠ 0 ∧
     s.dev.rd SCN_IDLE_CFG.idle 0 = 0) := by decide
theorem test_meets_LineStarts_guard : let s := st (fun d => (scanAt 49 id d).wr SCN_COMMIT.armed 1)
    s.dev.curLine 0 + 1 = s.dev.lGuard 0 ∧ s.dev.lGuard 0 ≠ s.dev.nActive 0 ∧ s.dev.rd SCN_COMMIT.armed 0 ≠ 0 ∧
    (∀ n ∈ s.dev.groupPorts 0, n < 96) := by decide
/-- The admission point: line 8 of the 16 lines of the coming mode. -/
def admitDev (f : ScnGroup → ScnGroup) (d : Dev) : Dev := (scanAt 7 (fun x => f { x with tail := true }) d).wr SCN_MODE_LINES.n_active 5
theorem test_meets_LineStarts_admission :
    let slot : IngSlot := ⟨5, some (256, 0, 8192), some ⟨0, [], []⟩, [], [], []⟩
    let s := st (fun d => (admitDev id d).setIng 0 { IngGroup.init with pending := [(0, slot)] })
    s.dev.curLine 0 + 1 + 8 = s.dev.lineTotal 0 ∧ s.dev.nActive 0 ≤ 8 ∧ (s.dev.scnG 0).latched = none ∧ s.dev.kin.noAdmit = false ∧
    s.dev.ingRuns = true ∧ s.dev.rd SCN_COMMIT.active_hold 0 = 0 ∧
    (s.dev.ingG 0).candidate (s.dev.nextLine0 0 + (s.dev.scnG 0).lcDiff) = some (0, slot, ⟨0, [], []⟩) ∧
    ((st (admitDev id)).dev.ingG 0).candidate 0 = none := by decide
theorem test_meets_LineStarts_apply : let y : LatchSet := ⟨1, 7, 1, [], [], 0, 0, 0, 0, [5], []⟩
    let s := st (fun d => admitDev (fun x => { x with latched := some y }) { d with cmp := { d.cmp with latched := [(5, ⟨1, [], [], 0, 9⟩)] } })
    (s.dev.scnG 0).latched = some y ∧ (tfind s.dev.cmp.latched 5).isSome = true := by decide
theorem test_meets_LineStarts_swap : let s := st (fun d => (scanAt 61 id d).wr SCN_CFG.started 1)
    s.dev.curLine 0 + 1 = s.dev.lDeadline 0 ∧ s.dev.started 0 = true ∧
    (let u := st (scanAt 69 (fun x => { x with decided := true }))
     u.dev.curLine 0 + 1 = u.dev.lSwap 0 ∧ (u.dev.scnG 0).decided = true ∧ u.dev.rd KIN_RELIGHT.step ≠ 8) := by decide
/-- Port 5 is UP and LIT and takes part in the frame. -/
def sendDev (d : Dev) : Dev :=
  let d1 := scanAt 7 (fun x => { x with scanning := true }) (((d.wr TLK_PORT_STATE.state 3 5).wr TCT_PORT_STATE.pstate 3 5))
  let d2 : Dev := { d1 with cmp := { d1.cmp with lines := [(5 * 8192 + 8, [1])] }, ray := { d1.ray with computed := [(5 * 8192 + 9, [[]])] } }
  d2.setLnk 5 { d2.lnk 5 with inFrame := true }
theorem test_meets_LineStarts_lines : (st sendDev).dev.takesPart 5 = true ∧ (st sendDev).dev.tlkRuns 5 = true ∧ (st sendDev).dev.cmpRuns = true ∧
    ((st sendDev).dev.lnk 5).aborted = false ∧ tfind (st sendDev).dev.cmp.lines (5 * 8192 + 8) = some [1] ∧
    tfind (st sendDev).dev.ray.computed (5 * 8192 + 9) = some [[]] ∧ (st sendDev).dev.groupPorts 0 = [5] := by decide

theorem test_meets_CommitAndCancel : Lets (settled .bar0 (SCN_COMMIT.ent.at_ 0 0) (st scanDev)) .bar0 SCN_COMMIT.ent 0 0 ∧
    (st scanDev).dev.windowClosed 0 = false ∧ (st (fun d => (scanDev d).wr SCN_LINE.line 50)).dev.windowClosed 0 = true ∧
    (st (fun d => (scanDev d).wr SCN_LINE.line 49)).dev.windowClosed 0 = false ∧ (st scanDev).dev.rd SCN_COMMIT.armed 0 = 0 ∧
    (st (fun d => (scanDev d).wr SCN_COMMIT.armed 1)).dev.rd SCN_COMMIT.armed 0 ≠ 0 ∧
    Lets (settled .bar0 (SCN_IDLE_CFG.ent.at_ 3 0) (st id)) .bar0 SCN_IDLE_CFG.ent 3 0 := by decide

/-- Every port group has power, and port 95 is in this link state and phase. -/
def linkDev (state phase : Nat) (d : Dev) : Dev := (d.wr TLK_PORT_STATE.state state 95).wr TLK_PORT_STATE.phase phase 95
/-- A good back-channel packet of type typ from port pt with body words w. -/
def bcPkt (typ pt : Nat) (w : List Nat) : List Byte := packet (headWord typ pt 0 0) (4 * w.length) 0 0 (wordBytes w)
/-- The code groups of these symbols on one lane that starts at negative disparity. -/
def lane (rd : Bool) : List Sym → List Nat
  | [] => []
  | s :: t => encodeSym rd s :: lane (rdNext rd (encodeSym rd s)) t
/-- A good back-channel packet on its lane. -/
def bcRx (typ pt : Nat) (w : List Nat) : List Nat := lane false ([.sop] ++ (bcPkt typ pt w).map (fun b => .data b.toNat) ++ [.eop])
set_option maxRecDepth 20000 in
theorem test_meets_LinkTrains : (let s := st (linkDev 3 0)
      Lets (settled .bar0 (TLK_PORT_CTRL.ent.at_ 95 0) s) .bar0 TLK_PORT_CTRL.ent 95 0 ∧ s.dev.linkState 95 = 3 ∧ s.dev.refLost 95 = false ∧
      s.dev.glb.phase ≠ .halted ∧
      Lets (settled .bar0 (TLK_TEST.ent.at_ 95 0) s) .bar0 TLK_TEST.ent 95 0 ∧ s.dev.linkUp 95 = true) ∧
    (st (linkDev 2 1)).dev.tlkRuns 95 = true ∧ (st (linkDev 4 0)).dev.linkState 95 = 4 ∧
    (∀ r < 4, recvBits 0xBA98F000 r = 8 + r) ∧ (st (linkDev 2 4)).dev.identifyCause 95 [0, 0, 0, 0, 0] = 6 ∧
    (st (fun d => d.setLnk 95 { LinkState.init with await := true })).dev.refLost 95 = false := by decide
set_option maxRecDepth 20000 in
theorem test_meets_LinkTrains_report : (st (linkDev 2 3)).dev.bcWords 95 8 (fun l => l == 20) (bcRx 8 255 [0xBA98F000, 0, 0, 0, 0]) 0 =
    some [0xBA98F000, 0, 0, 0, 0] := by decide

set_option maxRecDepth 20000 in
theorem test_meets_LinkPacketsArrive : let s := st (fun d => (linkDev 3 0 d).setLnk 95 { LinkState.init with exch := some ⟨7, 0, 0, 0, false⟩ })
    s.dev.tlkRuns 95 = true ∧ s.dev.linkUp 95 = true ∧ s.dev.lanesIdle 95 = false ∧ s.dev.bcWords 95 9 (fun l => l == 16) [] 0 = none ∧
    (s.dev.lnk 95).exch = some ⟨7, 0, 0, 0, false⟩ ∧ 0x7000000 / 2 ^ 24 = 7 ∧ 0 ≤ (exchangeDelay 0 (fuNs 1000) 500 0).2 ∧
    s.dev.ticks ≤ 0 + usTicks 10 := by decide
set_option maxRecDepth 20000 in
theorem test_meets_LinkPacketsArrive_packets : let s := st (linkDev 3 0)
    s.dev.bcWords 95 9 (fun l => l == 16) (bcRx 9 95 [0, 0, 0x300F0, 0]) 0 = some [0, 0, 0x300F0, 0] ∧
    s.dev.bcWords 95 10 (fun l => l == 12) (bcRx 10 95 [1, 2, 3]) 0 = some [1, 2, 3] ∧
    s.dev.bcWords 95 11 (fun l => l == 16) (bcRx 11 95 [0, 0, 0, 0]) 0 = some [0, 0, 0, 0] ∧
    s.dev.bcWords 95 12 (fun l => l == 8) (bcRx 12 95 [0x7000000, 500]) 0 = some [0x7000000, 500] := by decide

theorem test_meets_LinkFaultsAndTimers : (st (linkDev 3 0)).dev.tlkRuns 95 = true ∧ (st (linkDev 3 0)).dev.linkUp 95 = true ∧
    (st (linkDev 3 0)).dev.lanesIdle 95 = false ∧ (st (linkDev 3 0)).dev.idleAhead ((st (linkDev 3 0)).dev.portGroup 95) = none ∧
    ((st (fun d => d.setLnk 95 { LinkState.init with secondSwap := some (3, [1]) })).dev.lnk 95).secondSwap = some (3, [1]) := by decide

theorem test_meets_LinkRowsFrame : after (.detectDone 95) (st (linkDev 2 1)) (fun t => t.dev.linkPhase 95 == 2) = true := by decide

theorem test_meets_BusFaults : (st (fun d => d.wr TCT_BUS_STATUS.short 1 11)).dev.tctRuns = true ∧
    (st (fun d => d.wr TCT_BUS_STATUS.short 1 11)).dev.rd TCT_BUS_STATUS.short 11 ≠ 0 := by decide

/-- Port 5 is active in group 0, at address 1 of bus 0, its link DOWN. -/
def tileDev (x : PortCtl) (d : Dev) : Dev := (portDev d).setCtl 5 x
def statusReq : MgmtReq := ⟨1, 2, 9, some 5, [], 1, false⟩
def statusRep : List Byte :=
  let b : List Byte := [0x81, 2, 9, 4, 0, 1, 0x19, 0]
  [0xA5] ++ b ++ beBytes 2 (crc16 (b.map (fun x => x.toNat)))
set_option maxRecDepth 8000 in
theorem test_meets_ManagementExchanges : let s := st (tileDev { PortCtl.init with found := true })
    s.dev.tctRuns = true ∧ s.dev.img.port 5 = some ⟨0, 0, 0, 1, 0, 0, 0⟩ ∧ s.dev.portAt 0 1 = some 5 ∧ s.dev.linkUp 5 = false ∧
    (s.dev.busS 0).open_ = none ∧ (s.dev.ctl 5).found = true ∧
    (st (fun d => { d with glb := { d.glb with phase := .smoulder } })).dev.polling = true ∧ Lets (settled .bar0 (TCT_CTRL.ent.at_ 0 0) s) .bar0 TCT_CTRL.ent 0 0 ∧
    s.dev.mgmtChannel 0 statusReq = 0 ∧
    (statusRep.map (fun x => x.toNat)).map (fun x => BitVec.ofNat 8 x) = statusRep ∧ replyPayload statusReq statusRep = some [0, 1, 0x19, 0] ∧ replyPayload statusReq [] = none := by decide

theorem test_meets_PortPowerStates : let s := st (fun d => (tileDev { PortCtl.init with step := 4, discharge := 3 } d).wr TCT_PORT_STATE.pstate 7 5)
    Lets (settled .bar0 (TCT_PORT_CTRL.ent.at_ 5 0) s) .bar0 TCT_PORT_CTRL.ent 5 0 ∧ s.dev.img.port 5 = some ⟨0, 0, 0, 1, 0, 0, 0⟩ ∧
    s.dev.portDisabled 5 = false ∧ s.dev.glb.phase ≠ .halted ∧ s.dev.pstate 5 = 7 ∧ s.dev.tctRuns = true ∧ s.dev.img.activePorts = [5] ∧
    (let w := st (fun d => sup (tileDev PortCtl.init d))
     Lets (settled (.stoker 0) (TCT_CTRL.ent.at_ 0 0) w) (.stoker 0) TCT_CTRL.ent 0 0 ∧ w.dev.secureOf (.stoker 0) = true ∧
     w.dev.rdBit TCT_STATUS.bus_fault 0 = false ∧ w.dev.pstate 5 = 0) := by decide

/-- A running or waiting partial-write job of ring 9 for port 5: 4 hogels of row 0, view row 0. -/
def pwJob (state : Nat) (held : Bool) : Job :=
  { ring := 9, slot := 2, index := 0, engine := 0x53, state := state,
    desc := leBytes 32 0 ++ leBytes 4 (5 * 256 + 1) ++ leBytes 4 (4 * 65536) ++ leBytes 4 65536 ++ leBytes 4 16 ++ leBytes 16 0x4000,
    progress := [0, 0, 0, 0, 0], units := 0, finished := false, conflict := false, cdc := CdcWork.init, order := 0, heldAt := 0, col := 0,
    held := held }
theorem test_meets_PartialWrites : let s := st (fun d => (portDev d).setJobs 9 [pwJob 1 false])
    s.dev.nextToStart 9 = some (pwJob 1 false) ∧ s.dev.engineOn 0x53 = true ∧ s.dev.pwWaits (pwJob 1 false) = false ∧
    (s.dev.img.port (pwJob 1 false).pPort).isSome = true ∧ s.dev.regionOk (pwJob 1 false) = false ∧
    (st (fun d => (portDev d).setJobs 9 [pwJob 2 true])).dev.pwJob 9 2 = some (pwJob 2 true) := by decide

theorem test_meets_FirescreenRows : Lets (settled (.stoker 0) (FSC_HEARTBEAT.ent.at_ 0 0) (st sup)) (.stoker 0) FSC_HEARTBEAT.ent 0 0 ∧
    Lets (settled .bar0 (FSC_PORT_LEVEL.ent.at_ 95 0) (st id)) .bar0 FSC_PORT_LEVEL.ent 95 0 ∧
    (let s := st (fun d => (tileDev { PortCtl.init with firstSkip := some 0 } ({ d with fsc := { d.fsc with hbRun := true } } : Dev)).wr
        TCT_PORT_STATE.pstate 3 5)
     s.dev.fscRuns = true ∧ s.dev.fsc.hbRun = true ∧ s.dev.rd FSC_STATUS.hb_expired = 0 ∧ s.dev.img.activePorts = [5] ∧ s.dev.lit 5 = true ∧
     (s.dev.ctl 5).firstSkip = some 0) ∧ (st (fun d => d.wr TCT_PORT_STATE.pstate 6 95)).dev.pstate 95 = 6 := by decide

/-- Region 0 admits everything, every pseudo-channel is itself, requesters 0 and 27 reach instance 0 and requester 20 instance 64. -/
def memDev (d : Dev) : Dev :=
  ((((d.wr SEC_REGION.descriptor 0xFFFFF 0 1).wr SEC_REGION.descriptor 0x800000FF 0 2).setArb 0 ((ArbInst.init.put 400 1).put 427 1)).setArb
    64 (ArbInst.init.put 420 1))
def rq (req : Nat) (write : Bool) : Txn :=
  ⟨req, false, write, 0, 32, if write then List.replicate 32 7 else [], none, 0, 1, none, 0, none⟩
theorem test_meets_HbmRequests : txnShapeOk 0 32 = true ∧ (st id).dev.windowBlocked .mailbox = true ∧ (st id).dev.windowBlocked .block = false ∧ (st id).dev.reqWorld 0 .block = false ∧ (st id).dev.admits 0 false false 0 = false ∧
    (st memDev).dev.admits 0 false false 0 = true ∧ (st memDev).dev.firstInst 0 0 = 0 ∧ (st memDev).dev.arbOn 0 = true ∧
    (st memDev).dev.reqPresent 0 0 = true ∧ (st memDev).dev.reqPresent 0 1 = false ∧ (st memDev).dev.queueRoom 0 0 = true ∧
    tget ((st memDev).dev.arbI 0).held 0 [] = [] ∧
    (st (fun d => (memDev d).setArb 0 (ArbInst.init.setQueue 0 (List.replicate 16 (rq 0 false))))).dev.queueRoom 0 0 = false ∧
    (let s := st (fun d => (d.wr STK_RING_ENDS.consumer 63 7).setArb 69 (ArbInst.init.put 428 1))
     let v := drainOwn .bar0 (STK_RING_PI.ent.at_ 7 0) s
     let u := settleDoors .bar0 (fun k => v.dev.doorInst 7 != some k) v
     u.dev.doorInst 7 = some 69 ∧ doorReq .bar0 = some 28 ∧ u.dev.arbOn 69 = true ∧ u.dev.reqPresent 69 28 = true ∧
     u.dev.queueRoom 69 28 = true ∧ tget (u.dev.arbI 69).held 28 [] = [] ∧
     (u.dev.setArb 69 ((u.dev.arbI 69).setQueue 28 (List.replicate 16 (rq 28 true)))).queueRoom 69 28 = false) ∧
    regAt (STK_RING_PI.ent.at_ 7 0) = some (STK_RING_PI.ent, 7, 0) ∧
    (let s := st (fun d => d.wr STK_RING_ENDS.consumer 0x41 7)
     (drainOwn .bar0 (STK_RING_PI.ent.at_ 7 0) s).dev.doorInst 7 = none ∧ (settled .bar0 (STK_RING_PI.ent.at_ 7 0) s).dev.doorInst 7 = none) := by
  decide

/-- Requesters 3 (real-time, below its quota) and 1 wait at instance 0. -/
def arbDev (d : Dev) : Dev :=
  (memDev d).setArb 0 ((((ArbInst.init.setQueue 3 [rq 3 true]).setQueue 1 [rq 1 false]).put 303 1).put 203 5)
def holdDev (d : Dev) : Dev := d.setArb 70 { ArbInst.init with holder := some { rq 31 false with left := 2 } }
theorem test_meets_ArbiterGrants : let s := st arbDev
    s.dev.arbOn 0 = true ∧ (s.dev.arbI 0).holder = none ∧ tget (s.dev.arbI 0).held 3 [] = [] ∧ (s.dev.arbI 0).queue 3 = [rq 3 true] ∧ (s.dev.arbI 0).queue 1 = [rq 1 false] ∧
    (∀ r < 32, r ≠ 3 → r ≠ 1 → (s.dev.arbI 0).queue r = []) ∧ s.dev.accepts 0 (rq 3 true) = true ∧ (s.dev.pchS 0).training = false ∧
    (rq 3 true).left = fullBursts 0 (rq 3 true) ∧ s.dev.effClass 0 1 < s.dev.effClass 0 3 ∧
    (st holdDev).dev.arbOn 70 = true ∧ ((st holdDev).dev.arbI 70).holder = some { rq 31 false with left := 2 } ∧
    (∀ q < 32, ((st holdDev).dev.arbI 70).queue q = []) ∧ (s.dev.arbI 0).get 3 + (s.dev.arbI 0).get 1 ≤ (s.dev.arbI 0).clock ∧
    Lets (settled (.stoker 0) (ARB_INST_CFG.ent.at_ 70 0) (st sup)) (.stoker 0) ARB_INST_CFG.ent 70 0 ∧
    Lets (settled (.stoker 0) (ARB_REQ_CFG.ent.at_ 70 31) (st sup)) (.stoker 0) ARB_REQ_CFG.ent 70 31 := by decide

def pchDev (x : Pch) (d : Dev) : Dev := d.setPch 63 x
theorem test_meets_HbmCompletion :
    (let s := st (pchDev { Pch.init with reads := [rq 1 false, { rq 2 false with order := 1 }] })
     s.dev.pchOn 63 = true ∧ (s.dev.pchS 63).reads[0]? = some (rq 1 false) ∧ s.dev.readReady 63 (rq 1 false) = true ∧
     s.dev.readReady 63 { rq 2 false with order := 1 } = false ∧ (s.dev.pchS 63).refreshDue = [] ∧ s.dev.nextWrite 63 = none) ∧
    (let s := st (pchDev { Pch.init with reads := [rq 1 false], writes := [{ rq 2 true with addr := 2 ^ 14, order := 1 }] })
     s.dev.nextWrite 63 = some { rq 2 true with addr := 2 ^ 14, order := 1 } ∧ (s.dev.pchS 63).cordLow = none ∧
     s.dev.readReady 63 (rq 1 false) = true) ∧
    (let w := (List.range 17).map (fun k => { rq 2 true with order := k })
     let s := st (pchDev { Pch.init with writes := w, cordLow := some 16 })
     s.dev.nextWrite 63 = some { rq 2 true with order := 0 } ∧ (s.dev.pchS 63).reads = [] ∧ (s.dev.pchS 63).cordLow = some 16 ∧
     16 < s.dev.rd MEM_CORD_WM.high ∧ (s.dev.pchS 63).refreshDue = [] ∧ 16 < w.length ∧ w.length ≤ 48 ∧
     w.Pairwise (fun a b => a.order < b.order) ∧ Memory.wf s.hbm = true) ∧
    Lets (settled (.stoker 0) (MEM_CORD_WM.ent.at_ 0 0) (st sup)) (.stoker 0) MEM_CORD_WM.ent 0 0 ∧
    bits (40 * 256 + 16) 5 0 < bits (40 * 256 + 16) 13 8 ∧ bits (48 * 256 + 47) 13 8 ≤ 48 := by decide

theorem test_meets_RefreshAndTraining : (st (pchDev Pch.init)).dev.pchOn 63 = true ∧ ((st (pchDev Pch.init)).dev.pchS 63).dueSince = none ∧
    (st (pchDev Pch.init)).dev.bankAtLimit 63 = none ∧ (∀ b < 32, tget ((st (pchDev Pch.init)).dev.pchS 63).refreshDue b 0 = 0) ∧
    (st (pchDev Pch.init)).dev.bankBusy 63 0 = false ∧
    (st id).dev.pchOn 32 = true ∧ (st id).dev.rdBit MEM_STATUS.temp_high 1 = false ∧ (st id).dev.pchFailed 63 = false ∧
    (let s := st (pchDev { Pch.init with dueSince := some 7 })
     (s.dev.pchS 63).dueSince ≠ none ∧ s.dev.trainingWindow = true ∧ s.dev.stackTraining 63 = false ∧ (s.dev.pchS 63).training = false ∧
     (s.dev.arbI 63).holder = none) ∧
    ((st (pchDev { Pch.init with training := true })).dev.pchS 63).training = true ∧
    (let s := st (fun d => { (pchDev { Pch.init with dueSince := some 7 } (scanDev d)).wr SCN_CFG.started 1 with ticks := 7 + msTicks 10000 })
     s.dev.trainingWindow = false ∧ ¬ s.dev.ticks < 7 + msTicks 10000) ∧
    (st (pchDev { Pch.init with reads := [rq 1 false] })).dev.bankBusy 63 0 = true := by decide

/-- A job of ring 9 in entry 2 of an engine, with this state and these descriptor words from 0x20 on. -/
def job (e state : Nat) (ws : List Nat) : Job :=
  { ring := 9, slot := 2, index := 0, engine := e, state := state, desc := leBytes 32 0 ++ ws.flatMap (fun w => leBytes 4 w),
    progress := [0, 0, 0, 0, 0], units := 0, finished := false, conflict := false, cdc := CdcWork.init, order := 0, heldAt := 0, col := 0,
    held := false }
def jobSt (j : Job) : State := st (fun d => d.setJobs 9 [j])
/-- COMPRESS of 32 by 4 samples of A, 4 rows, pitch 64, from address 0 to 0x40 (4096 bytes) with the context at 0x100. -/
def cdcWords : List Nat := [0x3001 + 2 ^ 9, 4 * 65536 + 32, 0, 0, 64, 4, 0x40, 0, 4096, 0x100, 0]
/-- A DECOMPRESS whose stream has no byte, and a resuming COMPRESS. -/
def shortWords : List Nat := [0x3002, 4 * 65536 + 32, 0, 0, 0, 0, 0x40, 0, 64, 0, 0]
def resumeWords : List Nat := [0x3101, 4 * 65536 + 32, 0, 0, 64, 4, 0x40, 0, 4096, 0x100, 0]
set_option maxRecDepth 8000 in
theorem test_meets_CodecJobs : (jobSt (job 0x50 1 cdcWords)).dev.nextToStart 9 = some (job 0x50 1 cdcWords) ∧
    (jobSt (job 0x50 1 cdcWords)).dev.codecFree (job 0x50 1 cdcWords) = true ∧ (job 0x50 1 cdcWords).cOp = 1 ∧
    (jobSt (job 0x50 1 cdcWords)).dev.codecOk (job 0x50 1 cdcWords) = true ∧
    (job 0x50 1 cdcWords).cResume = false ∧ compressRowsOk (job 0x50 1 cdcWords) = true ∧
    compressRowsOk (job 0x50 1 (cdcWords.set 0 0x3001 |>.set 5 3)) = false ∧ (job 0x50 1 (cdcWords.set 0 0x3001 |>.set 5 3)).cOp = 1 ∧
    (jobSt (job 0x50 1 (cdcWords.set 0 0x3001 |>.set 5 3))).dev.codecOk (job 0x50 1 (cdcWords.set 0 0x3001 |>.set 5 3)) = true ∧
    (jobSt (job 0x50 1 [3])).dev.codecOk (job 0x50 1 [3]) = false ∧ (job 0x50 1 [3]).cOp = 3 ∧
    (jobSt (job 0x50 2 shortWords)).dev.jobAt 9 2 = some (job 0x50 2 shortWords) ∧ (jobSt (job 0x50 2 shortWords)).dev.engineOn 0x50 = true ∧
    (job 0x50 2 shortWords).cOp = 2 ∧ (job 0x50 2 shortWords).cSrcSize < (job 0x50 2 shortWords).cEntry := by decide
set_option maxRecDepth 20000 in
theorem test_meets_CodecJobs_resume :
    let s := st (fun d => (memDev (d.setJobs 9 [job 0x50 1 resumeWords])).wr SEC_REGION.descriptor 0x800000FF 0 2)
    s.dev.nextToStart 9 = some (job 0x50 1 resumeWords) ∧ (job 0x50 1 resumeWords).cResume = true ∧
    s.dev.codecOk (job 0x50 1 resumeWords) = true ∧ (readHbmStop s 20 (s.dev.ringSecure 9) 0x100 256).2.1 = false ∧
    contextFits (job 0x50 1 resumeWords) (readHbmStop s 20 (s.dev.ringSecure 9) 0x100 256).2.2 = false ∧
    (readHbmStop (jobSt (job 0x50 1 resumeWords)) 20 false 0x100 256).2.1 = true ∧
    (let j := job 0x50 1 resumeWords
     let x := readHbmStop { s with hbm := hbmPutBytes [] 0x100 (contextBytes j CdcWork.init false true) } 20 (s.dev.ringSecure 9) 0x100 256
     x.2.1 = false ∧ contextFits j x.2.2 = true ∧ compressRowsOk { j with cdc := resumeWork x.2.2 [] } = true) ∧
    (let j := job 0x50 1 (resumeWords.set 5 8)
     let x := readHbmStop { s with hbm := hbmPutBytes [] 0x100 (contextBytes j CdcWork.init false true) } 20 (s.dev.ringSecure 9) 0x100 256
     contextFits j x.2.2 = true ∧ compressRowsOk { j with cdc := resumeWork x.2.2 [] } = false) := by decide

/-- FILL of one A8 pixel of value 7 at address 0x40, pitch 64; and a COPY whose pitch is no multiple of 64. -/
def fillWords : List Nat := [2, 0x40, 0, 64, 0, 0x10001, 0, 0, 0, 0, 7]
theorem test_meets_TwoDJobs : (jobSt (job 0x51 1 fillWords)).dev.nextToStart 9 = some (job 0x51 1 fillWords) ∧
    (jobSt (job 0x51 1 fillWords)).dev.twdFree (job 0x51 1 fillWords) = true ∧ (job 0x51 1 fillWords).tOp = 2 ∧
    twdCheck (job 0x51 1 fillWords) = 0 ∧ twdCheck (job 0x51 1 [1, 0, 0, 63]) ≠ 0 ∧
    (let s := st (fun d => memDev (d.setJobs 9 [job 0x51 2 fillWords]))
     s.dev.jobAt 9 2 = some (job 0x51 2 fillWords) ∧ s.dev.engineOn 0x51 = true ∧ Memory.wf s.hbm = true ∧
     s.dev.admits 21 (s.dev.ringSecure 9) true 0x40 = true ∧ s.dev.pchFailed (s.dev.physPch 0x40) = false ∧
     (job 0x51 2 fillWords).rectW = 1) ∧
    (let s := jobSt { job 0x51 1 fillWords with conflict := true }
     s.dev.jobAt 9 2 = some { job 0x51 1 fillWords with conflict := true } ∧
     s.dev.twdBlocked { job 0x51 1 fillWords with conflict := true } = false) := by decide

/-- A DMA FILL of 64 bytes at 0x40 with 7, and an export of one record to 0x40. -/
def dmaWords : List Nat := [2, 7, 0, 0x40, 0, 64]
def exportWords : List Nat := [1, 0, 1, 0x40, 0, 336]
theorem test_meets_DmaAndExport : (jobSt (job 0x52 1 dmaWords)).dev.nextToStart 9 = some (job 0x52 1 dmaWords) ∧
    (jobSt (job 0x52 1 dmaWords)).dev.engineOn 0x52 = true ∧ ((jobSt (job 0x52 1 dmaWords)).dev.runningJobs 0x52).length < 4 ∧
    (job 0x52 1 dmaWords).dOp = 2 ∧ (jobSt (job 0x52 1 dmaWords)).dev.dmaOk (job 0x52 1 dmaWords) = true ∧
    (jobSt (job 0x52 1 [1])).dev.dmaOk (job 0x52 1 [1]) = false ∧
    (let s := st (fun d => memDev (d.setJobs 9 [job 0x52 2 dmaWords]))
     s.dev.jobAt 9 2 = some (job 0x52 2 dmaWords) ∧ Memory.wf s.hbm = true ∧ s.dev.admits 22 (s.dev.ringSecure 9) true 0x40 = true ∧
     s.dev.admits 22 (s.dev.ringSecure 9) true 0x7F = true ∧ (job 0x52 2 dmaWords).dDstLocal = false) ∧
    (jobSt (job 0x54 1 exportWords)).dev.engineOn 0x54 = true ∧
    (jobSt (job 0x54 1 exportWords)).dev.nextToStart 9 = some (job 0x54 1 exportWords) ∧
    (jobSt (job 0x54 1 exportWords)).dev.exportRefusal (job 0x54 1 exportWords) = 1 ∧
    (st (fun d => (d.wr EVR_STATUS.count 1).setJobs 9 [job 0x54 1 exportWords])).dev.exportRefusal (job 0x54 1 exportWords) = 0 := by decide

/-- Ring 9 is a secure job ring of engine 0x52 with one entry, completing to ring 10; both hold up to 16. -/
def ringDev (d : Dev) : Dev :=
  let d1 := (((((d.wr STK_RING_CFG.kind 1 9).wr STK_RING_CFG.size_log2 4 9).wr STK_RING_CFG.size_log2 4 10).wr STK_RING_CFG.cq 10 9).wr
    STK_RING_ENDS.consumer 0x52 9).wr STK_RING_PI.pi 1 9
  let c : RingCfg := ⟨1, true, 4, 2, 10, 0x40, 0x52, 0xFF, 0xFF, 0, 0, 0⟩
  { d1 with img := { d1.img with rings := { d1.img.rings with rings := [(9, c), (10, c)] } } }
def doneJob (state : Nat) : Job := { job 0x52 state [1] with finished := true }
theorem test_meets_DescriptorsAndCompletions : (st ringDev).dev.mayFetch 9 = true ∧ (st ringDev).dev.inTurn 9 = true ∧
    (st id).dev.mayFetch 9 = false ∧ (st ringDev).dev.consumer 9 ≠ 0x51 ∧
    (st ringDev).dev.ringRoom 10 ≠ 0 ∧
    (let s := st (fun d => (ringDev d).wr STK_RING_ENDS.consumer 0x51 9)
     s.dev.mayFetch 9 = true ∧ s.dev.inTurn 9 = true ∧ (s.dev.engineJobs 0x51).length < 64) ∧
    (let s := st (fun d => ((ringDev d).wr STK_RING_ENDS.consumer 0x51 9).setJobs 11 (List.replicate 64 (job 0x51 1 [])))
     s.dev.mayFetch 9 = true ∧ s.dev.inTurn 9 = true ∧ 64 ≤ (s.dev.engineJobs 0x51).length) ∧
    (let s := st (fun d => (ringDev d).setJobs 9 [doneJob 2])
     s.dev.jobAt 9 2 = some (doneJob 2) ∧ s.dev.engineOn 0x52 = true ∧ s.dev.cqHeld 10 = false) ∧
    (st (fun d => (ringDev d).setJobs 9 [doneJob 3])).dev.cqHeld 10 = true ∧
    (st (fun d => (ringDev d).setJobs 9 [doneJob 3])).dev.oldestHeld 10 = some (doneJob 3) := by decide

/-- Ring 9 goes from the host to stoker 5 and notifies it; the host's doorbells to cluster 0 pass instance 66 where `p` is 1. -/
def doorDev (p : Nat) (d : Dev) : Dev :=
  ((((ringDev d).wr STK_RING_ENDS.producer 0x40 9).wr STK_RING_ENDS.consumer 5 9).wr STK_RING_NOTIFY.target 1 9).setArb 66
    (ArbInst.init.put 428 p)
theorem test_meets_Doorbells : let u := settled .bar0 (STK_RING_PI.ent.at_ 9 0) (st (doorDev 0))
    Lets u .bar0 STK_RING_PI.ent 9 0 ∧ u.dev.ringKnown 9 = true ∧ endpointOf .bar0 = some (u.dev.producer 9) ∧ u.dev.ringMod 9 = 32 ∧
    u.dev.ringRoom 9 = 15 ∧ u.dev.rd STK_RING_NOTIFY.armed 9 ≠ 0 ∧ u.dev.rd STK_RING_CFG.parked 9 = 0 ∧ u.dev.doorWay .bar0 9 = some [] ∧
    after (.piWrite .bar0 9 2) (st (doorDev 0)) (fun t => (t.dev.core 5).claim == [2 ^ 30 + 9]) = true ∧
    Lets (settled (.stoker 5) (STK_RING_CI.ent.at_ 9 0) (st (doorDev 0))) (.stoker 5) STK_RING_CI.ent 9 0 ∧
    (settled (.stoker 5) (STK_RING_CI.ent.at_ 9 0) (st (doorDev 0))).dev.doorWay (.stoker 5) 9 = some [] ∧
    endpointOf (.stoker 5) = some (u.dev.consumer 9) ∧ u.dev.ringFill 9 = 1 ∧
    after (.ciWrite (.stoker 5) 9 0x10000) (st (doorDev 0)) (fun t => (t.dev.core 5).claim == [2 ^ 30 + 9]) = true ∧
    Lets (settled .bar0 (STK_RING_PI.ent.at_ 4095 0) (st (doorDev 0))) .bar0 STK_RING_PI.ent 4095 0 := by decide
set_option maxRecDepth 20000 in
theorem test_meets_Doorbells_guarded : let u := settled .bar0 (STK_RING_PI.ent.at_ 9 0) (st (doorDev 1))
    Lets u .bar0 STK_RING_PI.ent 9 0 ∧ u.dev.doorWay .bar0 9 = some [ARB_REQ_STATE.masked.key 66 28] ∧
    after (.piWrite .bar0 9 2) (st (doorDev 1)) (fun t => (t.dev.core 5).claim == [2 ^ 30 + 9]) = true := by decide

theorem test_meets_RingControlAndLocks : let f := fun d => sup (ringDev d)
    Lets (settled .bar0 (STK_RING_CTRL.ent.at_ 9 0) (st f)) .bar0 STK_RING_CTRL.ent 9 0 ∧ (st f).dev.secureOf .bar0 = false ∧
    Lets (settled (.stoker 0) (STK_RING_CTRL.ent.at_ 9 0) (st f)) (.stoker 0) STK_RING_CTRL.ent 9 0 ∧
    (st f).dev.secureOf (.stoker 0) = true ∧ (st f).dev.ringKnown 9 = true ∧ (st f).dev.rd STK_RING_CFG.parked 9 = 0 ∧
    (st (fun d => (f d).wr STK_RING_CFG.parked 1 9)).dev.rd STK_RING_CFG.parked 9 ≠ 0 ∧
    (st f).dev.unfitEndpoint ((st f).dev.producer 9) 0 = false ∧ (st f).dev.unfitEndpoint 0x52 0 = false ∧
    Lets (settled .bar0 (STK_IF_SEL.ent.at_ 0 0) (st f)) .bar0 STK_IF_SEL.ent 0 0 ∧
    Lets (settled .bar0 (STK_LOCK_REL.ent.at_ 255 0) (st f)) .bar0 STK_LOCK_REL.ent 255 0 ∧
    endpointOf .bar0 = some ((st (fun d => d.wr STK_LOCK_ACQ.owner 0x40 255)).dev.rd STK_LOCK_ACQ.owner 255) ∧
    endpointOf .bar0 ≠ some ((st f).dev.rd STK_LOCK_ACQ.owner 255) := by decide

/-- Stoker 63 runs with one instruction at address 0, x1 = 0x100. -/
def stkDev (w : Nat) (d : Dev) : Dev :=
  d.setCore 63 ({ StkCore.init with run := 1, x := [(1, 0x100)], csr := [(0x7C4, 0xFFFFFFFF), (0x7C5, 0xFFFFFFFF)] }.putBytes 0 (leBytes 4 w))
def rvAddi : Nat := 0xFFF08093
theorem test_meets_StokerInstructions : (st (stkDev rvAddi)).dev.stkRuns = true ∧ ((st (stkDev rvAddi)).dev.core 63).run = 1 ∧
    ((st (stkDev rvAddi)).dev.core 63).interrupt (st (stkDev rvAddi)).dev.ticks = none ∧
    ((st (stkDev rvAddi)).dev.core 63).fetchHalf 0 = some (rvAddi % 65536) ∧
    ((st (stkDev rvAddi)).dev.core 63).fetchHalf 2 = some (rvAddi / 65536) ∧ rvDecode rvAddi = .opImm 0 false 1 1 0xFFFFFFFF ∧
    after (.stokerInstruction 63) (st (stkDev rvAddi)) (fun t => (t.dev.core 63).reg 1 == 0xFF) = true ∧
    rvDecode 0x00208233 = .op 0 false 4 1 2 ∧ rvDecode 0x02208233 = .muldiv 0 4 1 2 ∧ rvDecode 0x12345237 = .lui 4 0x12345000 ∧
    rvDecode 0x00208463 = .branch 0 1 2 8 ∧ rvDecode 0x0040A203 = .load 2 4 1 4 ∧ rvDecode 0x0020A223 = .store 2 1 2 4 ∧
    rvDecode 0x00000073 = .ecall ∧ rvDecode 0x0000007F = .illegal ∧
    ((st (stkDev rvAddi)).dev.core 63).pmpOk true 0 0x104 4 = true ∧ ((st (stkDev rvAddi)).dev.core 63).load = none ∧
    ((st (fun d => d.setCore 63 { StkCore.init with run := 1, csr := [(0x300, 8), (0x304, 0x800)], claim := [7] })).dev.core 63).interrupt 0 =
      some 11 ∧ ({ StkCore.init with pc := 0x20000 } : StkCore).fetchHalf 0x20000 = none := by decide

theorem test_meets_StokerInstructions_forms : rvDecode 0x12345217 = .auipc 4 0x12345000 ∧ rvDecode 0x0080006F = .jal 0 8 ∧
    rvDecode 0x00408267 = .jalr 4 1 4 ∧ rvDecode 0x00109203 = .load 1 4 1 1 ∧ rvDecode 0x002081A3 = .store 0 1 2 3 ∧
    rvDecode 0x1000A22F = .lr 4 1 ∧ rvDecode 0x1820A22F = .sc 4 1 2 ∧ rvDecode 0x0020A22F = .amo 0 4 1 2 ∧
    rvDecode 0x30009273 = .csr 1 4 1 0x300 ∧ rvDecode 0x0000100F = .fenceI ∧ rvDecode 0x00100073 = .ebreak ∧
    rvDecode 0x0FF0000F = .fence ∧ (st (stkDev 0x0FF0000F)).dev.posted = [] ∧ (st (stkDev 0x0FF0000F)).dev.storesWait 63 = false ∧
    (st (fun d => (stkDev 0x0FF0000F d).setArb 3 (ArbInst.init.setQueue 27 [{ rq 27 true with core := some (63, 0) }]))).dev.storesWait 63 = true ∧
    rvDecode 0x30200073 = .mret ∧ rvDecode 0x10500073 = .wfi ∧ rvDecode 0x0505 = .opImm 0 false 10 10 1 ∧
    rvDecode 0xA009 = .jal 0 2 ∧ rvDecode 0x4398 = .load 2 14 15 0 ∧ rvDecode 0x8082 = .jalr 0 1 0 ∧
    (let c := (st (stkDev 0x0505)).dev.core 63
     c.fetchHalf 0 = some 0x0505 ∧ c.dataFault 0x101 2 false = some 4 ∧ c.dataFault 0x40000000 2 false = some 5 ∧
     c.dataFault 0x40000002 4 true = some 7 ∧ c.dataFault 0x40000000 4 true = none ∧ inControl 0x40000000 = true ∧ inLocal 0x101 = true ∧
     c.pmpOk c.dataMode 1 0x40000000 4 = true ∧ c.atomicFault 0x100 true = none ∧ c.atomicFault 0x102 true = some 6 ∧
     c.atomicFault 0x100 false = none ∧ c.atomicFault 0x102 false = some 4 ∧ inLocal 0x80000000 = false ∧
     c.csrValue 63 0 0x300 = some 0 ∧ c.csrValue 63 0 0x180 = none ∧ c.csrAllowed 0x300 = true ∧
     ({ c with machine := false } : StkCore).csrAllowed 0x300 = false ∧ c.ready 0 = 0) ∧
    after (.stokerInstruction 63) (st (stkDev 0x0505)) (fun t => (t.dev.core 63).reg 10 == 1 && (t.dev.core 63).pc == 2) = true ∧
    ({ StkCore.init with pc := 0x1FFFE, mem := [(0x1FFFE, 3)] } : StkCore).fetchHalf 0x1FFFE = some 3 := by decide

set_option maxRecDepth 8000 in
theorem test_meets_StokerInstructions_control : let s := st (stkDev 0x0040A203)
    let r := controlRead (.stoker 63) (GLB_ERR_STATUS.ent.at_ 0 0) (onDev s (fun d => d.setCore 63 (s.dev.core 63)))
    sameCore (s.dev.core 63) (r.1.dev.core 63) = true ∧
    s.dev.writeCase (.posted 63 (s.dev.secureOf (.stoker 63))) GLB_ERR_STATUS.ent 0 0 = .done := by decide

set_option maxRecDepth 8000 in
theorem test_meets_StokerInstructions_hbm :
    let d := (memDev (st id).dev).setCore 63 { ((stkDev 0x0040A203 dev).core 63) with
      x := [(1, 0x80000000)], csr := [(0x7C0, 0), (0x7C4, 0xFFFFFFFF), (0x7C5, 0xFFFFFFFF)] }
    let c := d.core 63
    (c.reg 1 + 4).toNat = 0x80000004 ∧ inWindow 0x80000004 = true ∧ c.pmpOk c.dataMode 0 0x80000004 4 = true ∧
    c.pmpOk c.dataMode 1 0x80000004 4 = true ∧ c.hbmAddr 0x80000004 = 4 ∧ c.window 0 ≤ 191 ∧ tget (d.arbI (d.physPch 4)).held 27 [] = [] ∧
    d.hbmAccess 63 false 4 = .queued ∧ d.hbmAccess 63 true 4 = .queued ∧ dev.hbmAccess 63 false 4 = .denied ∧
    dev.hbmAccess 63 true 4 = .denied ∧
    (d.setArb 0 ((d.arbI 0).setQueue 27 (List.replicate 16 (rq 27 false)))).hbmAccess 63 false 4 = .held ∧
    (d.setArb 0 ((d.arbI 0).setQueue 27 (List.replicate 16 (rq 27 false)))).hbmAccess 63 true 4 = .held ∧
    ({ c with load := some ⟨0, 2, 4, 4⟩ } : StkCore).load.isSome = true := by decide

theorem test_meets_StokerRegisters : (st (stkDev rvAddi)).dev.executes 63 = true ∧ ((st (stkDev rvAddi)).dev.core 63).machine = true ∧
    (st (stkDev rvAddi)).dev.posted = [] ∧ (st (stkDev rvAddi)).dev.storesWait 63 = false ∧
    (st (fun d => (stkDev rvAddi d).setArb 3 (ArbInst.init.setQueue 27 [{ rq 27 true with core := some (63, 0) }]))).dev.storesWait 63 = true ∧ ((st (stkDev rvAddi)).dev.core 63).alive = true ∧
    ((st (fun d => d.setCore 5 { StkCore.init with run := 1, machine := false })).dev.core 5).machine = false ∧
    (st (fun d => d.setCore 5 { StkCore.init with run := 1, machine := false })).dev.executes 5 = true := by decide

theorem test_meets_StokerFailures : let s := st (fun d => (stkDev rvAddi d).wr STK_STOKER_WDT.period_ms 5 63)
    s.dev.stkRuns = true ∧ (s.dev.core 63).alive = true ∧ s.dev.img.rings.rings = [] ∧ s.dev.rd STK_STOKER_WDT.period_ms 63 ≠ 0 ∧
    (let w := st (fun d => sup (stkDev rvAddi d))
     Lets (settled (.stoker 0) (STK_STOKER_CTRL.ent.at_ 63 0) w) (.stoker 0) STK_STOKER_CTRL.ent 63 0 ∧ (w.dev.core 63).run ≠ 3 ∧
     (w.dev.core 63).alive = true) ∧
    ((st (fun d => sup (d.setCore 63 { StkCore.init with run := 3 }))).dev.core 63).run = 3 := by decide

/-- Ethernet port 3 is enabled and up, at MAC address 1; queue 7 holds up to 4 slots. -/
def ethDev (d : Dev) : Dev :=
  (((d.wr NET_ETH_CTRL.enable 1 3).wr NET_ETH_STATUS.up 1 3).wr NET_ETH_MAC_LO.mac_lo 1 3).wr NET_Q_CFG.size_log2 2 7
theorem test_meets_HostAndEthernetLinks : (st (fun d => { d with stk := { d.stk with pcieUp := true } })).dev.stk.pcieUp = true ∧
    (st (fun d => { d with stk := { d.stk with pcieUp := true } })).dev.img.rings.rings = [] ∧ (st id).dev.glb.clocksLost.testBit 5 = false ∧
    (st id).dev.stk.pcieUp = false ∧ (st (fun d => { d with glb := { d.glb with clocksLost := 32 } })).dev.glb.clocksLost.testBit 5 = true ∧
    (st id).dev.glb.phase ≠ .smoulder ∧ (st id).dev.glb.phase ≠ .held ∧ (st (fun d => { d with glb := { d.glb with phase := .smoulder } })).dev.glb.phase = .smoulder ∧
    (st ethDev).dev.glb.clocksLost.testBit 4 = false ∧ (st (fun d => { d with glb := { d.glb with clocksLost := 16 } })).dev.glb.clocksLost.testBit 4 = true ∧
    (st ethDev).dev.ethOn 3 = true ∧ (st ethDev).dev.ethUp 3 = true ∧ (st (fun d => d.wr NET_ETH_CTRL.enable 1 3)).dev.ethUp 3 = false ∧
    Lets (settled .bar0 (NET_ETH_CTRL.ent.at_ 3 0) (st ethDev)) .bar0 NET_ETH_CTRL.ent 3 0 := by decide

/-- An LLDP frame of 64 bytes with its FCS, and one for ARP that is not for this port. -/
def frame (hd : List Byte) : List Byte :=
  let b := hd ++ List.replicate (60 - hd.length) 0
  b ++ leBytes 4 (crc32 (b.map (fun x => x.toNat)))
def lldp : List Byte := frame (beBytes 6 1 ++ beBytes 6 2 ++ beBytes 2 0x88CC)
def slotOf (q : Nat) : EthSlot := ⟨q, 0, 3, List.replicate 64 0, false, 0, false, [], false⟩
/-- Transmit queue 8 has one slot, of stoker 5. -/
def txDev (d : Dev) : Dev :=
  ((((ethDev d).wr NET_Q_CFG.dir 1 8).wr NET_Q_CFG.owner 5 8).wr NET_Q_CFG.size_log2 2 8).wr NET_Q_HEAD.index 1 8
set_option maxRecDepth 20000 in
theorem test_meets_FramesAndQueues : fcsOk lldp = true ∧ lldp.length = 64 ∧ (ethParse (lldp.take 60)).etype = 0x88CC ∧
    (st ethDev).dev.macAdmitted 3 (beAt lldp 0 6) = true ∧ (st ethDev).dev.vlanAdmitted 3 (ethParse (lldp.take 60)).vid = true ∧
    (st ethDev).dev.ethClassify 3 (ethParse (lldp.take 60)) = .control ∧ (st ethDev).dev.qSize 7 = 4 ∧ (st ethDev).dev.qFill 7 = 0 ∧
    fcsOk (lldp.drop 1 ++ [0]) = false ∧ fcsOk (frame (beBytes 6 1 ++ beBytes 6 2 ++ beBytes 2 0x8808)) = true ∧
    (st ethDev).dev.macAdmitted 3 3 = false ∧
    (st (fun d => { (ethDev d) with net := { (ethDev d).net with rx := [slotOf 7] } })).dev.net.rx.find? (fun x => x.queue == 7) =
      some (slotOf 7) ∧ (st txDev).dev.netRuns = true ∧ (st txDev).dev.qFill 8 = 1 ∧ (st txDev).dev.txTurn 8 = true ∧
    (st (fun d => { (txDev d) with net := { (txDev d).net with turn := 8, tx := [slotOf 9] } })).dev.txTurn 8 = true ∧
    (st (fun d => { (txDev d) with net := { (txDev d).net with tx := [slotOf 8] } })).dev.qFill 8 ≤ 1 ∧
    (let s := { st (fun d => txDev (memDev d)) with hbm := hbmPutBytes [] 0 (leBytes 4 (14 + 3 * 2 ^ 16)) }
     let h := netRead s (s.dev.qAddr 8 0) 64
     h.2.1 = false ∧ leAt h.2.2 0 4 % 2 ^ 16 = 14 ∧ bits (leAt h.2.2 0 4) 17 16 = 3 ∧ (netRead h.1 (s.dev.qAddr 8 0 + 64) 14).2.1 = false ∧
     s.dev.ethUp 3 = true) ∧
    Lets (settled (.stoker 5) (NET_Q_HEAD.ent.at_ 8 0) (st txDev)) (.stoker 5) NET_Q_HEAD.ent 8 0 ∧
    endpointOf (.stoker 5) = some ((st txDev).dev.rd NET_Q_CFG.owner 8) := by decide

/-- A Sync message in its own EtherType for the domain 9 that time base 2 follows on port 3, and a UDP datagram for port 6000. -/
def syncFrame : List Byte :=
  frame (beBytes 6 0x011B19000000 ++ beBytes 6 2 ++ beBytes 2 0x88F7 ++ beBytes 2 2 ++ beBytes 2 44 ++ beBytes 1 9)
def udpFrame : List Byte := frame (beBytes 6 1 ++ beBytes 6 2 ++ beBytes 2 0x0800 ++ beBytes 8 0x4500002C00000000 ++ beBytes 4 0x401166BF ++
  beBytes 8 0x0A0000010A000002 ++ beBytes 8 0x1388177000180000)
def ptpDev (d : Dev) : Dev :=
  ((((ethDev d).wr NET_TB_PTP.enable 1 2).wr NET_TB_PTP.domain 9 2).wr NET_TB_PTP.port_mask 8 2).wr NET_TB_PTP.transport 2 2
set_option maxRecDepth 20000 in
theorem test_meets_FramesAndQueues_classes : fcsOk syncFrame = true ∧ fcsOk udpFrame = true ∧
    (let d := (st (fun d => (ptpDev d).wr NET_Q_CFG.size_log2 2 2)).dev
     let f := ethParse (syncFrame.take 60)
     d.macAdmitted 3 (beAt syncFrame 0 6) = true ∧ d.vlanAdmitted 3 f.vid = true ∧ d.ethClassify 3 f = .ptp 14 2 ∧
     d.ptpQueue 3 2 (f.bytes.drop 14) = some 2 ∧ ptpEvent (f.bytes.drop 14) = true ∧ d.rd NET_EVT_TB.tb < 4 ∧
     d.qFill 2 + d.net.rx.countP (fun x => x.queue == 2) < d.qSize 2 ∧ pendingStamps d.net.rx 3 = 0 ∧
     pendingStamps (List.replicate 16 { slotOf 2 with event := true }) 3 = 16) ∧
    (st ethDev).dev.ptpQueue 3 2 ((syncFrame.take 60).drop 14) = none ∧
    (st ethDev).dev.ethClassify 3 (ethParse (udpFrame.take 60)) = .ingest 6000 42 16 := by decide

theorem test_meets_TimeBases : Lets (settled (.stoker 0) (NET_TB_RATE.ent.at_ 3 0) (st sup)) (.stoker 0) NET_TB_RATE.ent 3 0 ∧
    (st sup).dev.rd NET_TB_CTRL.discipline 3 ≠ 2 ∧
    Lets (settled (.stoker 0) (NET_TB_STEP_CTRL.ent.at_ 3 0) (st sup)) (.stoker 0) NET_TB_STEP_CTRL.ent 3 0 ∧
    Lets (settled (.stoker 0) (NET_TB_CTRL.ent.at_ 3 0) (st sup)) (.stoker 0) NET_TB_CTRL.ent 3 0 ∧
    (st sup).dev.rd NET_TB_SET1.nanoseconds 3 ≤ 999999999 ∧
    999999999 < (st (fun d => (sup d).wr NET_TB_SET1.nanoseconds 1000000000 3)).dev.rd NET_TB_SET1.nanoseconds 3 ∧
    Lets (settled (.stoker 0) (NET_SNAP_CTRL.ent.at_ 0 0) (st sup)) (.stoker 0) NET_SNAP_CTRL.ent 0 0 ∧
    (let s := st (fun d => ((d.wr NET_TB_CTRL.discipline 2 3).wr NET_TB_CTRL.state 2 3).wr NET_TB_GL_PERIOD.p_den 1 3)
     s.dev.tbRuns 3 = true ∧ s.dev.rd NET_TB_CTRL.discipline 3 = 2 ∧ s.dev.rd NET_TB_CTRL.state 3 = 2 ∧
     s.dev.rd NET_TB_GL_PERIOD.p_den 3 ≠ 0) := by decide

def onePulse (u : Option Nat) : PulseOut := ⟨false, 0, false, false, 10, 1, 1, 5, some 0, u, false, 0⟩
theorem test_meets_PulsesAndCaptures : Lets (settled .bar0 (NET_TPO_CTRL.ent.at_ 7 0) (st id)) .bar0 NET_TPO_CTRL.ent 7 0 ∧
    8 ≤ (st id).dev.rd NET_TPO_WIDTH.width_ns 7 ∧ (st id).dev.rd NET_TPO_PER_NUM.per 7 ≠ 0 ∧ (st id).dev.pulseStart 7 < 100 * 65536 ∧
    100 * 65536 ≤ (st (fun d => d.wr NET_TPO_START1.nanoseconds 100 7)).dev.pulseStart 7 ∧
    (st (fun d => d.wr NET_TPO_WIDTH.width_ns 7 7)).dev.rd NET_TPO_WIDTH.width_ns 7 < 8 ∧
    (st id).dev.pulse 7 = none ∧ (st id).dev.pulseLow 7 = false ∧ (st id).dev.pinHigh 7 = false ∧
    (st (fun d => d.setPulse 7 (onePulse none))).dev.pulse 7 = some (onePulse none) ∧
    (st (fun d => d.setPulse 7 (onePulse (some 5)))).dev.pulse 7 = some (onePulse (some 5)) ∧ (st id).dev.netRuns = true ∧
    (∀ b < 4, (st id).dev.rd NET_TB_CTRL.discipline b = 2 → (st id).dev.rd NET_TB_CTRL.gl_input b ≠ 7) ∧
    (st (fun d => d.wr NET_CAP_CTRL.enable 1 7)).dev.rd NET_CAP_CTRL.enable 7 ≠ 0 ∧ (st id).dev.rd NET_CAP_CTRL.edge 7 = 1 := by decide

/-- The command DISABLE_PORT of port 5 on a BLANK array, and a device on which it runs. -/
def offCmd : Nat := withOp 7 (5 * 2 ^ 16)
def otpSt : State := st (fun d => { d with sec := { d.sec with otp := some (otpRun (st sup) offCmd) } })
theorem test_meets_OtpCommands : let u := settled (.stoker 0) (SEC_OTP_CMD.ent.at_ 0 0) (st sup)
    Lets u (.stoker 0) SEC_OTP_CMD.ent 0 0 ∧ otpRefusal u offCmd = 0 ∧ otpRefusal u (withOp 2 0) = 2 ∧ u.dev.evr.queue = [] ∧
    u.dev.evr.lost = 0 ∧ u.dev.rd EVR_STATUS.count < 65536 ∧ otpSt.dev.secRuns = true ∧ (otpSt.dev.sec.otp.map (fun r => r.todo)) = some [(16, 10), (16, 11)] ∧
    after (.otpCommandComplete []) otpSt (fun t => otpPortOff t.otp 5 && ! otpPortOff t.otp 4) = true := by decide
theorem test_otp_setting_half : after (.otpCommandComplete [0]) otpSt (fun t => otpPortOff t.otp 5 && t.dev.eventSet 513) = true := by decide

def checkDev (mbx : Bool) (d : Dev) : Dev :=
  { d with sec := { d.sec with checking := true, mbxCheck := mbx, nonceValid := true, nonceOk := true, token := [0, 1] } }
theorem test_meets_NoncesTokensMailbox :
    Lets (settled (.stoker 0) (SEC_NONCE_CTRL.ent.at_ 0 0) (st sup)) (.stoker 0) SEC_NONCE_CTRL.ent 0 0 ∧
    Lets (settled (.stoker 0) (SEC_TOKEN_CTRL.ent.at_ 0 0) (st sup)) (.stoker 0) SEC_TOKEN_CTRL.ent 0 0 ∧
    (st (checkDev true)).dev.secRuns = true ∧ tokenCode (st (checkDev true)) [0, 1] = 1 ∧
    (st (checkDev false)).dev.sec.nonceValid = true ∧ Lets (st sup) .mailbox SEC_MBX_CTRL.ent 0 0 ∧
    (withBit 0 31).testBit 30 = false ∧ (withBit 0 30).testBit 29 = false ∧ (withBit 0 29).testBit 31 = false := by decide
/-- A DEBUG_UNLOCK token under key slot 0 passes every check that the signature does not decide. -/
def debugTok : List Nat := [0x41544B4E, 4 * 2 ^ 16]
def passSt : State := { st (fun d => { d with sec := { d.sec with checking := true, nonceOk := true, token := debugTok } }) with otp := [(44, 2 ^ 30)] }
theorem test_token_passes (h : ∀ x p a b, Config.ecdsaOk x p a b = true) : tokenCode passSt debugTok = 0 := by
  have h1 : tokenFormat debugTok = true := by decide
  have h2 : keyState passSt.otp passSt.dev.peat.consumed (lget debugTok 1 0 % 8) = 1 := by decide
  have h3 : lget debugTok 2 0 + lget debugTok 3 0 * 2 ^ 32 = deviceId passSt.otp := by decide
  have h4 : ¬ (passSt.dev.sec.nonceOk = false) := by decide
  simp only [tokenCode, h1, h2, h3, h4, h, ne_eq, not_true, if_true, if_false, Bool.true_eq_false]

def aRec : Rec := freshRec 448 0 12 3 0 0 false false [] []
def recDev (r : Rec) (d : Dev) : Dev := { d with evr := { d.evr with queue := [r] } }
def dueDev (d : Dev) : Dev := { d with ticks := msTicks 60000, evr := { d.evr with newest := some (aRec.again 9), due := true } }
def clearTok (d : Dev) : Dev := { d.wr EVR_SEQ_NEXT.seq 1 with sec := { d.sec with checked := some ⟨3, [0, 0], 2⟩ } }
def fixKln (cur : Int) (d : Dev) : Dev := { d with ticks := msTicks 10000, kln := { d.kln with waiting := [⟨5, 23, 1, cur, 4, 0, false⟩] } }
theorem test_meets_RecorderAndKiln : (st (recDev aRec)).dev.evrRuns = true ∧ (st (recDev aRec)).dev.evr.queue = [aRec] ∧
    (st (recDev aRec)).dev.rdb EVR_STATUS.full = false ∧ (st (fun d => d.wr EVR_STATUS.full 1)).dev.rdb EVR_STATUS.full = true ∧
    otpRecord 448 = false ∧ (st (fun d => { d with evr := { d.evr with lost := 2 } })).dev.evr.lost ≠ 0 ∧
    (st dueDev).dev.evr.due = true ∧ 60000 ≤ (st dueDev).dev.msSince (st dueDev).dev.evr.lastWrite ∧
    (let u := settled (.stoker 0) (EVR_CLEAR_CTRL.ent.at_ 0 0) (st (fun d => clearTok (sup d)))
     Lets u (.stoker 0) EVR_CLEAR_CTRL.ent 0 0 ∧ u.dev.clearRefusal = 0) ∧ (st sup).dev.clearRefusal = 1 ∧
    (st (fixKln 3)).dev.kilnRuns = true ∧ (st (fixKln 3)).dev.kilnBoundary 5 23 = true ∧
    (st (recDev aRec)).dev.logTakes 448 = true ∧ (st (fun d => d.wr EVR_STATUS.full 1)).dev.logTakes 448 = false ∧
    (st dueDev).dev.evr.newestSlot < 65536 ∧ (st (fixKln 3)).dev.kln.moved = [] ∧
    (st (fun d => (fixKln 3 d).wr KLN_PG_STATUS.cinder 1 23)).dev.rd KLN_PG_STATUS.cinder 23 ≠ 0 ∧
    (st (fixKln 3)).dev.kln.waiting ≠ [] ∧ 10000 ≤ (st (fixKln 3)).dev.msSince 0 := by decide
theorem test_kiln_no_boundary : (st (fun d => { d with stk := { d.stk with pcieUp := true } })).dev.kilnBoundary 2 28 = false := by decide

def noKiln : KilnReadings := ⟨1000000, 0, [], [], []⟩
def noCircs : BootCircs := ⟨0, none, false, noKiln⟩
def smk (fail wait : Bool) (d : Dev) : Dev :=
  { d.wr GLB_SMOULDER_CTRL.wake_s 5 with glb := { d.glb with phase := .smoulder, failPin := fail, wakeWait := wait } }
def lostClk (r cause : Nat) (d : Dev) : Dev := { d with glb := { d.glb with clocksLost := 2 ^ r, heldBy := 2 ^ cause, phase := .held } }
theorem test_meets_DeviceResets : noCircs.kiln.groups.length ≤ 24 ∧
    Lets (settled (.stoker 0) (GLB_RESET_CTRL.ent.at_ 0 0) (st sup)) (.stoker 0) GLB_RESET_CTRL.ent 0 0 ∧
    (st sup).dev.glb.phase ≠ .smoulder ∧ (st (smk false true)).dev.glb.phase = .smoulder ∧ (st (smk false true)).dev.glb.failPin = false ∧
    (st (smk true true)).dev.glb.failPin = true ∧ (st (smk true true)).dev.rd GLB_SMOULDER_CTRL.wake_s ≠ 0 ∧
    (st (smk false true)).dev.glb.wakeWait = true ∧ (st sup).dev.glb.heldBy.testBit 7 = false ∧
    (st sup).dev.rdb GLB_PWR_STATUS.core = true ∧ (st (lostClk 3 7)).dev.glb.heldBy.testBit 7 = true ∧
    (st (lostClk 6 9)).dev.glb.clocksLost.testBit 6 = true ∧ (st (lostClk 6 9)).dev.glb.heldBy.testBit 9 = true ∧
    softKind (st (lostClk 6 9)).dev.kin.bootKind = false ∧ (st (lostClk 5 7)).dev.glb.clocksLost.testBit 5 = true := by decide
def supAsks (d : Dev) : Dev :=
  let d1 := (sup d).wr STK_STOKER_WDT.period_ms 5 0
  { d1 with img := { d1.img with secure := { d1.img.secure with supReset := true } } }
set_option maxRecDepth 8000 in
theorem test_meets_DeviceResets_supervisor : let s := st supAsks
    s.dev.stkRuns = true ∧ (s.dev.core 0).alive = true ∧ s.dev.img.secure.supReset = true ∧ s.dev.rd STK_STOKER_WDT.period_ms 0 ≠ 0 ∧
    Lets (settled (.stoker 0) (STK_STOKER_CTRL.ent.at_ 0 0) s) (.stoker 0) STK_STOKER_CTRL.ent 0 0 ∧ (s.dev.core 0).run ≠ 3 ∧
    s.dev.evr.queue = [] ∧ s.dev.evr.newest = none ∧ s.dev.evr.lost = 0 ∧ s.dev.rd EVR_STATUS.full = 0 ∧ s.dev.rd EVR_STATUS.count < 65519 ∧
    s.dev.img.rings.rings = [] ∧ ∀ k < 256, s.dev.rd STK_LOCK_ACQ.owner k ≠ 0 := by decide
set_option maxRecDepth 20000 in
theorem test_thermal_hold : after (.thermalTrip 0) (st sup) (fun t => t.dev.glb.phase == .held && t.dev.rd GLB_RESET_STATUS.kind == 7) = true := by decide

/-- The group of port 5 scans its first line. -/
def beganDev (d : Dev) : Dev :=
  let d1 := portDev d
  let g := d1.portGroup 5
  (d1.wr SCN_MODE_LINES.n_active 100 g).setScn g { ScnGroup.init with begun := true, scanning := true }
/-- Port 5 is LIT with a p0 above every ceiling. -/
def litDev (d : Dev) : Dev :=
  let d1 := (portDev d).wr TCT_PORT_STATE.pstate 3 5
  { d1 with img := { d1.img with sections := [⟨0x11, none, false, List.replicate 256 1⟩] } }
set_option maxRecDepth 8000 in
theorem test_meets_BlockPortSmoulderPower :
    (let u := settled (.stoker 0) (GLB_BLOCK_RESET.ent.at_ 0 0) (st sup)
     Lets u (.stoker 0) GLB_BLOCK_RESET.ent 0 0 ∧ u.dev.rdBit GLB_BLOCK_RESET.reset 17 = false ∧
       u.dev.rdBit GLB_BLOCK_RESET.reset 2 = false ∧ u.dev.rdBit GLB_BLOCK_RESET.reset 13 = false ∧ u.dev.img.net.streams.length ≤ 4 ∧
       u.dev.img.net.eth.length ≤ 4 ∧ u.dev.img.net.queues.length ≤ 16 ∧ (∀ c ∈ u.dev.img.net.eth, c.ctrlUdp.length ≤ 8)) ∧
    (st (fun d => d.wr TLK_PORT_STATE.state 3 5)).dev.linkState 5 = 3 ∧ (st (fun d => d.wr TLK_PORT_STATE.state 0 5)).dev.linkState 5 = 0 ∧ (st sup).dev.refLost 5 = false ∧
    (st (fun d => (d.wr TLK_PORT_STATE.state 1 95).setLnk 95 { LinkState.init with await := true })).dev.linkState 95 = 1 ∧
    ((st (fun d => (d.wr TLK_PORT_STATE.state 1 95).setLnk 95 { LinkState.init with await := true })).dev.lnk 95).await = true ∧
    (st (fun d => d.wr TLK_PORT_STATE.state 1 0)).dev.linkState 0 = 1 ∧ ((st sup).dev.lnk 0).await = false ∧
    (let d := (st beganDev).dev
     let g := d.portGroup 5
     (d.scnG g).begun = true ∧ (d.scnG g).scanning = true ∧ d.inExtension g = false ∧ d.curLine g + 2 < d.nActive g) ∧
    (st portDev).dev.img.activePorts.contains 5 = true ∧ (st portDev).dev.inExtension ((st portDev).dev.portGroup 5) = false ∧
    (st portDev).dev.nTotal ((st portDev).dev.portGroup 5) ≤ (st portDev).dev.curLine ((st portDev).dev.portGroup 5) + 2 ∧
    Lets (settled (.stoker 0) (GLB_PORT_RESET.ent.at_ 2 0) (st sup)) (.stoker 0) GLB_PORT_RESET.ent 2 0 ∧
    ((st portDev).dev.img.port 5).isSome = true ∧
    (st (fun d => d.wrBit GLB_PORT_RESET.reset 31 true 2)).dev.rdBit GLB_PORT_RESET.reset 31 2 = true ∧
    (let u := settled (.stoker 0) (GLB_SMOULDER_CTRL.ent.at_ 0 0) (st sup)
     Lets u (.stoker 0) GLB_SMOULDER_CTRL.ent 0 0 ∧ u.dev.glb.phase ≠ .smoulder ∧ u.dev.glb.smoulderEntry = false ∧
     u.dev.smoulderRefused = false ∧ ∀ g < 4, (u.dev.scnG g).running = false) ∧
    (st (fun d => d.setScn 2 { ScnGroup.init with running := true })).dev.smoulderRefused = false ∧
    ((st (fun d => d.setScn 2 { ScnGroup.init with running := true })).dev.scnG 2).running = true ∧
    (st litDev).dev.smoulderRefused = true ∧ (st litDev).dev.lit 5 = true ∧ (∀ n ∈ (st litDev).dev.img.activePorts, n < 96) ∧
    (st sup).dev.glb.failPin = false ∧ (st (smk true true)).dev.glb.failPin = true ∧
    (st (fun d => { d with glb := { d.glb with warned := true } })).dev.glb.warned = true := by decide

def phased (p : BootPhase) (d : Dev) : Dev := { d with glb := { d.glb with phase := p } }
/-- Slot 0 holds an image in this state, and the array reads SHOW. -/
def bootSt (p : BootPhase) (slot : Nat) (f : Dev → Dev) : State :=
  { st (fun d => f (phased p (d.journal 0 0 slot 0 0 0))) with otp := [(0, 4)] }
def lighting (step : Nat) (fb : Bool) (d : Dev) : Dev :=
  { d.wr KIN_RELIGHT.step step with kin := { d.kin with relight := some ⟨1, 0, fb, 0, false⟩, cand := some Image.blank } }
/-- A relight whose image moves the clock of stack 1's controller. -/
def moving (d : Dev) : Dev :=
  let d1 := lighting 5 false d
  { d1 with kin := { d1.kin with cand := some { Image.blank with clock := { Image.blank.clock with freq := List.replicate 32 1 } } } }
theorem test_meets_BootAndRelight : (bootSt .waitTraining 2 id).dev.bestGood = some 0 ∧ loadBarred [(0, 4)] = false ∧ loadBarred [] = true ∧
    (st (phased .verify)).dev.bestGood = none ∧ verifyImage (bootSt .verify 2 id) [] = .reject 4 0 ∧
    (bootSt .verify 2 id).dev.slotState 1 ≠ slotGood ∧ (bootSt .verify 2 (fun d => { d with kin := { d.kin with source := 1 } })).dev.slotState (1 - 1) = slotGood ∧
    (bootSt .apply 2 (lighting 0 false)).dev.kin.cand = some Image.blank ∧
    Lets (settled (.stoker 0) (KIN_CTRL.ent.at_ 0 0) (bootSt .run 1 sup)) (.stoker 0) KIN_CTRL.ent 0 0 ∧
    (let p := kinWrite (clearBits 1 1) (bootSt .run 1 sup)
     p.dev.kin.relight = none ∧ p.dev.glb.phase = .run ∧ p.dev.slotState 0 = slotTrial ∧ p.dev.slotState 1 = 0 ∧
     p.dev.rd KIN_STATUS.slot = 0) ∧
    (bootSt .run 1 (lighting 1 false)).dev.kinRuns = true ∧ (bootSt .run 1 (lighting 1 false)).dev.kin.relight = some ⟨1, 0, false, 0, false⟩ ∧
    (bootSt .run 1 moving).dev.trainingDue = true ∧ (bootSt .run 1 (lighting 5 false)).dev.trainingDue = false ∧
    hbmClockChanged Image.blank { Image.blank with clock := { Image.blank.clock with freq := List.replicate 32 1 } } (63 / 32) = true ∧
    (bootSt .run 1 (lighting 6 false)).dev.kin.supReady = false ∧ (bootSt .run 1 (lighting 6 true)).dev.rd KIN_RELIGHT.step = 6 ∧
    (let p := kinWrite (clearBits 17 1) (bootSt .halted 1 sup)
     p.dev.kin.relight = none ∧ p.dev.glb.phase = .halted ∧ p.dev.slotState 0 = slotTrial ∧ p.dev.slotState 1 = 0) := by decide

def patching (d : Dev) : Dev := { d with kin := { d.kin with patches := [[7]], flashRun := some (1, [7]) } }
theorem test_meets_PatchesAndFlash : (st sup).dev.kinRuns = true ∧ (st sup).dev.secureSender (.stoker 0) = true ∧ (st sup).dev.kin.relight = none ∧ (st (lighting 1 false)).dev.kin.relight ≠ none ∧
    (st sup).dev.secureSender .bar0 = false ∧ (st patching).dev.kin.patches = [[7]] ∧ verifyPatch (bootSt .run 2 id) [7] = .reject 4 0 ∧
    (st sup).dev.flashOk 1 [7] = true ∧ (bootSt .run 2 sup).dev.flashOk 0 [7] = false ∧
    (st patching).dev.kin.flashRun = some (1, [7]) := by decide
theorem test_flash_done : after (.flashWriteDone true) (st patching) (fun t => t.flash == [(1, [7])] && t.dev.slotState 1 == 1) = true := by decide

end Sys2Proof.Tests
end

section
/-!
Control-space accesses: what a store by the access codes does to each bit of a register (R6, R9), which register an address
names, and the state on which the fabric decides a row's write.
-/
namespace Sys2Proof.Machine

/-! ### Bits of a written value -/

theorem testBit_clearBits (v m k : Nat) : (clearBits v m).testBit k = (v.testBit k && !m.testBit k) := by
  simp only [clearBits, Nat.testBit_xor, Nat.testBit_and]
  cases v.testBit k <;> cases m.testBit k <;> rfl

/-- Numbers with no common bit add without carries. -/
theorem add_eq_or_of_and_eq_zero {x y : Nat} (h : x &&& y = 0) : x + y = x ||| y := by
  have hlt : x + y < 2 ^ (x + y) := Nat.lt_two_pow_self
  have hx : x < 2 ^ (x + y) := by omega
  have hy : y < 2 ^ (x + y) := by omega
  have hv := BitVec.add_eq_or_of_and_eq_zero (BitVec.ofNat (x + y) x) (BitVec.ofNat (x + y) y) (by
    rw [← BitVec.ofNat_and, h])
  have hn := congrArg BitVec.toNat hv
  rwa [BitVec.toNat_add, BitVec.toNat_or, BitVec.toNat_ofNat, BitVec.toNat_ofNat, Nat.mod_eq_of_lt hx, Nat.mod_eq_of_lt hy,
    Nat.mod_eq_of_lt hlt] at hn

/-- What a non-secure writer leaves: the new bits outside the mask and the old ones inside it (R9). -/
theorem testBit_clearBits_add_and (new old m k : Nat) :
    (clearBits new m + (old &&& m)).testBit k = if m.testBit k then old.testBit k else new.testBit k := by
  have disjoint : clearBits new m &&& (old &&& m) = 0 := by
    apply Nat.eq_of_testBit_eq
    intro n
    simp only [Nat.testBit_and, testBit_clearBits, Nat.zero_testBit]
    cases m.testBit n <;> simp
  rw [add_eq_or_of_and_eq_zero disjoint, Nat.testBit_or, testBit_clearBits, Nat.testBit_and]
  cases m.testBit k <;> simp

/-- Bit k of a field's value after a write, from the bit it held and the bit written (R6). -/
def Acc.bitAfter (acc : Acc) (old new : Bool) : Bool :=
  match acc with
  | .rw => new
  | .w1c => old && !new
  | .w1s => old || new
  | .ro | .wo | .rc => old

theorem testBit_fieldWrite (acc : Acc) (old v k : Nat) :
    (fieldWrite acc old v).testBit k = acc.bitAfter (old.testBit k) (v.testBit k) := by
  cases acc
  case w1c => exact testBit_clearBits old v k
  case w1s => exact Nat.testBit_or old v k
  all_goals rfl

/-! ### Storing a register by its access codes -/

/-- A write reaches fields of this access code. -/
def Acc.stores : Acc → Bool
  | .rw | .w1c | .w1s => true
  | .ro | .wo | .rc => false

/-- The value field f takes from a write of v to its register. -/
def FldAcc.stored (f : FldAcc) (sec : Bool) (old v : Nat) : Nat :=
  let new := fieldWrite f.acc old (v / 2 ^ f.f.lo % 2 ^ f.f.w)
  if sec then new else clearBits new f.secMask + (old &&& f.secMask)

/-- What a write of v to entry [i][j] of a register does to one of its fields: one step of `regStore`. -/
def storeField (sec : Bool) (i j v : Nat) (r : RegFile) (f : FldAcc) : RegFile :=
  if f.acc.stores then rset r f.f (f.stored sec (rget r f.f i j) v) i j else r

theorem regStore_eq_foldl (r : RegFile) (sec : Bool) (e : RegEnt) (i j v : Nat) :
    regStore r sec e i j v = e.fields.foldl (storeField sec i j v) r := by
  unfold regStore
  congr 1
  funext r f
  obtain ⟨f, acc, m⟩ := f
  cases acc <;> rfl

theorem tfind_storeField_ne (sec : Bool) (i j v : Nat) (r : RegFile) (f : FldAcc) {k : Nat} (h : k ≠ f.f.key i j) :
    tfind (storeField sec i j v r f) k = tfind r k := by
  unfold storeField
  split
  · exact tfind_tput_ne r _ h
  · rfl

theorem tfind_foldl_storeField_of_notMem (sec : Bool) (i j v : Nat) (fs : List FldAcc) (r : RegFile) {k : Nat}
    (h : k ∉ fs.map (fun f => f.f.key i j)) : tfind (fs.foldl (storeField sec i j v) r) k = tfind r k := by
  induction fs generalizing r with
  | nil => rfl
  | cons f fs ih =>
    rw [List.map_cons, List.mem_cons, not_or] at h
    rw [List.foldl_cons, ih _ h.2, tfind_storeField_ne _ _ _ _ _ _ h.1]

/-- The bit of a field after the step that stores it. -/
theorem testBit_rget_storeField (sec : Bool) (i j v k : Nat) (r : RegFile) (f : FldAcc) (hk : k < f.f.w) :
    (rget (storeField sec i j v r f) f.f i j).testBit k =
      if sec = false ∧ f.secMask.testBit k = true then (rget r f.f i j).testBit k
      else f.acc.bitAfter ((rget r f.f i j).testBit k) (v.testBit (f.f.lo + k)) := by
  unfold storeField
  split
  · have written : (v / 2 ^ f.f.lo % 2 ^ f.f.w).testBit k = v.testBit (f.f.lo + k) := by
      rw [Nat.testBit_mod_two_pow, Nat.testBit_div_two_pow, decide_eq_true hk, Bool.true_and, Nat.add_comm]
    have cell (x : Nat) : (rget (rset r f.f x i j) f.f i j).testBit k = x.testBit k := by
      simp only [rget, rset, tget_tput_same, Nat.testBit_mod_two_pow, decide_eq_true hk, Bool.true_and]
    rw [cell, FldAcc.stored]
    cases sec
    · simp [testBit_clearBits_add_and, testBit_fieldWrite, written]
    · simp [testBit_fieldWrite, written]
  · next hacc =>
    have keeps (b c : Bool) : f.acc.bitAfter b c = b := by
      revert hacc
      cases f.acc <;> simp [Acc.stores, Acc.bitAfter]
    rw [keeps, ite_self]

/-- Where the fields have cells of their own, a field's bits follow from its own step. -/
theorem testBit_rget_foldl_storeField (sec : Bool) (i j v k : Nat) (fs : List FldAcc) (r : RegFile) (f : FldAcc)
    (hf : f ∈ fs) (apart : (fs.map (fun f => f.f.key i j)).Nodup) (hk : k < f.f.w) :
    (rget (fs.foldl (storeField sec i j v) r) f.f i j).testBit k =
      if sec = false ∧ f.secMask.testBit k = true then (rget r f.f i j).testBit k
      else f.acc.bitAfter ((rget r f.f i j).testBit k) (v.testBit (f.f.lo + k)) := by
  induction fs generalizing r with
  | nil => exact absurd hf List.not_mem_nil
  | cons g fs ih =>
    rw [List.map_cons, List.nodup_cons] at apart
    obtain ⟨hg, apart⟩ := apart
    rw [List.foldl_cons]
    rcases List.mem_cons.mp hf with rfl | hf
    · rw [← testBit_rget_storeField sec i j v k r f hk]
      simp only [rget, tget, tfind_foldl_storeField_of_notMem _ _ _ _ _ _ hg]
    · have hne : f.f.key i j ≠ g.f.key i j := fun h => hg (h ▸ List.mem_map_of_mem hf)
      rw [ih _ hf apart]
      simp only [rget, tget, tfind_storeField_ne _ _ _ _ _ _ hne]

/-- The fields of a register lie in its own word, each at a place of its own. -/
def RegEnt.placed (e : RegEnt) : Bool :=
  e.fields.all (fun f => f.f.addr == e.addr && f.f.s1 == e.s1 && f.f.s2 == e.s2 && decide (f.f.lo + f.f.w ≤ 32)) &&
  decide ((e.fields.map (fun f => f.f.lo)).Nodup)

theorem RegEnt.placed_field {e : RegEnt} (h : e.placed = true) {f : FldAcc} (hf : f ∈ e.fields) :
    (∀ i j, f.f.key i j = e.at_ i j * 32 + f.f.lo) ∧ f.f.lo + f.f.w ≤ 32 := by
  simp only [RegEnt.placed, Bool.and_eq_true, List.all_eq_true, beq_iff_eq, decide_eq_true_eq] at h
  obtain ⟨⟨⟨ha, h1⟩, h2⟩, hw⟩ := h.1 f hf
  exact ⟨fun i j => by rw [Fld.key, RegEnt.at_, ha, h1, h2], hw⟩

theorem RegEnt.placed_keys_nodup {e : RegEnt} (h : e.placed = true) (i j : Nat) :
    (e.fields.map (fun f => f.f.key i j)).Nodup := by
  have los : (e.fields.map (fun f => f.f.lo)).Nodup := by
    simp only [RegEnt.placed, Bool.and_eq_true, decide_eq_true_eq] at h
    exact h.2
  have keys : e.fields.map (fun f => f.f.key i j) = (e.fields.map (fun f => f.f.lo)).map (fun lo => e.at_ i j * 32 + lo) := by
    rw [List.map_map]
    exact List.map_congr_left (fun f hf => (RegEnt.placed_field h hf).1 i j)
  rw [keys]
  exact List.Pairwise.map _ (fun _ _ differ same => differ (Nat.add_left_cancel same)) los

/-- A write by the access codes alone changes no cell but the register's own. -/
theorem Dev.store_cells (d : Dev) (who : Initiator) (e : RegEnt) (i j v : Nat) {k : Nat}
    (h : k ∉ e.fields.map (fun f => f.f.key i j)) : tfind (d.store who e i j v).regs k = tfind d.regs k := by
  rw [Dev.store, regStore_eq_foldl]
  exact tfind_foldl_storeField_of_notMem _ _ _ _ _ _ h

/-- Each bit of a field after a write of a 32-bit word by the access codes (R6, R9). -/
theorem Dev.rdBit_store (d : Dev) (who : Initiator) (e : RegEnt) (i j v : Nat) (placed : e.placed = true) {f : FldAcc}
    (hf : f ∈ e.fields) {k : Nat} (hk : k < f.f.w) :
    (d.store who e i j (v % 2 ^ 32)).rdBit f.f k i j =
      if d.secureOf who = false ∧ f.secMask.testBit k = true then d.rdBit f.f k i j
      else f.acc.bitAfter (d.rdBit f.f k i j) (v.testBit (f.f.lo + k)) := by
  have inWord : f.f.lo + k < 32 := by have := (RegEnt.placed_field placed hf).2; omega
  have stored := testBit_rget_foldl_storeField (d.secureOf who) i j (v % 2 ^ 32) k e.fields d.regs f hf
    (RegEnt.placed_keys_nodup placed i j) hk
  rw [Nat.testBit_mod_two_pow, decide_eq_true inWord, Bool.true_and, ← regStore_eq_foldl] at stored
  exact stored

/-! ### The register an address names -/

/-- An index taken from an offset reaches no further than the offset. -/
theorem index_mul_le (n stride : Nat) : (if stride = 0 then 0 else n / stride) * stride ≤ n := by
  split
  · rw [Nat.zero_mul]; exact Nat.zero_le n
  · exact Nat.div_mul_le_self n stride

theorem RegEnt.at_of_locate {e : RegEnt} {a i j : Nat} (h : e.locate a = some (i, j)) : e.at_ i j = a := by
  unfold RegEnt.locate at h
  dsimp only at h
  rw [Option.ite_none_left_eq_some, Option.ite_none_right_eq_some] at h
  obtain ⟨hge, ⟨-, -, hrest⟩, hij⟩ := h
  obtain ⟨rfl, rfl⟩ := Prod.mk.inj (Option.some.inj hij)
  have row := index_mul_le (a - e.addr) e.s1
  have col := index_mul_le (a - e.addr - (if e.s1 = 0 then 0 else (a - e.addr) / e.s1) * e.s1) e.s2
  unfold RegEnt.at_
  omega

theorem locate_of_lookupReg {t : List RegEnt} {a i j : Nat} {e : RegEnt} (h : lookupReg t a = some (e, i, j)) :
    e.locate a = some (i, j) := by
  induction t with
  | nil => exact absurd h (by simp [lookupReg])
  | cons g t ih =>
    unfold lookupReg at h
    split at h
    · next hg =>
      obtain ⟨rfl, hij⟩ := Prod.mk.inj (Option.some.inj h)
      rw [hg, hij]
    · exact ih h

/-- A register stands at the address that names it. -/
theorem at_of_regAt {a i j : Nat} {e : RegEnt} (h : regAt a = some (e, i, j)) : e.at_ i j = a :=
  RegEnt.at_of_locate (locate_of_lookupReg h)

theorem doorbellAt_of_regAt {a i j : Nat} {e : RegEnt} (h : regAt a = some (e, i, j)) : doorbellAt a = e.isDoor := by
  simp [doorbellAt, h]

/-! ### A row's write and read, as the fabric decides them -/

/-- A row's write of a register that is no doorbell, or that the fabric drops, is decided on the state that it meets. -/
theorem writeNow_eq_gateS {a i j : Nat} {e : RegEnt} (hreg : regAt a = some (e, i, j)) (who : Initiator) (v : Nat) (s : State)
    (h : e.isDoor = false ∨ (beforeWrite who a s).dev.writeCase who e i j ≠ .done) :
    writeNow who a v s = gateS (beforeWrite who a s) who e i j (writeEffect who e i j (v % 2 ^ 32)) := by
  cases hdoor : e.isDoor
  · simp [writeNow, beforeWrite, settled, controlWrite, doorbellAt_of_regAt hreg, hreg, hdoor]
  · have dropped := h.resolve_left (by simp [hdoor])
    simp only [beforeWrite, doorbellAt_of_regAt hreg, hdoor, if_true] at dropped ⊢
    simp [writeNow, controlWrite, doorbellAt_of_regAt hreg, hreg, hdoor, Dev.writeDone, dropped]

/-- A write that the fabric blocks is reported. -/
theorem gateS_blocked {s : State} {who : Initiator} {e : RegEnt} {i j : Nat} (f : State → State)
    (h : s.dev.writeCase who e i j = .blocked) : gateS s who e i j f = onDev s (fun d => d.secBlocked who (e.at_ i j) true) := by
  simp [gateS, h]

theorem Dev.accessRead_blocked {d : Dev} {who : Initiator} {e : RegEnt} {i j : Nat} (pre post : Dev → Dev)
    (h : d.writeCase who e i j = .blocked) :
    d.accessRead who e i j pre post = (d.secBlocked who (e.at_ i j) false, 0x0BADF00D) := by
  simp [Dev.accessRead, h]

theorem exec_registerWrite (who : Initiator) (a v : Nat) (s : State) :
    exec (.registerWrite who a v) s = .next (writeNow who a v s) := rfl

theorem exec_registerRead (who : Initiator) (a : Nat) (s : State) : exec (.registerRead who a) s = .next (readOut who a s) := rfl

theorem exec_eventStatusClear (who : Initiator) (a v : Nat) (events : List Nat) (s : State) :
    exec (.eventStatusClear who a v events) s = .next (onDev (writeNow who a v s) (fun d => d.raiseIn a events)) := rfl

end Sys2Proof.Machine
end

section
/-!
Writes that only store, and the reset state: statements O3 and O13.
-/
namespace Sys2Proof.Machine

/-! ### Writes without an effect of their own -/

/-- The registers whose write does more than store by the access codes, event enables apart. -/
def effectAddrs : List Nat :=
  [GLB_RESET_CTRL.baseAddr, GLB_BLOCK_RESET.baseAddr, GLB_PORT_RESET.baseAddr, GLB_SMOULDER_CTRL.baseAddr, KIN_CTRL.baseAddr,
   ING_LTABLE_CTRL.baseAddr, RAY_SPARE_CTRL.baseAddr, RAY_BELLOWS_WM.baseAddr, CMP_PORT_SEL.baseAddr, CMP_OVL_PAL_LO.baseAddr,
   CMP_OVL_PAL_HI.baseAddr, CMP_MAP_CTRL.baseAddr, SCN_COMMIT.baseAddr, SCN_MODE.baseAddr, TLK_PORT_CTRL.baseAddr,
   TLK_TEST.baseAddr, TLK_TIME_CFG.baseAddr, TCT_CTRL.baseAddr, TCT_PORT_CTRL.baseAddr, MEM_TRAIN_CFG.baseAddr,
   MEM_CORD_WM.baseAddr, ARB_INST_CFG.baseAddr, ARB_REQ_CFG.baseAddr, STK_RING_PI.baseAddr, STK_RING_CI.baseAddr,
   STK_STOKER_CTRL.baseAddr, STK_RING_CTRL.baseAddr, STK_IF_SEL.baseAddr, STK_LOCK_REL.baseAddr, FSC_HEARTBEAT.baseAddr,
   FSC_PORT_LEVEL.baseAddr, NET_ETH_CTRL.baseAddr, NET_Q_HEAD.baseAddr, NET_Q_TAIL.baseAddr, NET_TB_RATE.baseAddr,
   NET_TB_STEP_CTRL.baseAddr, NET_TB_CTRL.baseAddr, NET_SNAP_CTRL.baseAddr, NET_TB_GL_PERIOD.baseAddr, NET_TB_PTP.baseAddr,
   NET_TPO_CTRL.baseAddr, SEC_NONCE_CTRL.baseAddr, SEC_TOKEN.baseAddr, SEC_TOKEN_CTRL.baseAddr, SEC_OTP_CMD.baseAddr,
   SEC_OTP_RD_ADDR.baseAddr, EVR_CLEAR_CTRL.baseAddr, SEC_MBX_CTRL.baseAddr, SEC_MBX_TOKEN.baseAddr, SEC_MBX_HBM_BASE.baseAddr]

/-- A write of the register stores by the access codes and does nothing else. -/
abbrev RegEnt.StoresOnly (e : RegEnt) : Prop := e.addr ∉ effectAddrs ∧ evBase (e.addr - 4) = none

theorem RegEnt.StoresOnly.isDoor {e : RegEnt} (h : e.StoresOnly) : e.isDoor = false := by
  obtain ⟨h, -⟩ := h
  simp only [effectAddrs, List.mem_cons, not_or] at h
  simp [RegEnt.isDoor, h]

/-- The blocks' own tables of effects come to the store. -/
theorem Dev.blockWrite_eq_store {e : RegEnt} (h : e.addr ∉ effectAddrs) (d : Dev) (who : Initiator) (i j v : Nat) :
    d.rayCmpWrite who e i j v = d.store who e i j v ∧ d.wallWrite who e i j v = d.store who e i j v ∧
    d.engineWrite who e i j v = d.store who e i j v ∧ d.netWrite who e i j v = d.store who e i j v ∧
    d.secureWrite who e i j v = d.store who e i j v := by
  simp only [effectAddrs, List.mem_cons, not_or] at h
  simp [Dev.rayCmpWrite, Dev.wallWrite, Dev.engineWrite, Dev.netWrite, Dev.secureWrite, h]

theorem writeEffect_eq_store {e : RegEnt} (h : e.StoresOnly) (who : Initiator) (i j v : Nat) (s : State) :
    writeEffect who e i j v s = onDev s (fun d => d.store who e i j v) := by
  have door := h.isDoor
  obtain ⟨h, noEnable⟩ := h
  have blocks := fun d : Dev => Dev.blockWrite_eq_store h d who i j v
  simp only [effectAddrs, List.mem_cons, not_or] at h
  simp only [writeEffect, blocks, h, door, noEnable, if_false, Bool.false_eq_true]
  congr 1
  funext d
  split <;> rfl

/-- A store changes the register's own cells and nothing else. -/
theorem store_onlyCells (s : State) (who : Initiator) (e : RegEnt) (i j v : Nat) :
    OnlyCells s (onDev s (fun d => d.store who e i j v)) (e.fields.map (fun f => f.f.key i j)) :=
  ⟨rfl, fun _ h => Dev.store_cells s.dev who e i j v h⟩

/-- REGISTER_WRITE of such a register, let through: it comes after the writer's earlier stores to the block. -/
theorem writeNow_eq_store {a i j : Nat} {e : RegEnt} (hreg : regAt a = some (e, i, j)) (h : e.StoresOnly) (who : Initiator)
    (v : Nat) (s : State) (lets : Lets (settled who a s) who e i j) :
    writeNow who a v s = onDev (settled who a s) (fun d => d.store who e i j (v % 2 ^ 32)) := by
  have door := h.isDoor
  have meets : beforeWrite who a s = settled who a s := by simp [beforeWrite, doorbellAt_of_regAt hreg, door]
  rw [writeNow_eq_gateS hreg who v s (.inl door), meets, gateS_done _ lets, writeEffect_eq_store h]

/-! ### After reset -/

/-- After reset no field has a cell, so each holds its Reset entry (R11). -/
theorem Dev.rd_reset (f : Fld) (i j : Nat) : Dev.reset.rd f i j = f.rst := rfl

/-- Settles O3: the register file of the reset state lists no cell. -/
theorem resetLeavesResetEntries : Obligations.ResetLeavesResetEntries := by
  unfold Obligations.ResetLeavesResetEntries
  exact ⟨Dev.rd_reset, Dev.rd_reset _ 0 0, Dev.rd_reset _ 0 0, rfl, rfl, rfl, rfl⟩

/-! ### Writing plain registers -/

theorem plainRegs_storesOnly : ∀ e ∈ plainRegs, e.StoresOnly ∧ e.placed = true := by decide

/-- Settles O13: the write of a plain register is a store by the access codes, field by field. -/
theorem writeByAccessCode : Obligations.WriteByAccessCode := by
  unfold Obligations.WriteByAccessCode
  intro who e i j v s he hreg u lets
  obtain ⟨stores, placed⟩ := plainRegs_storesOnly e he
  refine ⟨_, exec_registerWrite who _ v s, ?_⟩
  rw [writeNow_eq_store hreg stores who v s lets]
  refine ⟨store_onlyCells _ who e i j _, fun f hf k hk => ?_⟩
  rw [onDev_dev, Dev.rdBit_store _ who e i j v placed hf hk]
  cases f.acc <;> rfl

end Sys2Proof.Machine
end

section
/-!
Events: what raising one leaves in its status register and sends, where the event registers stand, and statement O15.
-/
namespace Sys2Proof.Machine

/-! ### Reads of cells that stayed -/

theorem Dev.rd_congr {d d' : Dev} {f : Fld} {i j : Nat} (h : tfind d'.regs (f.key i j) = tfind d.regs (f.key i j)) :
    d'.rd f i j = d.rd f i j := by simp only [Dev.rd, rget, tget, h]

theorem Dev.rdBit_congr {d d' : Dev} {f : Fld} {i j : Nat} (k : Nat) (h : tfind d'.regs (f.key i j) = tfind d.regs (f.key i j)) :
    d'.rdBit f k i j = d.rdBit f k i j := by rw [Dev.rdBit, Dev.rd_congr h, Dev.rdBit]

/-- Bit k of a field after bit n of it has been set. -/
theorem Dev.rdBit_wrBit_true (d : Dev) (f : Fld) (n i j : Nat) {k : Nat} (hk : k < f.w) :
    (d.wrBit f n true i j).rdBit f k i j = (d.rdBit f k i j || decide (n = k)) := by
  simp only [Dev.rdBit, Dev.rd, Dev.wrBit, rsetBit, rget, rset, if_true, tget_tput_same, Nat.testBit_mod_two_pow, decide_eq_true hk,
    Bool.true_and, Nat.testBit_or, Nat.testBit_two_pow]

/-! ### Raising an event: its status bit and its message -/

/-- The cells of its own registers that the recorder changes when a trigger reaches it. -/
def recorderCells : List Nat :=
  [EVR_SHADOW.repeat.key 0 0, EVR_FULL_DROP_CNT.sat.key 0 0, EVR_FULL_DROP_CNT.count.key 0 0, EVR_LOST_CNT.sat.key 0 0,
   EVR_LOST_CNT.count.key 0 0]

theorem Dev.repeatNewest_cells (d : Dev) (stamp : Nat) {k : Nat} (h : k ∉ recorderCells) :
    tfind (d.repeatNewest stamp).regs k = tfind d.regs k := by
  simp only [recorderCells, List.mem_cons, not_or] at h
  simp only [Dev.repeatNewest, Dev.showShadow]
  rw [Dev.wr_cells _ _ _ _ _ _ h.1]
  split
  · rfl
  · split <;> rfl

theorem Dev.trigger_cells (d : Dev) (n inst : Nat) {k : Nat} (h : k ∉ recorderCells) :
    tfind (d.trigger n inst).regs k = tfind d.regs k := by
  have hk := h
  simp only [recorderCells, List.mem_cons, not_or] at hk
  obtain ⟨shadow, fullSat, full, lostSat, lost, -⟩ := hk
  unfold Dev.trigger
  dsimp only
  split
  · exact Dev.repeatNewest_cells d _ h
  · split
    · exact (Dev.count_frame d _ _ 1 0 0).2 k fullSat full
    · split
      · exact (Dev.count_frame d _ _ 1 0 0).2 k lostSat lost
      · exact Dev.wr_cells _ _ _ _ _ _ shadow

theorem Dev.message_regs (d : Dev) (n : Nat) : (d.message n).regs = d.regs := by rw [Dev.message_frame]

/-- Event n of a status cell outside the recorder's: the cell is as setting the event's bit leaves it. -/
theorem Dev.raiseAt_statusCell (d : Dev) {n : Nat} {p : EvPos} (hp : evPos n = some p) (h : p.st.key p.inst 0 ∉ recorderCells)
    (inst : Nat) (force : Bool) : tfind (d.raiseAt n inst force).regs (p.st.key p.inst 0) =
      tfind (d.wrBit p.st p.bit true p.inst).regs (p.st.key p.inst 0) := by
  have sent (b : Bool) : (if b then (d.wrBit p.st p.bit true p.inst).message n else d.wrBit p.st p.bit true p.inst).regs =
      (d.wrBit p.st p.bit true p.inst).regs := by
    cases b
    · rfl
    · exact Dev.message_regs _ n
  simp only [Dev.raiseAt, hp]
  split
  · rw [Dev.trigger_cells _ _ _ h, sent]
  · rw [sent]

/-- Each bit of event n's status register once the event has occurred (R38). -/
theorem Dev.rdBit_raiseAt (d : Dev) {n : Nat} {p : EvPos} (hp : evPos n = some p) (h : p.st.key p.inst 0 ∉ recorderCells)
    (inst : Nat) (force : Bool) {k : Nat} (hk : k < p.st.w) :
    (d.raiseAt n inst force).rdBit p.st k p.inst = (d.rdBit p.st k p.inst || decide (p.bit = k)) := by
  rw [Dev.rdBit_congr k (Dev.raiseAt_statusCell d hp h inst force), Dev.rdBit_wrBit_true _ _ _ _ _ hk]

/-- What leaves the device where an enabled event's status bit goes from 0 to 1 (R38). -/
theorem Dev.raiseAt_out (d : Dev) {n : Nat} {p : EvPos} (hp : evPos n = some p) (was : d.rdBit p.st p.bit p.inst = false)
    (en : d.rdBit p.en p.bit p.inst = true) (inst : Nat) (force : Bool) :
    (d.raiseAt n inst force).out = ((d.wrBit p.st p.bit true p.inst).message n).out := by
  simp only [Dev.raiseAt, hp, was, en, Bool.not_false, Bool.and_self, if_true]
  split
  · rw [(Dev.trigger_frame _ _ _).1]
  · rfl

theorem Dev.message_out_of_msix {d : Dev} {n : Nat} (target : d.rd GLB_EVT_ROUTE.target n = 2) (sec : d.eventSecure n = false) :
    (d.message n).out = .msix (d.rd GLB_EVT_ROUTE.dest n) n (d.stampOf n) :: d.out := by
  simp [Dev.message, target, sec, Dev.emit]

/-! ### The routing of an event -/

/-- The cells that decide where event n's message goes, in which world, and with which stamp (R35, R36, R495). -/
def routeCells (n : Nat) : List Nat :=
  [GLB_EVT_ROUTE.target.key n 0, GLB_EVT_ROUTE.dest.key n 0, GLB_EVT_ROUTE.secure.key n 0, SEC_WORLD.secure.key 0 0,
   SCN_CFG.time_base.key ((n - 160) / 16) 0, NET_EVT_TB.tb.key 0 0]

/-- An event whose routing cells and time bases stay is routed and stamped as before. -/
theorem Dev.route_congr {d d' : Dev} {n : Nat} (net : d'.net = d.net)
    (cells : ∀ k ∈ routeCells n, tfind d'.regs k = tfind d.regs k) :
    d'.rd GLB_EVT_ROUTE.target n = d.rd GLB_EVT_ROUTE.target n ∧ d'.rd GLB_EVT_ROUTE.dest n = d.rd GLB_EVT_ROUTE.dest n ∧
    d'.eventSecure n = d.eventSecure n ∧ d'.stampOf n = d.stampOf n := by
  simp only [routeCells, List.forall_mem_cons] at cells
  obtain ⟨target, dest, secure, world, groupBase, eventBase, -⟩ := cells
  refine ⟨Dev.rd_congr target, Dev.rd_congr dest, ?_, ?_⟩
  · have blocks : d'.blockSecure = d.blockSecure := funext fun b => Dev.rdBit_congr b world
    simp only [Dev.eventSecure, blocks, Dev.rdb_eq, Dev.rd_congr secure]
  · simp only [Dev.stampOf, Dev.evNow, Dev.groupTb, Dev.tbNow, net, Dev.rd_congr groupBase, Dev.rd_congr eventBase]

/-! ### The event registers -/

/-- An event status register with its field and the enable field of the same events. -/
structure EventReg where
  ent : RegEnt
  st : Fld
  en : Fld

/-- The event status registers of every block. -/
def eventRegs : List EventReg :=
  [⟨GLB_EVT_STATUS.ent, GLB_EVT_STATUS.status, GLB_EVT_ENABLE.enable⟩, ⟨KIN_EVT_STATUS.ent, KIN_EVT_STATUS.status, KIN_EVT_ENABLE.enable⟩,
   ⟨ING_EVT_STATUS.ent, ING_EVT_STATUS.status, ING_EVT_ENABLE.enable⟩, ⟨RAY_EVT_STATUS.ent, RAY_EVT_STATUS.status, RAY_EVT_ENABLE.enable⟩,
   ⟨CMP_EVT_STATUS.ent, CMP_EVT_STATUS.status, CMP_EVT_ENABLE.enable⟩, ⟨SCN_EVT_STATUS.ent, SCN_EVT_STATUS.status, SCN_EVT_ENABLE.enable⟩,
   ⟨TLK_EVT_STATUS.ent, TLK_EVT_STATUS.status, TLK_EVT_ENABLE.enable⟩, ⟨TCT_EVT_STATUS.ent, TCT_EVT_STATUS.status, TCT_EVT_ENABLE.enable⟩,
   ⟨FSC_EVT_STATUS.ent, FSC_EVT_STATUS.status, FSC_EVT_ENABLE.enable⟩, ⟨MEM_EVT_STATUS.ent, MEM_EVT_STATUS.status, MEM_EVT_ENABLE.enable⟩,
   ⟨ARB_EVT_STATUS.ent, ARB_EVT_STATUS.status, ARB_EVT_ENABLE.enable⟩, ⟨CDC_EVT_STATUS.ent, CDC_EVT_STATUS.status, CDC_EVT_ENABLE.enable⟩,
   ⟨TWD_EVT_STATUS.ent, TWD_EVT_STATUS.status, TWD_EVT_ENABLE.enable⟩, ⟨STK_EVT_STATUS.ent, STK_EVT_STATUS.status, STK_EVT_ENABLE.enable⟩,
   ⟨NET_EVT_STATUS.ent, NET_EVT_STATUS.status, NET_EVT_ENABLE.enable⟩,
   ⟨NET_Q_EVT_STATUS.ent, NET_Q_EVT_STATUS.status, NET_Q_EVT_ENABLE.enable⟩,
   ⟨SEC_EVT_STATUS.ent, SEC_EVT_STATUS.status, SEC_EVT_ENABLE.enable⟩, ⟨EVR_EVT_STATUS.ent, EVR_EVT_STATUS.status, EVR_EVT_ENABLE.enable⟩,
   ⟨KLN_EVT_STATUS.ent, KLN_EVT_STATUS.status, KLN_EVT_ENABLE.enable⟩]

/-- The branch that a conditional's value comes from. -/
theorem ite_eq_cases {α : Type} {c : Prop} [Decidable c] {x y z : α} (h : (if c then x else y) = z) : c ∧ x = z ∨ ¬c ∧ y = z := by
  by_cases hc : c
  · exact .inl ⟨hc, (if_pos hc).symm.trans h⟩
  · exact .inr ⟨hc, (if_neg hc).symm.trans h⟩

/-- Every event shows in one of the event status registers. -/
theorem eventReg_of_evPos {n : Nat} {p : EvPos} (hp : evPos n = some p) :
    (∃ x ∈ eventRegs, x.st = p.st ∧ x.en = p.en ∧ p.inst < x.ent.n1) ∧ p.bit < p.st.w ∧ n < 582 := by
  unfold evPos at hp
  -- The event ranges in turn; SCN's alone has four wall groups and gaps.
  iterate 5
    rcases ite_eq_cases hp with ⟨hn, hp⟩ | ⟨-, hp⟩
    rotate_left 1
  rcases ite_eq_cases hp with ⟨scn, hp⟩ | ⟨-, hp⟩
  · rcases ite_eq_cases hp with ⟨hbit, hp⟩ | ⟨-, hp⟩
    · obtain rfl := Option.some.inj hp
      have group : (n - 160) / 16 < SCN_EVT_STATUS.ent.n1 := by simp only [SCN_EVT_STATUS.ent]; omega
      exact ⟨⟨⟨SCN_EVT_STATUS.ent, _, _⟩, by simp [eventRegs], rfl, rfl, group⟩, hbit, by omega⟩
    · exact absurd hp (by simp)
  iterate 13
    rcases ite_eq_cases hp with ⟨hn, hp⟩ | ⟨-, hp⟩
    rotate_left 1
  · exact absurd hp (by simp)
  all_goals
    obtain rfl := Option.some.inj hp
    refine ⟨by dsimp only; decide, ?_, by omega⟩
    simp only [GLB_EVT_STATUS.status, KIN_EVT_STATUS.status, ING_EVT_STATUS.status, RAY_EVT_STATUS.status, CMP_EVT_STATUS.status,
      TLK_EVT_STATUS.status, TCT_EVT_STATUS.status, FSC_EVT_STATUS.status, MEM_EVT_STATUS.status, ARB_EVT_STATUS.status,
      CDC_EVT_STATUS.status, TWD_EVT_STATUS.status, STK_EVT_STATUS.status, NET_EVT_STATUS.status, NET_Q_EVT_STATUS.status,
      SEC_EVT_STATUS.status, EVR_EVT_STATUS.status, KLN_EVT_STATUS.status]
    omega

/-- Every field of the register is the status field, cleared where 1 is written. -/
theorem eventRegs_shape : ∀ x ∈ eventRegs, x.ent.StoresOnly ∧ x.ent.placed = true ∧
    x.ent.fields.map (fun f => (f.f, f.acc)) = [(x.st, .w1c)] ∧ x.ent.addr = x.st.addr ∧ x.st.lo = 0 := by decide

/-- Each entry's address names the register. -/
theorem eventRegs_regAt : ∀ x ∈ eventRegs, ∀ i < x.ent.n1, regAt (x.st.addr + i * x.st.s1) = some (x.ent, i, 0) := by decide

/-- A status cell is neither the recorder's, nor its own enable, nor one that routes an event. -/
theorem eventRegs_apart : ∀ x ∈ eventRegs, ∀ i < x.ent.n1,
    x.st.key i 0 ∉ recorderCells ∧ x.en.key i 0 ≠ x.st.key i 0 ∧ x.st.key i 0 ≠ SEC_WORLD.secure.key 0 0 ∧
    x.st.key i 0 ≠ NET_EVT_TB.tb.key 0 0 ∧ (x.st.key i 0 < GLB_EVT_ROUTE.ent.addr * 32 ∨ GLB_EVT_ROUTE.ent.at_ 4096 0 * 32 ≤ x.st.key i 0) := by
  decide


/-- The status register of event n: what its address names, that a write only stores, and its one W1C field. -/
theorem eventStatus_register {n : Nat} {p : EvPos} (hp : evPos n = some p) :
    ∃ e m, regAt (p.st.addr + p.inst * p.st.s1) = some (e, p.inst, 0) ∧ e.StoresOnly ∧ e.placed = true ∧ e.addr = p.st.addr ∧
      e.fields = [⟨p.st, .w1c, m⟩] ∧ p.st.lo = 0 := by
  obtain ⟨⟨x, hx, hst, -, hinst⟩, -, -⟩ := eventReg_of_evPos hp
  obtain ⟨stores, placed, fields, addr, lo⟩ := eventRegs_shape x hx
  have reg := eventRegs_regAt x hx p.inst hinst
  obtain ⟨⟨st, acc, m⟩, hf, hsa⟩ := List.map_eq_singleton_iff.mp fields
  obtain ⟨rfl, rfl⟩ := Prod.mk.inj hsa
  exact ⟨x.ent, m, hst ▸ reg, stores, placed, hst ▸ addr, hst ▸ hf, hst ▸ lo⟩

/-- Event n's status cell stands apart from the recorder's cells, the event's enable and its routing. -/
theorem eventStatus_apart {n : Nat} {p : EvPos} (hp : evPos n = some p) :
    p.st.key p.inst 0 ∉ recorderCells ∧ p.en.key p.inst 0 ≠ p.st.key p.inst 0 ∧ p.st.key p.inst 0 ∉ routeCells n := by
  obtain ⟨⟨x, hx, hst, hen, hinst⟩, -, hn⟩ := eventReg_of_evPos hp
  obtain ⟨rec, en, world, eventBase, route⟩ := eventRegs_apart x hx p.inst hinst
  obtain ⟨-, -, -, -, lo⟩ := eventRegs_shape x hx
  rw [hst] at rec en world eventBase route lo
  rw [hen] at en
  refine ⟨rec, en, ?_⟩
  have low : p.st.key p.inst 0 % 32 = 0 := by rw [Fld.key, lo]; omega
  simp only [routeCells, List.mem_cons, List.not_mem_nil, or_false, not_or]
  refine ⟨?_, ?_, ?_, world, ?_, eventBase⟩
  all_goals
    simp only [GLB_EVT_ROUTE.ent, RegEnt.at_] at route
    simp only [Fld.key, GLB_EVT_ROUTE.target, GLB_EVT_ROUTE.dest, GLB_EVT_ROUTE.secure, SCN_CFG.time_base] at low route ⊢
    omega

theorem Dev.raiseIn_nil (d : Dev) (a : Nat) : d.raiseIn a [] = d := by
  unfold Dev.raiseIn
  split <;> rfl

/-- An event listed with the register that shows it occurs. -/
theorem Dev.raiseIn_singleton (d : Dev) {n : Nat} {p : EvPos} (hp : evPos n = some p) {a j : Nat} {e : RegEnt}
    (hreg : regAt a = some (e, p.inst, j)) (addr : e.addr = p.st.addr) : d.raiseIn a [n] = d.raise n := by
  simp [Dev.raiseIn, hreg, forEach, eventIn, hp, addr]

/-! ### Clearing status bits (R7, R40) -/

/-- A secure writer's write of an event status register, let through: it clears the bits written with 1 and nothing else. -/
theorem writeNow_eventStatus {n : Nat} {p : EvPos} {e : RegEnt} (hp : evPos n = some p) (who : Initiator) (v : Nat) (s : State)
    (hreg : regAt (p.st.addr + p.inst * p.st.s1) = some (e, p.inst, 0))
    (lets : Lets (settled who (p.st.addr + p.inst * p.st.s1) s) who e p.inst 0)
    (secure : (settled who (p.st.addr + p.inst * p.st.s1) s).dev.secureOf who = true) :
    let u := settled who (p.st.addr + p.inst * p.st.s1) s
    let w := writeNow who (p.st.addr + p.inst * p.st.s1) v s
    OnlyCells u w [p.st.key p.inst 0] ∧
      ∀ k < p.st.w, w.dev.rdBit p.st k p.inst = (u.dev.rdBit p.st k p.inst && !v.testBit k) := by
  intro u w
  obtain ⟨e', m, hreg', stores, placed, -, fields, lo⟩ := eventStatus_register hp
  obtain ⟨rfl, -⟩ := Prod.mk.inj (Option.some.inj (hreg.symm.trans hreg'))
  have written : w = onDev u (fun d => d.store who e p.inst 0 (v % 2 ^ 32)) := writeNow_eq_store hreg stores who v s lets
  have keys : e.fields.map (fun f => f.f.key p.inst 0) = [p.st.key p.inst 0] := by rw [fields]; rfl
  rw [written, ← keys]
  refine ⟨store_onlyCells u who e p.inst 0 _, fun k hk => ?_⟩
  have bit := Dev.rdBit_store u.dev who e p.inst 0 v placed (f := ⟨p.st, .w1c, m⟩) (by simp [fields]) hk
  simpa [u, secure, lo, Acc.bitAfter] using bit

/-- After a change of event n's status cell alone, raising the event reaches that cell and what raising any event may reach. -/
theorem RaisedOnly.of_onlyCells {u w : State} {n : Nat} {p : EvPos} (hp : evPos n = some p)
    (h : OnlyCells u w [p.st.key p.inst 0]) : RaisedOnly u (onDev w (fun d => d.raise n)) [p.st.key p.inst 0] := by
  obtain ⟨rest, cells⟩ := h
  obtain ⟨raised, others⟩ := Dev.raise_frame w.dev n false
  have cell : evKey n = p.st.key p.inst 0 := by simp only [evKey, hp]
  refine ⟨?_, fun k hk block => ?_⟩
  · have dev : w.dev = { u.dev with regs := w.dev.regs } := congrArg State.dev rest
    rw [onDev, raised, rest, dev]
  · rw [onDev_dev, others k (cell ▸ List.ne_of_not_mem_cons hk) block, cells k hk]

/-- The message of event n where a change of its status cell alone has left its bit 0, it is enabled and goes out as MSI-X (R36, R38). -/
theorem Dev.raise_out_of_msix {u w : State} {n : Nat} {p : EvPos} (hp : evPos n = some p) (h : OnlyCells u w [p.st.key p.inst 0])
    (was : w.dev.rdBit p.st p.bit p.inst = false) (enabled : u.dev.rdBit p.en p.bit p.inst = true)
    (target : u.dev.rd GLB_EVT_ROUTE.target n = 2) (world : u.dev.eventSecure n = false) :
    (w.dev.raise n).out = .msix (u.dev.rd GLB_EVT_ROUTE.dest n) n (u.dev.stampOf n) :: u.dev.out := by
  obtain ⟨rest, cells⟩ := h
  obtain ⟨-, en, route⟩ := eventStatus_apart hp
  have dev : w.dev = { u.dev with regs := w.dev.regs } := congrArg State.dev rest
  have stays {k : Nat} (hk : k ≠ p.st.key p.inst 0) : tfind w.dev.regs k = tfind u.dev.regs k := cells k (by simpa using hk)
  have net : (w.dev.wrBit p.st p.bit true p.inst).net = u.dev.net := by rw [Dev.wrBit_net, dev]
  have out : (w.dev.wrBit p.st p.bit true p.inst).out = u.dev.out := by rw [Dev.wrBit_out, dev]
  obtain ⟨target', dest', world', stamp'⟩ := Dev.route_congr (n := n) net (fun k hk => by
    have hne : k ≠ p.st.key p.inst 0 := fun h => route (h ▸ hk)
    rw [Dev.wrBit_cells _ _ _ _ _ _ _ hne, stays hne])
  rw [Dev.raise, Dev.raiseAt_out _ hp was (by rw [Dev.rdBit_congr _ (stays en), enabled]),
    Dev.message_out_of_msix (target'.trans target) (world'.trans world), dest', stamp', out]

/-- Settles O15: the write clears the status cell's bits, and the coinciding event, raised after it, sets its own bit again. -/
theorem statusClearAgainstSet : Obligations.StatusClearAgainstSet := by
  unfold Obligations.StatusClearAgainstSet
  intro who n v p e s hp a u hreg lets secure
  obtain ⟨only, bits⟩ := writeNow_eventStatus hp who v s hreg lets secure
  obtain ⟨-, bitInField, -⟩ := eventReg_of_evPos hp
  obtain ⟨notRecorder, -, -⟩ := eventStatus_apart hp
  obtain ⟨e', -, hreg', -, -, addr, -, -⟩ := eventStatus_register hp
  obtain ⟨rfl, -⟩ := Prod.mk.inj (Option.some.inj (hreg.symm.trans hreg'))
  constructor
  · refine ⟨_, exec_eventStatusClear who a v [] s, ?_⟩
    simp only [Dev.raiseIn_nil]
    exact ⟨only, bits⟩
  · refine ⟨_, exec_eventStatusClear who a v [n] s, ?_⟩
    simp only [Dev.raiseIn_singleton _ hp hreg addr]
    have after {k : Nat} (hk : k < p.st.w) := Dev.rdBit_raiseAt (writeNow who a v s).dev hp notRecorder (evInstance n) false hk
    refine ⟨RaisedOnly.of_onlyCells hp only, ?_, fun _ k hk hne => ?_, fun enabled cleared target world => ?_⟩
    · rw [onDev_dev, Dev.raise, after bitInField, decide_eq_true rfl, Bool.or_true]
    · rw [onDev_dev, Dev.raise, after hk, bits k hk, decide_eq_false (Ne.symm hne), Bool.or_false]
    · have was : (writeNow who a v s).dev.rdBit p.st p.bit p.inst = false := by
        rw [bits _ bitInField]
        rcases cleared with h | h <;> simp [u, a, h]
      exact Dev.raise_out_of_msix hp only was enabled target world

end Sys2Proof.Machine
end

section
/-!
Blocked accesses: what their record changes and shows, and statement O10.
-/
namespace Sys2Proof.Machine

/-! ### The record of a blocked access (R503) -/

/-- The cells of SEC_BLOCK_ADDR, SEC_BLOCK_INFO, SEC_BLOCK_CNT and the status of the block's events. -/
def blockRecordCells : List Nat :=
  [SEC_BLOCK_ADDR.addr.key 0 0, SEC_BLOCK_INFO.initiator.key 0 0, SEC_BLOCK_INFO.write.key 0 0, SEC_BLOCK_CNT.sat.key 0 0,
   SEC_BLOCK_CNT.count.key 0 0, SEC_EVT_STATUS.status.key 0 0]

/-- SEC_BLOCKED is bit 0 of the status register of SEC. -/
theorem evPos_secBlocked : evPos 512 = some ⟨SEC_EVT_STATUS.status, SEC_EVT_ENABLE.enable, 0, 0⟩ := rfl

/-- The record as it stands before SEC_BLOCKED is raised: address, initiator and direction are those of the access. -/
def Dev.blockRecord (d : Dev) (who : Initiator) (a : Nat) (write : Bool) : Dev :=
  ((d.wr SEC_BLOCK_ADDR.addr a).wr SEC_BLOCK_INFO.initiator (initCode who)).wrb SEC_BLOCK_INFO.write write

theorem Dev.secBlocked_eq_raiseAt (d : Dev) (who : Initiator) (a : Nat) (write : Bool) :
    d.secBlocked who a write =
      ((d.blockRecord who a write).count SEC_BLOCK_CNT.sat SEC_BLOCK_CNT.count).raiseAt 512 (initCode who) true := rfl

theorem Dev.blockRecord_rd (d : Dev) (who : Initiator) (a : Nat) (write : Bool) :
    (d.blockRecord who a write).rd SEC_BLOCK_ADDR.addr = a % 2 ^ 32 ∧
    (d.blockRecord who a write).rd SEC_BLOCK_INFO.initiator = initCode who % 2 ^ 8 ∧
    (d.blockRecord who a write).rd SEC_BLOCK_INFO.write = b2n write := by
  have addr_initiator : SEC_BLOCK_ADDR.addr.key 0 0 ≠ SEC_BLOCK_INFO.initiator.key 0 0 := by decide
  have addr_write : SEC_BLOCK_ADDR.addr.key 0 0 ≠ SEC_BLOCK_INFO.write.key 0 0 := by decide
  have initiator_write : SEC_BLOCK_INFO.initiator.key 0 0 ≠ SEC_BLOCK_INFO.write.key 0 0 := by decide
  refine ⟨?_, ?_, ?_⟩
  · rw [Dev.blockRecord, Dev.wrb, Dev.rd_wr_ne _ _ addr_write, Dev.rd_wr_ne _ _ addr_initiator, Dev.rd_wr_same]; rfl
  · rw [Dev.blockRecord, Dev.wrb, Dev.rd_wr_ne _ _ initiator_write, Dev.rd_wr_same]; rfl
  · rw [Dev.blockRecord, Dev.wrb, Dev.rd_wr_same]; cases write <;> rfl

theorem Dev.blockRecord_cells (d : Dev) (who : Initiator) (a : Nat) (write : Bool) {k : Nat} (h : k ∉ blockRecordCells) :
    tfind (d.blockRecord who a write).regs k = tfind d.regs k := by
  simp only [blockRecordCells, List.mem_cons, not_or] at h
  obtain ⟨addr, initiator, direction, -⟩ := h
  rw [Dev.blockRecord, Dev.wrb_cells _ _ _ _ _ _ direction, Dev.wr_cells _ _ _ _ _ _ initiator, Dev.wr_cells _ _ _ _ _ _ addr]

/-- Reporting a blocked access changes the record, and what raising an event may reach. -/
theorem Dev.secBlocked_frame (d : Dev) (who : Initiator) (a : Nat) (write : Bool) :
    d.secBlocked who a write = { d with
      regs := (d.secBlocked who a write).regs, out := (d.secBlocked who a write).out, evr := (d.secBlocked who a write).evr,
      stk := (d.secBlocked who a write).stk } ∧
    ∀ k, k ∉ blockRecordCells → blockOf (k / 32) ≠ 15 → tfind (d.secBlocked who a write).regs k = tfind d.regs k := by
  obtain ⟨counted, countCells⟩ := Dev.count_frame (d.blockRecord who a write) SEC_BLOCK_CNT.sat SEC_BLOCK_CNT.count 1 0 0
  obtain ⟨raised, raisedCells⟩ := Dev.raiseAt_frame ((d.blockRecord who a write).count SEC_BLOCK_CNT.sat SEC_BLOCK_CNT.count)
    512 (initCode who) true
  rw [Dev.secBlocked_eq_raiseAt]
  refine ⟨?_, fun k hk block => ?_⟩
  · rw [raised, counted]; rfl
  · have record := Dev.blockRecord_cells d who a write hk
    simp only [blockRecordCells, List.mem_cons, not_or] at hk
    obtain ⟨-, -, -, sat, count, status, -⟩ := hk
    rw [raisedCells k status block, countCells k sat count, record]

/-- Counting and raising SEC_BLOCKED leave the address, the initiator and the direction of the record. -/
theorem Dev.secBlocked_rd (d : Dev) (who : Initiator) (a : Nat) (write : Bool) :
    (d.secBlocked who a write).eventSet 512 = true ∧ (d.secBlocked who a write).rd SEC_BLOCK_ADDR.addr = a % 2 ^ 32 ∧
    (d.secBlocked who a write).rd SEC_BLOCK_INFO.initiator = initCode who % 2 ^ 8 ∧
    (d.secBlocked who a write).rd SEC_BLOCK_INFO.write = b2n write := by
  obtain ⟨addr, initiator, direction⟩ := Dev.blockRecord_rd d who a write
  have stays (f : Fld) (h : f.key 0 0 ∉ [SEC_BLOCK_CNT.sat.key 0 0, SEC_BLOCK_CNT.count.key 0 0, evKey 512])
      (block : blockOf (f.key 0 0 / 32) ≠ 15) : (d.secBlocked who a write).rd f = (d.blockRecord who a write).rd f := by
    simp only [List.mem_cons, not_or] at h
    obtain ⟨sat, count, status, -⟩ := h
    refine Dev.rd_congr ?_
    rw [Dev.secBlocked_eq_raiseAt, (Dev.raiseAt_frame _ 512 (initCode who) true).2 _ status block,
      (Dev.count_frame _ _ _ 1 0 0).2 _ sat count]
  refine ⟨?_, (stays _ (by decide) (by decide)).trans addr, (stays _ (by decide) (by decide)).trans initiator,
    (stays _ (by decide) (by decide)).trans direction⟩
  simp only [Dev.eventSet, evPos_secBlocked]
  rw [Dev.secBlocked_eq_raiseAt, Dev.rdBit_raiseAt _ evPos_secBlocked (by decide) _ _ (by decide)]
  exact Bool.or_true _

theorem onDev_secBlocked_raisedOnly (s : State) (who : Initiator) (a : Nat) (write : Bool) :
    RaisedOnly s (onDev s (fun d => d.secBlocked who a write)) blockRecordCells := by
  obtain ⟨rest, cells⟩ := Dev.secBlocked_frame s.dev who a write
  exact ⟨by rw [onDev, ← rest], cells⟩

theorem RaisedOnly.emit {s t : State} {keys : List Nat} (h : RaisedOnly s t keys) (o : Out) :
    RaisedOnly s (onDev t (fun d => d.emit o)) keys := by
  obtain ⟨rest, cells⟩ := h
  exact ⟨congrArg (fun t => onDev t (fun d => d.emit o)) rest, cells⟩

/-! ### Blocked writes and reads -/

/-- A read that the fabric blocks is reported and answered with 0x0BADF00D (R8). -/
theorem readOut_blocked {a i j : Nat} {e : RegEnt} (hreg : regAt a = some (e, i, j)) (who : Initiator) (s : State)
    (h : (settled who a s).dev.writeCase who e i j = .blocked) :
    readOut who a s = onDev (settled who a s) (fun d => (d.secBlocked who a false).emit (.readData (initCode who) a 0x0BADF00D)) := by
  simp only [readOut, controlRead, hreg, Dev.accessRead_blocked _ _ h, at_of_regAt hreg]
  rfl

theorem writeNow_blocked {a i j : Nat} {e : RegEnt} (hreg : regAt a = some (e, i, j)) (who : Initiator) (v : Nat) (s : State)
    (h : (beforeWrite who a s).dev.writeCase who e i j = .blocked) :
    writeNow who a v s = onDev (beforeWrite who a s) (fun d => d.secBlocked who a true) := by
  rw [writeNow_eq_gateS hreg who v s (.inr (by rw [h]; decide)), gateS_blocked _ h, at_of_regAt hreg]

/-- Settles O10: a blocked write or read does no more than report the access. -/
theorem blockedAccess : Obligations.BlockedAccess := by
  unfold Obligations.BlockedAccess
  intro who a v e i j s hreg b u keys
  constructor
  · intro blocked
    obtain ⟨event, addr, initiator, direction⟩ := Dev.secBlocked_rd b.dev who a true
    refine ⟨_, exec_registerWrite who a v s, ?_⟩
    rw [writeNow_blocked hreg who v s blocked]
    exact ⟨onDev_secBlocked_raisedOnly b who a true, event, addr, initiator, direction⟩
  · intro blocked
    obtain ⟨event, addr, initiator, direction⟩ := Dev.secBlocked_rd u.dev who a false
    refine ⟨_, exec_registerRead who a s, ?_⟩
    rw [readOut_blocked hreg who s blocked]
    exact ⟨(onDev_secBlocked_raisedOnly u who a false).emit _, event, addr, initiator, direction, rfl⟩

end Sys2Proof.Machine
end

section
/-!
The kindling loader: its events, the slot journal, and what reaches no register but the loader's own.
-/
namespace Sys2Proof.Machine

/-! ### What raising an event and counting leave -/

@[simp] theorem Dev.raise_img (d : Dev) (n : Nat) (force : Bool) : (d.raise n force).img = d.img := by rw [(Dev.raise_frame d n force).1]
@[simp] theorem Dev.raise_kin (d : Dev) (n : Nat) (force : Bool) : (d.raise n force).kin = d.kin := by rw [(Dev.raise_frame d n force).1]
@[simp] theorem Dev.count_img (d : Dev) (sat cnt : Fld) : (d.count sat cnt).img = d.img := by rw [(Dev.count_frame d sat cnt 1 0 0).1]
@[simp] theorem Dev.count_kin (d : Dev) (sat cnt : Fld) : (d.count sat cnt).kin = d.kin := by rw [(Dev.count_frame d sat cnt 1 0 0).1]

/-- The loader's events, 32 to 39, are the bits of KIN_EVT_STATUS (R97). -/
theorem evPos_loader {n : Nat} (h : 32 ≤ n ∧ n < 40) : evPos n = some ⟨KIN_EVT_STATUS.status, KIN_EVT_ENABLE.enable, 0, n - 32⟩ := by
  have notGlb : ¬ n < 5 := by omega
  simp [evPos, notGlb, h]

theorem evKey_loader {n : Nat} (h : 32 ≤ n ∧ n < 40) : evKey n = KIN_EVT_STATUS.status.key 0 0 := by
  simp only [evKey, evPos_loader h]

theorem Dev.eventSet_loader (d : Dev) {n : Nat} (h : 32 ≤ n ∧ n < 40) : d.eventSet n = d.rdBit KIN_EVT_STATUS.status (n - 32) := by
  simp only [Dev.eventSet, evPos_loader h]

/-- A loader event sets its own bit of the block's status and keeps the others (R38). -/
theorem Dev.eventSet_raise_loader (d : Dev) {m n : Nat} (hm : 32 ≤ m ∧ m < 40) (hn : 32 ≤ n ∧ n < 40) :
    (d.raise n).eventSet m = (d.eventSet m || decide (n = m)) := by
  have inField : m - 32 < KIN_EVT_STATUS.status.w := by simp only [KIN_EVT_STATUS.status]; omega
  have apart := (eventStatus_apart (evPos_loader hn)).1
  have bit := Dev.rdBit_raiseAt d (evPos_loader hn) apart (evInstance n) false inField
  have same : n - 32 = m - 32 ↔ n = m := by omega
  rw [Dev.eventSet_loader _ hm, Dev.eventSet_loader _ hm, Dev.raise]
  simpa only [same] using bit

theorem Dev.eventSet_raise_self (d : Dev) {n : Nat} (h : 32 ≤ n ∧ n < 40) : (d.raise n).eventSet n = true := by
  rw [Dev.eventSet_raise_loader d h h, decide_eq_true rfl, Bool.or_true]

/-- The status of a loader event whose cell stays. -/
theorem Dev.eventSet_loader_congr {d d' : Dev} {n : Nat} (h : 32 ≤ n ∧ n < 40)
    (cell : tfind d'.regs (KIN_EVT_STATUS.status.key 0 0) = tfind d.regs (KIN_EVT_STATUS.status.key 0 0)) :
    d'.eventSet n = d.eventSet n := by
  rw [Dev.eventSet_loader _ h, Dev.eventSet_loader _ h, Dev.rdBit_congr _ cell]

theorem Dev.raise_loader_cells (d : Dev) {n k : Nat} (h : 32 ≤ n ∧ n < 40) (status : k ≠ KIN_EVT_STATUS.status.key 0 0)
    (block : blockOf (k / 32) ≠ 15) : tfind (d.raise n).regs k = tfind d.regs k :=
  (Dev.raise_frame d n false).2 k (evKey_loader h ▸ status) block

/-- A field of the loader other than the status of its events reads as before one of them. -/
theorem Dev.rd_raise_loader (d : Dev) {n : Nat} (h : 32 ≤ n ∧ n < 40) {f : Fld} (status : f.key 0 0 ≠ KIN_EVT_STATUS.status.key 0 0)
    (block : blockOf (f.key 0 0 / 32) ≠ 15) : (d.raise n).rd f = d.rd f :=
  Dev.rd_congr (Dev.raise_loader_cells d h status block)

theorem Dev.rd_count_ne (d : Dev) {sat cnt f : Fld} (hs : f.key 0 0 ≠ sat.key 0 0) (hc : f.key 0 0 ≠ cnt.key 0 0) :
    (d.count sat cnt).rd f = d.rd f :=
  Dev.rd_congr ((Dev.count_frame d sat cnt 1 0 0).2 _ hs hc)

/-- A counter's value after one more occurrence (R43). -/
theorem Dev.rd_count (d : Dev) {sat cnt : Fld} (apart : cnt.key 0 0 ≠ sat.key 0 0) :
    (d.count sat cnt).rd cnt = if d.rd sat ≠ 0 then d.rd cnt else min (d.rd cnt + 1) 0x7FFFFFFF % 2 ^ cnt.w := by
  simp only [Dev.count, Dev.rdb_eq, bne_iff_ne, Nat.one_ne_zero, false_or]
  split
  · rfl
  · split
    · rw [Dev.rd_wr_same, Nat.min_eq_left (by omega)]
    · rw [Dev.rd_wr_ne _ _ apart, Dev.rd_wr_same, Nat.min_eq_right (by omega)]

theorem Dev.rd_count_congr {d d' : Dev} {sat cnt : Fld} (apart : cnt.key 0 0 ≠ sat.key 0 0) (regs : d'.regs = d.regs) :
    (d'.count sat cnt).rd cnt = (d.count sat cnt).rd cnt := by
  have same (f : Fld) : d'.rd f = d.rd f := by rw [Dev.rd, Dev.rd, regs]
  rw [Dev.rd_count _ apart, Dev.rd_count _ apart, same, same]

/-! ### The slot journal (R64 to R66) -/

theorem Dev.slotReg_frame (d : Dev) (slot : Nat) :
    d.slotReg slot = { d with regs := (d.slotReg slot).regs } ∧
    ∀ k, k ≠ KIN_SLOT.generation.key slot 0 → k ≠ KIN_SLOT.trials.key slot 0 → k ≠ KIN_SLOT.state.key slot 0 →
      tfind (d.slotReg slot).regs k = tfind d.regs k := by
  unfold Dev.slotReg
  split
  · exact ⟨rfl, fun _ _ _ _ => rfl⟩
  · exact ⟨rfl, fun k gen trials state => by
      rw [Dev.wr_cells _ _ _ _ _ _ state, Dev.wr_cells _ _ _ _ _ _ trials, Dev.wr_cells _ _ _ _ _ _ gen]⟩

/-- The entry that the journal of d takes next. -/
def Dev.nextEntry (d : Dev) (kind slot state trials imageId rollback : Nat) : JEntry :=
  { gen := nextGen d.peat.journal, kind := kind, slot := slot, imageId := imageId, rollback := rollback, state := state,
    trials := trials, intact := true }

theorem Dev.journal_frame (d : Dev) (kind slot state trials imageId rollback : Nat) :
    d.journal kind slot state trials imageId rollback = { d with
      regs := (d.journal kind slot state trials imageId rollback).regs,
      peat := { d.peat with journal := d.peat.journal ++ [d.nextEntry kind slot state trials imageId rollback] } } ∧
    ∀ k, k ≠ KIN_SLOT.generation.key slot 0 → k ≠ KIN_SLOT.trials.key slot 0 → k ≠ KIN_SLOT.state.key slot 0 →
      tfind (d.journal kind slot state trials imageId rollback).regs k = tfind d.regs k := by
  obtain ⟨rest, cells⟩ := Dev.slotReg_frame
    { d with peat := { d.peat with journal := d.peat.journal ++ [d.nextEntry kind slot state trials imageId rollback] } } slot
  exact ⟨rest, cells⟩

theorem latestState_append (j : List JEntry) (e : JEntry) (slot : Nat) :
    latestState (j ++ [e]) slot = if e.intact && e.kind == 0 && e.slot == slot then some e else latestState j slot := by
  simp only [latestState, List.foldl_append, List.foldl_cons, List.foldl_nil]

theorem Dev.latestState_journal (d : Dev) (slot state trials imageId rollback slot' : Nat) :
    latestState (d.journal 0 slot state trials imageId rollback).peat.journal slot' =
      if slot = slot' then some (d.nextEntry 0 slot state trials imageId rollback) else latestState d.peat.journal slot' := by
  rw [(Dev.journal_frame d 0 slot state trials imageId rollback).1, latestState_append]
  simp [Dev.nextEntry]

/-- A STATE entry gives its slot its state, and leaves the other slots theirs. -/
theorem Dev.slotState_journal (d : Dev) (slot state trials imageId rollback slot' : Nat) :
    (d.journal 0 slot state trials imageId rollback).slotState slot' = if slot = slot' then state else d.slotState slot' := by
  rw [Dev.slotState, Dev.latestState_journal]
  split <;> rfl

/-- KIN_SLOT shows the state of the slot's new STATE entry. -/
theorem Dev.rd_slotState_journal (d : Dev) (slot state trials imageId rollback : Nat) :
    (d.journal 0 slot state trials imageId rollback).rd KIN_SLOT.state slot = state % 4 := by
  have latest := Dev.latestState_journal d slot state trials imageId rollback slot
  rw [if_pos rfl, (Dev.journal_frame d 0 slot state trials imageId rollback).1] at latest
  have shows : d.journal 0 slot state trials imageId rollback = Dev.slotReg
      { d with peat := { d.peat with journal := d.peat.journal ++ [d.nextEntry 0 slot state trials imageId rollback] } } slot := rfl
  rw [shows, Dev.slotReg, latest]
  exact Dev.rd_wr_same _ _ _ _ _

/-- A STATE entry keeps the identity of the slot's latest one, of whatever it is. -/
theorem Dev.journalState_eq (d : Dev) (slot state trials : Nat) :
    ∃ imageId rollback, d.journalState slot state trials = d.journal 0 slot state trials imageId rollback := by
  unfold Dev.journalState
  split
  · exact ⟨_, _, rfl⟩
  · exact ⟨0, 0, rfl⟩

end Sys2Proof.Machine
end

section
/-!
Live patches and flash writes (02_kindling_image.md): statement O60.
-/
namespace Sys2Proof.Machine

/-! ### Sections for the whole device (R392) -/

/-- The update reads and writes register cells alone. -/
def OnRegs (f : Dev → Dev) : Prop := ∃ g : RegFile → RegFile, ∀ d : Dev, f d = { d with regs := g d.regs }

theorem OnRegs.wr (f : Fld) (v i j : Nat) : OnRegs (fun d => d.wr f v i j) := ⟨fun r => rset r f v i j, fun _ => rfl⟩

theorem OnRegs.comp {f g : Dev → Dev} (hg : OnRegs g) (hf : OnRegs f) : OnRegs (fun d => g (f d)) := by
  obtain ⟨a, ha⟩ := hf
  obtain ⟨b, hb⟩ := hg
  exact ⟨fun r => b (a r), fun d => by simp only [ha, hb]⟩

theorem OnRegs.foldl {α : Type} {f : Dev → α → Dev} (h : ∀ x, OnRegs (fun d => f d x)) (l : List α) :
    OnRegs (fun d => l.foldl f d) := by
  induction l with
  | nil => exact ⟨id, fun _ => rfl⟩
  | cons x l ih => exact OnRegs.comp ih (h x)

/-- What the update leaves in the registers depends on them alone. -/
theorem OnRegs.regs_congr {f : Dev → Dev} (h : OnRegs f) {d d' : Dev} (same : d'.regs = d.regs) : (f d').regs = (f d).regs := by
  obtain ⟨g, hg⟩ := h
  rw [hg, hg, same]

theorem arbiterRegs_onRegs (l : List ArbCfg) : OnRegs (fun d => d.arbiterRegs l) := by
  unfold Dev.arbiterRegs
  refine OnRegs.foldl (fun p => ?_) l.zipIdx
  refine OnRegs.comp (g := fun d => p.1.reqs.zipIdx.foldl _ d) (OnRegs.foldl (fun q => ?_) _)
    (OnRegs.comp (OnRegs.wr _ _ _ _) (OnRegs.wr _ _ _ _))
  exact OnRegs.comp (OnRegs.wr _ _ _ _) (OnRegs.comp (OnRegs.wr _ _ _ _) (OnRegs.comp (OnRegs.wr _ _ _ _) (OnRegs.wr _ _ _ _)))

/-- The registers once the ARBITER sections among these have come into force, in order. -/
def Dev.arbitersTaken (d : Dev) (l : List ImgSection) : Dev :=
  (l.filter (fun x => x.id == 0x0C)).foldl (fun d x => d.arbiterRegs (Config.arbiterSection x.body)) d

theorem arbitersTaken_onRegs (l : List ImgSection) : OnRegs (fun d => d.arbitersTaken l) :=
  OnRegs.foldl (fun _ => arbiterRegs_onRegs _) _

theorem Dev.takeWide_eq (d : Dev) (x : ImgSection) :
    d.takeWide x = { d with img := d.img.putWhole { x with scope := none }, regs := (d.arbitersTaken [x]).regs } := by
  unfold Dev.takeWide Dev.arbitersTaken
  by_cases h : x.id = 0x0C
  · have arbiter : [x].filter (fun x => x.id == 0x0C) = [x] := by simp [h]
    obtain ⟨g, regs⟩ := arbiterRegs_onRegs (Config.arbiterSection x.body)
    rw [if_pos h, arbiter]
    simp only [List.foldl_cons, List.foldl_nil, regs]
  · have other : [x].filter (fun x => x.id == 0x0C) = [] := by simp [h]
    rw [if_neg h, other]
    rfl

/-- Sections for the whole device change the image and, where they are ARBITER's, its registers. -/
theorem forEach_takeWide (l : List ImgSection) (d : Dev) :
    forEach l (fun x d => d.takeWide x) d =
      { d with img := l.foldl (fun m x => m.putWhole { x with scope := none }) d.img, regs := (d.arbitersTaken l).regs } := by
  induction l generalizing d with
  | nil => rfl
  | cons x l ih =>
    have step : forEach (x :: l) (fun x d => d.takeWide x) d = forEach l (fun x d => d.takeWide x) (d.takeWide x) := rfl
    rw [step, ih]
    have first := Dev.takeWide_eq d x
    have regs : ((d.takeWide x).arbitersTaken l).regs = (d.arbitersTaken (x :: l)).regs := by
      have split : d.arbitersTaken (x :: l) = (d.arbitersTaken [x]).arbitersTaken l := by
        rw [Dev.arbitersTaken, Dev.arbitersTaken, Dev.arbitersTaken, ← List.foldl_append, ← List.filter_append, List.singleton_append]
      rw [split]
      exact (arbitersTaken_onRegs l).regs_congr (by rw [first])
    rw [regs, first, List.foldl_cons]

/-! ### Staging (R77, R80) -/

/-- The patch's sections that take effect at once. -/
def Dev.wideNow (d : Dev) (secs : List ImgSection) : List ImgSection := secs.filter (fun x => deviceWide x.id && d.lowestStarted.isNone)

/-- The patch as it is staged: its other sections, and the wall groups at whose frames they take effect. -/
def Dev.stagedAs (d : Dev) (seq : Nat) (secs : List ImgSection) : Staged :=
  let rest := secs.filter (fun x => ! (deviceWide x.id && d.lowestStarted.isNone))
  ⟨d.kin.nextPatch, seq, rest, d.patchGroups d.lowestStarted rest, d.lowestStarted⟩

/-- The device once the sections that take effect at once have. -/
def Dev.wideTaken (d : Dev) (secs : List ImgSection) : Dev :=
  { d with kin := { d.kin with nextPatch := d.kin.nextPatch + 1 },
           img := (d.wideNow secs).foldl (fun m x => m.putWhole { x with scope := none }) d.img,
           regs := (d.arbitersTaken (d.wideNow secs)).regs }

/-- The staged patches that stay when p is staged: those with the number of none that p supersedes. -/
def Dev.stagedLeft (d : Dev) (p : Staged) : List Staged :=
  d.kin.staged.filter (fun q => ! d.kin.staged.any (fun x => d.clashes p x && x.num == q.num))

theorem Dev.patchGroups_congr {d d' : Dev} (h : d'.img.geo = d.img.geo) (wide : Option Nat) (secs : List ImgSection) :
    d'.patchGroups wide secs = d.patchGroups wide secs := by
  have groups : d'.allGroups = d.allGroups := by simp only [Dev.allGroups, Image.group, h]
  simp only [Dev.patchGroups, groups]

theorem Dev.clashes_congr {d d' : Dev} (h : d'.img.geo = d.img.geo) (p q : Staged) : d'.clashes p q = d.clashes p q := by
  simp only [Dev.clashes, Dev.patchGroups_congr h]

theorem putWhole_geo (l : List ImgSection) (im : Image) :
    (l.foldl (fun m x => m.putWhole { x with scope := none }) im).geo = im.geo := by
  induction l generalizing im with
  | nil => rfl
  | cons x l ih => exact ih _

/-- The superseded patches leave one by one, each counted and raised. -/
def Dev.superseding (d : Dev) (l : List Staged) : Dev := forEach l (fun q d => d.supersede q) d

theorem Dev.stagePatch_eq (d : Dev) (seq : Nat) (secs : List ImgSection) :
    let p := d.stagedAs seq secs
    let d2 := (d.wideTaken secs).superseding (d.kin.staged.filter (fun q => d.clashes p q))
    d.stagePatch seq secs =
      if p.groups = 0 then d2.patchDone p else ({ d2 with kin := { d2.kin with staged := d2.kin.staged ++ [p] } } : Dev).liveRegs := by
  have taken : forEach (secs.filter (fun x => deviceWide x.id && d.lowestStarted.isNone)) (fun x d => d.takeWide x)
      { d with kin := { d.kin with nextPatch := d.kin.nextPatch + 1 } } = d.wideTaken secs := by
    have regs := (arbitersTaken_onRegs (d.wideNow secs)).regs_congr (d := d)
      (d' := { d with kin := { d.kin with nextPatch := d.kin.nextPatch + 1 } }) rfl
    rw [forEach_takeWide, Dev.wideTaken, ← regs]
    rfl
  have geo : (d.wideTaken secs).img.geo = d.img.geo := putWhole_geo _ _
  intro p d2
  unfold Dev.stagePatch
  simp only [taken, Dev.patchGroups_congr geo, Dev.clashes_congr geo]
  rfl

/-- A register cell that no change of the loader's and no recorder trigger reaches. -/
abbrev FarFromLoader (k : Nat) : Prop := blockOf (k / 32) ≠ 1 ∧ blockOf (k / 32) ≠ 15

theorem Dev.wr_far (d : Dev) {f : Fld} (v : Nat) (h : blockOf (f.key 0 0 / 32) = 1) {k : Nat} (far : FarFromLoader k) :
    tfind (d.wr f v).regs k = tfind d.regs k :=
  Dev.wr_cells _ _ _ _ _ _ (fun same => far.1 (same ▸ h))

theorem Dev.count_far (d : Dev) {sat cnt : Fld} (hs : blockOf (sat.key 0 0 / 32) = 1) (hc : blockOf (cnt.key 0 0 / 32) = 1) {k : Nat}
    (far : FarFromLoader k) : tfind (d.count sat cnt).regs k = tfind d.regs k :=
  (Dev.count_frame d sat cnt 1 0 0).2 k (fun same => far.1 (same ▸ hs)) (fun same => far.1 (same ▸ hc))

theorem Dev.raise_loader_far (d : Dev) {n : Nat} (h : 32 ≤ n ∧ n < 40) {k : Nat} (far : FarFromLoader k) :
    tfind (d.raise n).regs k = tfind d.regs k :=
  Dev.raise_loader_cells d h (fun same => far.1 (same ▸ by decide)) far.2

/-- One superseded patch leaves (R80): all that changes, but for what its event's message reaches. -/
theorem Dev.supersede_spec (d : Dev) (q : Staged) :
    (d.supersede q).img = d.img ∧ (d.supersede q).kin = { d.kin with staged := d.kin.staged.filter (fun x => x.num != q.num) } ∧
    (d.supersede q).eventSet 39 = true ∧ ∀ k, FarFromLoader k → tfind (d.supersede q).regs k = tfind d.regs k := by
  unfold Dev.supersede
  refine ⟨by simp, by simp, Dev.eventSet_raise_self _ (by decide), fun k far => ?_⟩
  rw [Dev.raise_loader_far _ (by decide) far, Dev.count_far _ (by decide) (by decide) far]

theorem Dev.superseding_cons (d : Dev) (q : Staged) (l : List Staged) : d.superseding (q :: l) = (d.supersede q).superseding l := rfl

theorem Dev.superseding_spec (l : List Staged) (d : Dev) :
    (d.superseding l).img = d.img ∧
    (d.superseding l).kin = { d.kin with staged := d.kin.staged.filter (fun x => ! l.any (fun q => q.num == x.num)) } ∧
    (d.eventSet 39 = true ∨ l ≠ [] → (d.superseding l).eventSet 39 = true) ∧
    ∀ k, FarFromLoader k → tfind (d.superseding l).regs k = tfind d.regs k := by
  induction l generalizing d with
  | nil =>
    have stays : d.kin.staged.filter (fun x => ! ([] : List Staged).any (fun q => q.num == x.num)) = d.kin.staged :=
      List.filter_eq_self.mpr (fun _ _ => rfl)
    refine ⟨rfl, ?_, fun event => event.resolve_right (fun some => some rfl), fun _ _ => rfl⟩
    rw [stays]
    rfl
  | cons q l ih =>
    obtain ⟨img, kin, event, far⟩ := Dev.supersede_spec d q
    obtain ⟨imgRest, kinRest, eventRest, farRest⟩ := ih (d.supersede q)
    rw [Dev.superseding_cons]
    refine ⟨imgRest.trans img, ?_, fun _ => eventRest (.inl event), fun k hk => (farRest k hk).trans (far k hk)⟩
    rw [kinRest, kin]
    simp only [List.filter_filter, List.any_cons, Bool.not_or]
    congr 2
    funext x
    rw [Bool.and_comm, bne, Bool.beq_comm (a := x.num)]

/-- A patch that takes effect at once in all its wall groups (R79). -/
theorem Dev.patchDone_spec (d : Dev) (p : Staged) :
    (d.patchDone p).img = d.img ∧ (d.patchDone p).kin = d.kin ∧ (d.patchDone p).eventSet 37 = true ∧
    (d.eventSet 39 = true → (d.patchDone p).eventSet 39 = true) ∧
    (d.patchDone p).rd KIN_LIVE_STATUS.patch_seq = p.patchSeq % 2 ^ 16 ∧
    ∀ k, FarFromLoader k → tfind (d.patchDone p).regs k = tfind d.regs k := by
  unfold Dev.patchDone
  refine ⟨by simp, by simp, Dev.eventSet_raise_self _ (by decide), fun set => ?_, ?_, fun k far => ?_⟩
  · have counted := (Dev.count_frame (d.wr KIN_LIVE_STATUS.patch_seq p.patchSeq) KIN_LIVE_APPLIED_CNT.sat KIN_LIVE_APPLIED_CNT.count 1 0 0).2
      (KIN_EVT_STATUS.status.key 0 0) (by decide) (by decide)
    rw [Dev.eventSet_raise_loader _ (by decide) (by decide), Dev.eventSet_loader_congr (by decide) counted,
      Dev.eventSet_loader_congr (by decide) (Dev.wr_cells d _ _ _ _ _ (by decide)), set, Bool.true_or]
  · rw [Dev.rd_raise_loader _ (by decide) (by decide) (by decide), Dev.rd_count_ne _ (by decide) (by decide), Dev.rd_wr_same]
    rfl
  · rw [Dev.raise_loader_far _ (by decide) far, Dev.count_far _ (by decide) (by decide) far, Dev.wr_far _ _ (by decide) far]

theorem maskUp_succ (n : Nat) (f : Nat → Bool) : maskUp (n + 1) f = if f n then maskUp n f + 2 ^ n else maskUp n f := by
  simp only [maskUp, forUp, List.range_succ, List.foldl_append, List.foldl_cons, List.foldl_nil]

theorem maskUp_lt (n : Nat) (f : Nat → Bool) : maskUp n f < 2 ^ n := by
  induction n with
  | zero => exact Nat.one_pos
  | succ n ih =>
    rw [maskUp_succ, Nat.pow_succ]
    split <;> omega

/-- The registers of the staged patches follow them. -/
theorem Dev.liveRegs_spec (d : Dev) :
    d.liveRegs.img = d.img ∧ d.liveRegs.kin = d.kin ∧ (d.liveRegs.eventSet 39 = d.eventSet 39) ∧
    d.liveRegs.rd KIN_LIVE_STATUS.groups_pending = stagedGroups d.kin.staged ∧
    d.liveRegs.rd KIN_STATUS.live_busy = b2n (! d.kin.staged.isEmpty) ∧
    ∀ k, FarFromLoader k → tfind d.liveRegs.regs k = tfind d.regs k := by
  unfold Dev.liveRegs
  refine ⟨rfl, rfl, ?_, ?_, ?_, fun k far => ?_⟩
  · rw [Dev.eventSet_loader_congr (by decide) (Dev.wrb_cells _ _ _ _ _ _ (by decide)),
      Dev.eventSet_loader_congr (by decide) (Dev.wr_cells d _ _ _ _ _ (by decide))]
  · rw [Dev.wrb, Dev.rd_wr_ne _ _ (by decide), Dev.rd_wr_same]
    exact Nat.mod_eq_of_lt (maskUp_lt 4 _)
  · rw [Dev.wrb, Dev.rd_wr_same]
    cases d.kin.staged <;> rfl
  · rw [Dev.wrb, Dev.wr_far _ _ (by decide) far, Dev.wr_far _ _ (by decide) far]

/-- What a patch leaves once it is staged (R77, R79, R80, R392). -/
theorem Dev.stagePatch_spec (d : Dev) (seq : Nat) (secs : List ImgSection) :
    let p := d.stagedAs seq secs
    let t := d.stagePatch seq secs
    t.img = (d.wideNow secs).foldl (fun m x => m.putWhole { x with scope := none }) d.img ∧
    t.kin = { d.kin with nextPatch := d.kin.nextPatch + 1, staged := if p.groups = 0 then d.stagedLeft p else d.stagedLeft p ++ [p] } ∧
    (∀ k, FarFromLoader k → tfind t.regs k = tfind (d.arbitersTaken (d.wideNow secs)).regs k) ∧
    ((∃ q ∈ d.kin.staged, d.clashes p q = true) → t.eventSet 39 = true) ∧
    (p.groups ≠ 0 → t.rd KIN_LIVE_STATUS.groups_pending = stagedGroups t.kin.staged ∧ t.rd KIN_STATUS.live_busy = 1) ∧
    (p.groups = 0 → t.eventSet 37 = true ∧ t.rd KIN_LIVE_STATUS.patch_seq = seq % 2 ^ 16) := by
  intro p t
  obtain ⟨img, kin, event, far⟩ := Dev.superseding_spec (d.kin.staged.filter (fun q => d.clashes p q)) (d.wideTaken secs)
  have staged : t = _ := Dev.stagePatch_eq d seq secs
  have left : (d.wideTaken secs).kin.staged.filter (fun x => ! (d.kin.staged.filter (fun q => d.clashes p q)).any (fun q => q.num == x.num)) =
      d.stagedLeft p := by
    simp only [List.any_filter]
    rfl
  have superseded : (∃ q ∈ d.kin.staged, d.clashes p q = true) →
      ((d.wideTaken secs).superseding (d.kin.staged.filter (fun q => d.clashes p q))).eventSet 39 = true := by
    rintro ⟨q, hq, clash⟩
    exact event (.inr (List.ne_nil_of_mem (List.mem_filter.mpr ⟨hq, clash⟩)))
  rw [left] at kin
  by_cases none : p.groups = 0
  · rw [if_pos none] at staged
    obtain ⟨imgDone, kinDone, applied, keeps, seqDone, farDone⟩ :=
      Dev.patchDone_spec ((d.wideTaken secs).superseding (d.kin.staged.filter (fun q => d.clashes p q))) p
    rw [← staged] at imgDone kinDone applied keeps seqDone farDone
    exact ⟨imgDone.trans img, by rw [kinDone, kin, if_pos none]; rfl, fun k hk => (farDone k hk).trans (far k hk),
      fun clash => keeps (superseded clash), fun some => absurd none some, fun _ => ⟨applied, seqDone⟩⟩
  · rw [if_neg none] at staged
    obtain ⟨imgLive, kinLive, event39, pending, busy, farLive⟩ := Dev.liveRegs_spec
      (let d2 := (d.wideTaken secs).superseding (d.kin.staged.filter (fun q => d.clashes p q))
       { d2 with kin := { d2.kin with staged := d2.kin.staged ++ [p] } })
    rw [← staged] at imgLive kinLive event39 pending busy farLive
    refine ⟨imgLive.trans img, ?_, fun k hk => (farLive k hk).trans (far k hk), fun clash => event39.trans (superseded clash),
      fun _ => ⟨by rw [pending, kinLive], ?_⟩, fun zero => absurd zero none⟩
    · rw [kinLive, if_neg none]
      simp only [kin]
      rfl
    · rw [busy]
      simp [b2n]

/-! ### Rejection (R75) -/

/-- A patch is rejected whole: the error registers, the count and the event tell of it, and nothing else of the loader changes. -/
theorem Dev.patchReject_spec (d : Dev) (code sect : Nat) :
    let t := d.patchReject code sect
    t.rd KIN_ERR.code = code % 256 ∧ t.rd KIN_ERR.section = sect % 256 ∧ t.rd KIN_ERR.patch = 1 ∧ t.eventSet 38 = true ∧ t.kin = d.kin ∧
    t.rd KIN_LIVE_REJECT_CNT.count = (d.count KIN_LIVE_REJECT_CNT.sat KIN_LIVE_REJECT_CNT.count).rd KIN_LIVE_REJECT_CNT.count ∧
    t.img = d.img := by
  have raised (f : Fld) (status : f.key 0 0 ≠ KIN_EVT_STATUS.status.key 0 0) (block : blockOf (f.key 0 0 / 32) ≠ 15) :
      (d.patchReject code sect).rd f =
        ((d.kinErr code sect true).count KIN_LIVE_REJECT_CNT.sat KIN_LIVE_REJECT_CNT.count).rd f :=
    Dev.rd_raise_loader _ (by decide) status block
  have uncounted (f : Fld) (hs : f.key 0 0 ≠ KIN_LIVE_REJECT_CNT.sat.key 0 0) (hc : f.key 0 0 ≠ KIN_LIVE_REJECT_CNT.count.key 0 0) :
      ((d.kinErr code sect true).count KIN_LIVE_REJECT_CNT.sat KIN_LIVE_REJECT_CNT.count).rd f = (d.kinErr code sect true).rd f :=
    Dev.rd_count_ne _ hs hc
  have beside (f : Fld) (hc : f.key 0 0 ≠ KIN_ERR.code.key 0 0) (hs : f.key 0 0 ≠ KIN_ERR.section.key 0 0)
      (hp : f.key 0 0 ≠ KIN_ERR.patch.key 0 0) : (d.kinErr code sect true).rd f = d.rd f := by
    rw [Dev.kinErr, Dev.wrb, Dev.rd_wr_ne _ _ hp, Dev.rd_wr_ne _ _ hs, Dev.rd_wr_ne _ _ hc]
  refine ⟨?_, ?_, ?_, Dev.eventSet_raise_self _ (by decide), ?_, ?_, ?_⟩
  · rw [raised _ (by decide) (by decide), uncounted _ (by decide) (by decide), Dev.kinErr, Dev.wrb, Dev.rd_wr_ne _ _ (by decide),
      Dev.rd_wr_ne _ _ (by decide), Dev.rd_wr_same]
    rfl
  · rw [raised _ (by decide) (by decide), uncounted _ (by decide) (by decide), Dev.kinErr, Dev.wrb, Dev.rd_wr_ne _ _ (by decide),
      Dev.rd_wr_same]
    rfl
  · rw [raised _ (by decide) (by decide), uncounted _ (by decide) (by decide), Dev.kinErr, Dev.wrb, Dev.rd_wr_same]
    rfl
  · simp only [Dev.patchReject, Dev.raise_kin, Dev.count_kin]
    rfl
  · rw [raised _ (by decide) (by decide), Dev.rd_count _ (by decide), Dev.rd_count _ (by decide),
      beside _ (by decide) (by decide) (by decide), beside _ (by decide) (by decide) (by decide)]
  · simp only [Dev.patchReject, Dev.raise_img, Dev.count_img]
    rfl

/-- No interface but a stoker's ring and the mailbox reaches the loader (R69, R75). -/
theorem Dev.secureSender_false (d : Dev) {who : Initiator} (h : who = .bar0 ∨ who = .jtag ∨ ∃ n, who = .engine n) :
    d.secureSender who = false := by
  rcases h with rfl | rfl | ⟨n, rfl⟩ <;> exact Bool.and_false _

/-! ### Flash writes (R69, R563) -/

/-- The slot is EMPTY from the start of the write on, in the journal and in KIN_SLOT; nothing outside the loader changes. -/
theorem flashBegin_spec (s : State) (slot : Nat) (b : List Byte) (ok : s.dev.flashOk slot b = true) :
    let t := flashBegin slot b s
    t.pending = s.pending ∧ t.otp = s.otp ∧ t.hbm = s.hbm ∧ t.flash = tput s.flash slot [] ∧
    t.dev.kin = { s.dev.kin with flashRun := some (slot, b) } ∧ t.dev.slotState slot = 0 ∧
    t.dev.slotState (1 - slot) = s.dev.slotState (1 - slot) ∧ t.dev.rd KIN_SLOT.state slot = 0 ∧ BlocksKept s t [1] := by
  have slotLt : slot < 2 := by
    simp only [Dev.flashOk, Bool.and_eq_true, decide_eq_true_eq] at ok
    omega
  obtain ⟨imageId, rollback, entry⟩ := Dev.journalState_eq s.dev slot 0 0
  obtain ⟨rest, cells⟩ := Dev.journal_frame s.dev 0 slot 0 0 imageId rollback
  have begun : flashBegin slot b s = { s with
      flash := tput s.flash slot [],
      dev := { s.dev.journal 0 slot 0 0 imageId rollback with
        kin := { (s.dev.journal 0 slot 0 0 imageId rollback).kin with flashRun := some (slot, b) } } } := by
    rw [flashBegin, if_pos ok, onDev, entry]
  intro t
  have journalled (slot' : Nat) : t.dev.slotState slot' = if slot = slot' then 0 else s.dev.slotState slot' := by
    rw [← Dev.slotState_journal s.dev slot 0 0 imageId rollback slot']
    simp only [t, begun]
    rfl
  have kin : t.dev.kin = { s.dev.kin with flashRun := some (slot, b) } := by
    simp only [t, begun]
    rw [rest]
  refine ⟨by simp only [t, begun], by simp only [t, begun], by simp only [t, begun], by simp only [t, begun], kin, ?_, ?_, ?_, ?_⟩
  · rw [journalled, if_pos rfl]
  · rw [journalled, if_neg (by omega)]
  · simp only [t, begun]
    exact Dev.rd_slotState_journal s.dev slot 0 0 imageId rollback
  · intro k outside
    have far (f : Fld) (place : f = KIN_SLOT.generation ∨ f = KIN_SLOT.trials ∨ f = KIN_SLOT.state) : k ≠ f.key slot 0 := by
      rintro rfl
      refine outside (List.mem_singleton.mpr ?_)
      have : slot = 0 ∨ slot = 1 := by omega
      rcases this with rfl | rfl <;> rcases place with rfl | rfl | rfl <;> decide
    simp only [t, begun]
    exact cells k (far _ (.inl rfl)) (far _ (.inr (.inl rfl))) (far _ (.inr (.inr rfl)))

theorem flashEnd_true (s : State) {slot : Nat} {b : List Byte} (h : s.dev.kin.flashRun = some (slot, b)) :
    flashEnd true s = onDev { s with flash := tput s.flash slot b }
      (fun d => ({ d with kin := { d.kin with flashRun := none } } : Dev).journal 0 slot slotTrial 0 (imgId b) (imgRollback b)) := by
  simp only [flashEnd, h]
  rfl

theorem flashEnd_false (s : State) {slot : Nat} {b : List Byte} (h : s.dev.kin.flashRun = some (slot, b)) :
    flashEnd false s = onDev s (fun d => { d with kin := { d.kin with flashRun := none } }) := by
  simp only [flashEnd, h]
  rfl

/-! ### The commands -/

theorem exec_livePatchSubmit (who : Initiator) (b : List Byte) (s : State) :
    exec (.livePatchSubmit who b) s = .next (onDev s (fun d => if d.kinRuns && d.secureSender who then d.patchSubmit b else d)) := rfl

theorem exec_livePatchVerified (s : State) (runs : s.dev.kinRuns = true) : exec .livePatchVerified s = .next (patchVerified s) :=
  congrArg Host.Outcome.next (if_pos runs)

theorem exec_flashSlotWrite (who : Initiator) (slot : Nat) (b : List Byte) (s : State) :
    exec (.flashSlotWrite who slot b) s = .next (if s.dev.kinRuns && s.dev.secureSender who then flashBegin slot b s else s) := rfl

theorem exec_flashWriteDone (ok : Bool) (s : State) (runs : s.dev.kinRuns = true) : exec (.flashWriteDone ok) s = .next (flashEnd ok s) :=
  congrArg Host.Outcome.next (if_pos runs)

/-- A patch during a relight is rejected, else it waits for its verification (R75, R96). -/
theorem Dev.patchSubmit_relighting (d : Dev) (b : List Byte) (h : d.kin.relight ≠ none) : d.patchSubmit b = d.patchReject 0x12 0 :=
  if_pos (Option.isSome_iff_ne_none.mpr h)

theorem Dev.patchSubmit_idle (d : Dev) (b : List Byte) (h : d.kin.relight = none) :
    d.patchSubmit b = { d with kin := { d.kin with patches := d.kin.patches ++ [b] } } := by simp [Dev.patchSubmit, h]

/-- The state once the oldest patch submitted has been taken for its verification. -/
def State.tookPatch (s : State) (rest : List (List Byte)) : State :=
  { s with dev := { s.dev with kin := { s.dev.kin with patches := rest } } }

theorem patchVerified_reject {s : State} {b : List Byte} {rest : List (List Byte)} (oldest : s.dev.kin.patches = b :: rest) {code sect : Nat}
    (h : verifyPatch (s.tookPatch rest) b = .reject code sect) :
    patchVerified s = onDev (s.tookPatch rest) (fun d => d.patchReject code sect) := by
  have taken : onDev s (fun d => { d with kin := { d.kin with patches := rest } }) = s.tookPatch rest := rfl
  simp only [patchVerified, oldest, taken, h]

theorem patchVerified_accept {s : State} {b : List Byte} {rest : List (List Byte)} (oldest : s.dev.kin.patches = b :: rest) {im : Image}
    (h : verifyPatch (s.tookPatch rest) b = .accept im) :
    patchVerified s = onDev (s.tookPatch rest) (fun d => d.stagePatch (imgPatchSeq b) im.sections) := by
  have taken : onDev s (fun d => { d with kin := { d.kin with patches := rest } }) = s.tookPatch rest := rfl
  simp only [patchVerified, oldest, taken, h]

/-- Settles O60: a patch by its submission and its verdict, a flash write by its start and its end. -/
theorem patchesAndFlash : Obligations.PatchesAndFlash := by
  unfold Obligations.PatchesAndFlash
  intro rejected
  have rejects (s u : State) (stores : SameStores s u) (regs : u.dev.regs = s.dev.regs) (staged : u.dev.kin.staged = s.dev.kin.staged)
      (image : u.dev.img = s.dev.img) (code sect : Nat) : rejected s (onDev u (fun d => d.patchReject code sect)) code sect := by
    obtain ⟨codeReg, sectReg, patchReg, event, kin, count, img⟩ := Dev.patchReject_spec u.dev code sect
    have sameCount := Dev.rd_count_congr (sat := KIN_LIVE_REJECT_CNT.sat) (cnt := KIN_LIVE_REJECT_CNT.count) (by decide) regs
    exact ⟨stores, codeReg, sectReg, patchReg, event, (congrArg KinState.staged kin).trans staged, count.trans sameCount, img.trans image⟩
  have keepsKin (s : State) (code sect : Nat) : (s.dev.patchReject code sect).kin = s.dev.kin := by
    obtain ⟨-, -, -, -, kin, -, -⟩ := Dev.patchReject_spec s.dev code sect
    exact kin
  refine ⟨fun who b s => ?submit, fun s runs => ?verified, fun who slot b s => ?write, fun ok s runs => ?written⟩
  case submit =>
    rw [exec_livePatchSubmit]
    refine ⟨fun dropped => ?_, fun runs sender => ⟨fun idle => ?_, fun relighting => ⟨_, rfl, ?_⟩⟩⟩
    · rcases dropped with h | h <;> simp [onDev, h]
    · simp [onDev, runs, sender, Dev.patchSubmit_idle _ b idle]
    · simp only [onDev, runs, sender, Bool.and_self, if_true, Dev.patchSubmit_relighting _ b relighting]
      exact ⟨rejects s s ⟨rfl, rfl, rfl, rfl⟩ rfl rfl rfl 0x12 0, keepsKin s 0x12 0⟩
  case verified =>
    rw [exec_livePatchVerified s runs]
    refine ⟨fun none => by simp only [patchVerified, none], ?_⟩
    intro b rest oldest u
    refine ⟨_, rfl, ?_⟩
    cases verdict : verifyPatch u b with
    | reject code sect =>
      rw [patchVerified_reject oldest verdict]
      refine ⟨⟨rfl, rfl, rfl, rfl⟩, congrArg KinState.patches (keepsKin u code sect), ?_, fun im accepted => by cases accepted⟩
      rintro _ _ ⟨⟩
      exact rejects s u ⟨rfl, rfl, rfl, rfl⟩ rfl rfl rfl code sect
    | accept im =>
      rw [patchVerified_accept oldest verdict]
      obtain ⟨img, kin, far, superseded, some, none⟩ := Dev.stagePatch_spec u.dev (imgPatchSeq b) im.sections
      have staged := congrArg KinState.staged kin
      refine ⟨⟨rfl, rfl, rfl, rfl⟩, congrArg KinState.patches kin, fun code sect rejection => (by cases rejection), ?_⟩
      rintro _ ⟨⟩
      refine ⟨img, congrArg KinState.nextPatch kin, fun k arb => ?_, superseded, fun groups => ?_, fun groups => ?_⟩
      · rw [onDev_dev, State.tookPatch, far k (by rw [FarFromLoader, arb]; decide)]
        exact congrArg (tfind · k) ((arbitersTaken_onRegs _).regs_congr rfl)
      · exact ⟨staged.trans (if_neg groups), some groups⟩
      · exact ⟨staged.trans (if_pos groups), none groups⟩
  case write =>
    rw [exec_flashSlotWrite]
    refine ⟨fun dropped => ?_, s.dev.secureSender_false, fun runs sender ok => ⟨flashBegin slot b s, ?_, flashBegin_spec s slot b ok⟩⟩
    · rcases dropped with h | h | h <;> simp [h, flashBegin]
    · simp [runs, sender]
  case written =>
    rw [exec_flashWriteDone ok s runs]
    refine ⟨fun none => by simp only [flashEnd, none], fun slot b writing => ⟨_, rfl, ?_⟩⟩
    cases ok with
    | true =>
      rw [flashEnd_true s writing]
      refine ⟨rfl, rfl, rfl, ?_, fun _ => ⟨rfl, ?_⟩, fun failed => absurd failed (by decide)⟩
      · rw [onDev_dev, (Dev.journal_frame _ _ _ _ _ _ _).1]
      · rw [onDev_dev, Dev.slotState_journal, if_pos rfl]
    | false =>
      rw [flashEnd_false s writing]
      exact ⟨rfl, rfl, rfl, rfl, fun agreed => absurd agreed (by decide), fun _ => ⟨rfl, rfl, rfl⟩⟩

end Sys2Proof.Machine
end
section
/-!
What a halt does to an active port with a number that no port has, which statement O59 does not rule out.
-/
namespace Sys2Proof.Machine

/-! ### The halt of a device takes its ports' bits out of TLK_UP (R68, R88) -/

theorem testBit_sub_two_pow_self {v k : Nat} (h : v.testBit k = true) : (v - 2 ^ k).testBit k = false := by
  have quotient : (v - 2 ^ k) / 2 ^ k = v / 2 ^ k - 1 := by simpa using Nat.sub_mul_div v (2 ^ k) 1
  rw [Nat.testBit_eq_decide_div_mod_eq] at h ⊢
  simp only [decide_eq_true_eq, decide_eq_false_iff_not] at h ⊢
  omega

theorem Dev.rdBit_wrBit_false (d : Dev) (f : Fld) (k i j : Nat) : (d.wrBit f k false i j).rdBit f k i j = false := by
  simp only [Dev.rdBit, Dev.rd, Dev.wrBit, Bool.false_eq_true, if_false, rclrBit]
  split
  · next set =>
    simp only [rget, rset, tget_tput_same, Nat.testBit_mod_two_pow, Bool.and_eq_false_iff]
    exact .inr (testBit_sub_two_pow_self set)
  · next clear => exact Bool.eq_false_iff.mpr clear

theorem Dev.loseFrame_regs (d : Dev) (n : Nat) : (d.loseFrame n).regs = d.regs := by
  unfold Dev.loseFrame
  dsimp only
  split <;> rfl

theorem Dev.portBit_leaveUp (d : Dev) (n : Nat) : (d.leaveUp n).portBit TLK_UP.ports n = false := by
  have regs : (d.leaveUp n).regs = ((d.pwStop n 2).wrPortBit TLK_UP.ports n false).regs := by
    rw [Dev.leaveUp, Dev.setLnk_regs, Dev.loseFrame_regs]
  rw [Dev.portBit, Dev.rdBit, Dev.rd, regs]
  exact Dev.rdBit_wrBit_false _ _ _ _ _

/-- Port 2^24: the number of no port, whose word of the array TLK_UP would be the first of MEM_PCH_FAILED. -/
def strayPort : Nat := 2 ^ 24

theorem strayPort_upBit (d : Dev) : d.portBit TLK_UP.ports strayPort = d.pchFailed 0 := by
  have cell : TLK_UP.ports.key (strayPort / 32) 0 = MEM_PCH_FAILED.failed.key (0 / 32) 0 := by decide
  have bit : strayPort % 32 = 0 % 32 := by decide
  rw [Dev.portBit, Dev.pchFailed, Dev.rdBit, Dev.rdBit, Dev.rd, Dev.rd, rget, rget, cell, bit]
  rfl

/-- The stray port is the image's only one, and it is not in OFF. -/
def StrayUp (d : Dev) : Prop := d.img.activePorts = [strayPort] ∧ d.linkState strayPort ≠ 0

/-- What keeps the image and the port's state keeps that. -/
theorem StrayUp.congr {d d' : Dev} (h : StrayUp d) (img : d'.img = d.img)
    (cell : tfind d'.regs (TLK_PORT_STATE.state.key strayPort 0) = tfind d.regs (TLK_PORT_STATE.state.key strayPort 0)) : StrayUp d' := by
  obtain ⟨ports, up⟩ := h
  exact ⟨by rw [img, ports], by rwa [Dev.linkState, Dev.rd_congr cell]⟩

theorem StrayUp.wr {d : Dev} (h : StrayUp d) (f : Fld) (v : Nat) (ne : TLK_PORT_STATE.state.key strayPort 0 ≠ f.key 0 0) :
    StrayUp (d.wr f v) := h.congr rfl (Dev.wr_cells _ _ _ _ _ _ ne)

theorem StrayUp.raise {d : Dev} (h : StrayUp d) {n : Nat} (hn : 32 ≤ n ∧ n < 40) : StrayUp (d.raise n) :=
  h.congr (Dev.raise_img d n false) (Dev.raise_loader_cells d hn (by decide) (by decide))

theorem StrayUp.stopLanes {d : Dev} (h : StrayUp d) : d.stopLanes.pchFailed 0 = false := by
  obtain ⟨ports, up⟩ := h
  have stopped : d.stopLanes = ((((d.leaveUp strayPort).wr TLK_PORT_STATE.state 1 strayPort).wr TLK_PORT_STATE.phase 0 strayPort).wr
      TLK_PORT_STATE.idle 0 strayPort).emit (.lanes strayPort 0) := by
    rw [Dev.stopLanes, ports]
    exact if_neg up
  have cell : tfind d.stopLanes.regs (MEM_PCH_FAILED.failed.key 0 0) = tfind (d.leaveUp strayPort).regs (MEM_PCH_FAILED.failed.key 0 0) := by
    rw [stopped, Dev.emit_regs, Dev.wr_cells _ _ _ _ _ _ (by decide), Dev.wr_cells _ _ _ _ _ _ (by decide),
      Dev.wr_cells _ _ _ _ _ _ (by decide)]
  have kept : d.stopLanes.pchFailed 0 = (d.leaveUp strayPort).pchFailed 0 := Dev.rdBit_congr _ cell
  rw [kept, ← strayPort_upBit, Dev.portBit_leaveUp]

theorem StrayUp.halt {d : Dev} (h : StrayUp d) : d.halt.pchFailed 0 = false := by
  have ended : StrayUp (if d.rd KIN_RELIGHT.step = 0 then d else d.relightStep 0) := by
    split
    · exact h
    · exact (h.wr KIN_RELIGHT.step 0 (by decide)).raise (by decide)
  have held : StrayUp (if d.rd KIN_RELIGHT.step = 0 then d else d.relightStep 0).holdElapsed := by
    unfold Dev.holdElapsed
    split
    · exact ended
    · exact ended.wr _ _ (by decide)
  rw [← held.stopLanes]
  exact Dev.rdBit_congr _ (Dev.wr_cells _ _ _ _ _ _ (by decide))

/-- Where every image is barred, the boot choice is that halt (R506). -/
theorem StrayUp.bootChoice {s : State} (h : StrayUp s.dev) (barred : loadBarred s.otp = true) :
    (bootChoice s).dev.pchFailed 0 = false := by
  simp only [Sys2Proof.Machine.bootChoice, onDev_dev, barred, if_true]
  have powered : StrayUp { s.dev with glb := { s.dev.glb with xspi := true } } := h.congr rfl rfl
  have told := ((powered.wr KIN_ERR.code 0x0E (by decide)).wr KIN_ERR.section 0 (by decide)).wr KIN_ERR.patch 0 (by decide)
  exact (told.raise (n := 33) (by decide)).halt

/-! ### Boot training of that device -/

/-- Before its boot training a device with the stray port, pseudo-channel 0 in its failed set; its OTP array bars every image. -/
def strayState : State :=
  { State.reset with dev := { Dev.reset with
      regs := [(MEM_PCH_FAILED.failed.key 0 0, 1)]
      img := { Image.blank with geo := { Image.blank.geo with ports := [(strayPort, ⟨0, 0, 0, 1, 0, 0, 0⟩)] } } } }

/-- Training that pseudo-channel 0 fails again writes margins, and leaves the port and the failed set as they were. -/
theorem strayState_trained (due : Nat → Bool) :
    StrayUp (strayState.dev.bootTrained due [0]) ∧ (strayState.dev.bootTrained due [0]).pchFailed 0 = true := by
  unfold Dev.bootTrained
  refine forUp_keeps (fun d => StrayUp d ∧ d.pchFailed 0 = true) _ _ _ ⟨⟨rfl, by decide⟩, by decide⟩ (fun p d ⟨up, failed⟩ => ?_)
  have margin (v : Nat) : StrayUp ((d.setPch p { d.pchS p with lastRun := some d.ticks }).wr MEM_TRAIN_STATUS.margin v p) ∧
      ((d.setPch p { d.pchS p with lastRun := some d.ticks }).wr MEM_TRAIN_STATUS.margin v p).pchFailed 0 = true := by
    have apart (f : Fld) (n : Nat) (lo : f.lo = 0) : f.key n 0 ≠ MEM_TRAIN_STATUS.margin.key p 0 := by
      simp only [Fld.key, MEM_TRAIN_STATUS.margin, lo]
      omega
    refine ⟨up.congr rfl (Dev.wr_cells _ _ _ _ _ _ (apart _ _ rfl)), ?_⟩
    rw [← failed]
    exact Dev.rdBit_congr _ (Dev.wr_cells _ _ _ _ _ _ (apart _ _ rfl))
  split
  · exact ⟨up, failed⟩
  · dsimp only
    split
    · next bad =>
      obtain rfl : p = 0 := by simpa using bad
      rw [Dev.failPch, if_pos (margin _).2]
      exact margin _
    · obtain ⟨upNext, failedNext⟩ := margin (1 + d.freeVal 16 % 255)
      exact ⟨upNext.congr rfl rfl, failedNext⟩

/-- Refutes O59: its clause for the boot's training says of every image that a pseudo-channel named in `fails` is in the failed set
afterwards. A device that halts clears the bits of its image's active ports in TLK_UP, and for an active port with the number 2^24,
which the statement does not rule out, that bit is pseudo-channel 0's in MEM_PCH_FAILED. -/
theorem not_bootAndRelight : ¬ Obligations.BootAndRelight := by
  unfold Obligations.BootAndRelight
  intro holds
  obtain ⟨training, -⟩ := holds
  obtain ⟨-, -, waiting⟩ := training [0] strayState
  obtain ⟨t, run, -, -, margins, -⟩ := waiting rfl
  have halts : exec (.hbmBootTrainingDone [0]) strayState =
      .next (bootChoice (onDev strayState (fun d => d.bootTrained (fun _ => true) [0]))) := rfl
  obtain rfl := Host.Outcome.next.inj (halts.symm.trans run)
  obtain ⟨failing, -⟩ := margins 0 (by decide)
  obtain ⟨failed, -⟩ := failing (List.mem_singleton.mpr rfl)
  obtain ⟨up, -⟩ := strayState_trained (fun _ => true)
  have cleared := StrayUp.bootChoice (s := onDev strayState (fun d => d.bootTrained (fun _ => true) [0])) up (by decide)
  exact Bool.false_ne_true (cleared.symm.trans failed)

end Sys2Proof.Machine
end

section
/-!
Ingest packets (03_scene_stream.md): a FRAME packet that claims a slot, DATA and PARITY packets of a frame that holds one, and
statements O18 and O19.
-/
namespace Sys2Proof.Machine

/-! ### Tables and wall groups written twice -/

theorem tput_tput_same {α : Type} (t : Tab α) (k : Nat) (v w : α) : tput (tput t k v) k w = tput t k w := by
  induction t with
  | nil => simp [tput]
  | cons x t ih =>
    simp only [tput]
    split
    · simp [tput]
    · next other =>
      split
      · simp [tput]
      · next above => simp [tput, other, above, ih]

theorem tdel_tput_same {α : Type} (t : Tab α) (k : Nat) (v : α) : tdel (tput t k v) k = tdel t k := by
  induction t with
  | nil => simp [tput, tdel]
  | cons x t ih =>
    simp only [tput]
    split
    · next same => simp [tdel, same]
    · next other =>
      split
      · simp [tdel, other]
      · simp [tdel, other, ih]

@[simp] theorem Dev.ingG_setIng_same (d : Dev) (g : Nat) (x : IngGroup) : (d.setIng g x).ingG g = x := by
  simp only [Dev.ingG, Dev.setIng, tget_tput_same]

theorem Dev.setIng_setIng_same (d : Dev) (g : Nat) (x y : IngGroup) : (d.setIng g x).setIng g y = d.setIng g y := by
  simp only [Dev.setIng, tput_tput_same]

@[simp] theorem Dev.pendingSlot_setSlot_same (d : Dev) (g sl : Nat) (y : IngSlot) : (d.setSlot g sl y).pendingSlot g sl = y := by
  simp only [Dev.pendingSlot, Dev.setSlot, Dev.ingG_setIng_same, tget_tput_same]

theorem Dev.pendingSlot_of_tfind {d : Dev} {g sl : Nat} {y : IngSlot} (held : tfind (d.ingG g).pending sl = some y) :
    d.pendingSlot g sl = y := by
  simp only [Dev.pendingSlot, tget, held, Option.getD_some]

theorem Dev.pendingSlot_congr {d d' : Dev} (ing : d'.ing = d.ing) (g sl : Nat) : d'.pendingSlot g sl = d.pendingSlot g sl := by
  simp only [Dev.pendingSlot, Dev.ingG, ing]

theorem Dev.setSlot_setIng (d : Dev) (g sl : Nat) (x : IngGroup) (y : IngSlot) :
    (d.setIng g x).setSlot g sl y = d.setIng g { x with pending := tput x.pending sl y } := by
  simp only [Dev.setSlot, Dev.ingG_setIng_same, Dev.setIng_setIng_same]

/-! ### Datagrams that a group accepts (R99, R100) -/

theorem datagram_of_accepts_frame {s : State} {g e udp : Nat} {p : List Byte} (accepts : Accepts s.dev g e udp 1 p)
    (long : 0x24 ≤ p.length) (size : beAt p 6 2 = 20 + 48 * (beAt p 0x1C 4 % 32)) (valid : frameValid p = true) :
    datagram s e udp p = onDev s (fun d => d.frameTaken g p) := by
  obtain ⟨-, header, group, magic, version, typ, length⟩ := accepts
  simp only [datagram, group, typ]
  rw [if_neg (by omega), if_neg (by omega), if_neg (by omega), if_neg (by omega), if_pos trivial, if_neg (by omega), if_neg (by simp [valid])]

theorem datagram_of_accepts_data {s : State} {g e udp typ : Nat} {p : List Byte} (accepts : Accepts s.dev g e udp typ p)
    (data : typ = 2 ∨ typ = 3) : datagram s e udp p = dataTaken s g p (typ == 2) := by
  obtain ⟨-, header, group, magic, version, typIs, length⟩ := accepts
  simp only [datagram, group, typIs]
  rw [if_neg (by omega), if_neg (by omega), if_neg (by omega), if_neg (by omega), if_neg (by omega)]

theorem exec_framePacket {e udp : Nat} {p : List Byte} {s : State} (runs : s.dev.ingRuns = true) :
    exec (.framePacket e udp p) s = .next (datagram s e udp p) := by
  rw [show exec (.framePacket e udp p) s = execFramePacket e udp p s from rfl, execFramePacket, if_pos runs]

theorem exec_dataPacket {e udp : Nat} {p : List Byte} {s : State} (runs : s.dev.ingRuns = true) :
    exec (.dataPacket e udp p) s = .next (datagram s e udp p) := by
  rw [show exec (.dataPacket e udp p) s = execDataPacket e udp p s from rfl, execDataPacket, if_pos runs]

theorem exec_parityPacket {e udp : Nat} {p : List Byte} {s : State} (runs : s.dev.ingRuns = true) :
    exec (.parityPacket e udp p) s = .next (datagram s e udp p) := by
  rw [show exec (.parityPacket e udp p) s = execParityPacket e udp p s from rfl, execParityPacket, if_pos runs]

/-! ### The claim of a slot (R106, R111) -/

theorem Dev.claimable_of_lowest {d : Dev} {g sl : Nat} (inRange : sl < d.slotCount g) (free : (d.ingG g).slotFree sl = true)
    (lowest : ∀ k < sl, (d.ingG g).slotFree k = false) : d.claimable g = some (sl, false) := by
  have first : (List.range (d.slotCount g)).find? (d.ingG g).slotFree = some sl := by
    rw [List.find?_range_eq_some]
    exact ⟨free, List.mem_range.mpr inRange, fun k hk => by simp [lowest k hk]⟩
  simp only [Dev.claimable, first]

/-- A frame newer than every frame held, that fits its slot, claims the lowest free slot. -/
theorem Dev.claimSlot_of_lowest {d : Dev} {g f sl : Nat} {fix : PktFix} (unheld : (d.ingG g).slotOf f = none)
    (newest : ∀ h ∈ (d.ingG g).held, newer f h = true) (fits : fix.2.2 ≤ tget d.img.mem.slotSize g 0)
    (claim : d.claimable g = some (sl, false)) :
    d.claimSlot g f fix = (d.setIng g { d.ingG g with
      pending := tput (d.ingG g).pending sl ⟨f, some fix, none, [], [], []⟩, fixes := tdel (d.ingG g).fixes f }, some sl) := by
  have young : (d.ingG g).older f = false := by
    rw [IngGroup.older, List.any_eq_false]
    intro h hh
    simp [newest h hh]
  simp only [Dev.claimSlot, unheld, young, claim, if_neg (Nat.not_lt.mpr fits), Bool.or_false, Bool.false_eq_true, if_false]

/-- What an earlier packet of the frame has fixed is gone with the claim, so that it is the same whether one did or not. -/
theorem Dev.claimSlot_fixFrame {d : Dev} {g f sl : Nat} {fix : PktFix} (unheld : (d.ingG g).slotOf f = none)
    (newest : ∀ h ∈ (d.ingG g).held, newer f h = true) (fits : fix.2.2 ≤ tget d.img.mem.slotSize g 0)
    (inRange : sl < d.slotCount g) (free : (d.ingG g).slotFree sl = true) (lowest : ∀ k < sl, (d.ingG g).slotFree k = false) :
    (d.fixFrame g f fix).claimSlot g f fix = (d.setIng g { d.ingG g with
      pending := tput (d.ingG g).pending sl ⟨f, some fix, none, [], [], []⟩, fixes := tdel (d.ingG g).fixes f }, some sl) := by
  unfold Dev.fixFrame
  dsimp only
  split
  · exact Dev.claimSlot_of_lowest unheld newest fits (Dev.claimable_of_lowest inRange free lowest)
  · generalize fixed : d.setIng g { d.ingG g with fixes := tput (d.ingG g).fixes f fix } = d'
    have group : d'.ingG g = { d.ingG g with fixes := tput (d.ingG g).fixes f fix } := by rw [← fixed, Dev.ingG_setIng_same]
    have img : d'.img = d.img := by rw [← fixed]; rfl
    have slots : d'.slotCount g = d.slotCount g := by rw [← fixed]; rfl
    have claim : d'.claimable g = some (sl, false) := by
      apply Dev.claimable_of_lowest (slots ▸ inRange)
      · rw [group]; exact free
      · rw [group]; exact lowest
    rw [Dev.claimSlot_of_lowest (by rw [group]; exact unheld) (by rw [group]; exact newest) (img ▸ fits) claim, group, ← fixed,
      Dev.setIng_setIng_same, tdel_tput_same]

/-- The FRAME packet of a frame without one, presented after the scanned frame. -/
theorem Dev.frameHeader_of_first {d : Dev} {g sl : Nat} {h : FrameHdr} (first : (d.pendingSlot g sl).hdr = none)
    (later : ∀ a, (d.ingG g).scan = some a → a.hdr.pt < h.pt) :
    d.frameHeader g sl h = d.setSlot g sl { d.pendingSlot g sl with hdr := some h } := by
  have late : (d.ingG g).scan.any (fun a => decide (h.pt ≤ a.hdr.pt)) = false := by
    cases scan : (d.ingG g).scan with
    | none => rfl
    | some a => simpa using later a scan
  simp only [Dev.frameHeader, first, late, Bool.false_eq_true, if_false]

theorem IngGroup.fixOf_any_ne {x : IngGroup} {f : Nat} {fix : PktFix} (unheld : x.slotOf f = none)
    (alike : ∀ w, tfind x.fixes f = some w → w = fix) : (x.fixOf f).any (fun y => y != fix) = false := by
  simp only [IngGroup.fixOf, unheld]
  cases fixed : tfind x.fixes f with
  | none => rfl
  | some w => simp [alike w fixed]

theorem IngGroup.gone_of_not_dropped {x : IngGroup} {f : Nat} (undropped : tget x.dead f 0 ≠ 1) : x.gone f = false := by
  simp [IngGroup.gone, undropped]

theorem Dev.frameTaken_of_claim {d d' : Dev} {g sl : Nat} {p : List Byte} (unadmitted : (d.ingG g).admitted (beAt p 8 4) = none)
    (undropped : tget (d.ingG g).dead (beAt p 8 4) 0 ≠ 1) (unheld : (d.ingG g).slotOf (beAt p 8 4) = none)
    (alike : ∀ w, tfind (d.ingG g).fixes (beAt p 8 4) = some w → w = frameFix p)
    (claim : (d.fixFrame g (beAt p 8 4) (frameFix p)).claimSlot g (beAt p 8 4) (frameFix p) = (d', some sl)) :
    d.frameTaken g p = d'.frameHeader g sl ⟨framePt p, frameLayers p, p⟩ := by
  simp only [Dev.frameTaken, unadmitted, IngGroup.gone_of_not_dropped undropped, IngGroup.fixOf_any_ne unheld alike, claim,
    Bool.false_eq_true, if_false]

/-- Settles O18: the claim leaves a slot without a header in the lowest free place, and the FRAME packet then gives that slot its header. -/
theorem frameClaimsSlot : Obligations.FrameClaimsSlot := by
  unfold Obligations.FrameClaimsSlot
  intro g e udp sl p s accepts x f long size valid unadmitted undropped unheld newest alike fits inRange free lowest later y
  have claim := Dev.claimSlot_fixFrame (d := s.dev) (fix := frameFix p) unheld newest fits inRange free lowest
  have header : s.dev.frameTaken g p = s.dev.setIng g { x with pending := tput x.pending sl y, fixes := tdel x.fixes f } := by
    rw [Dev.frameTaken_of_claim unadmitted undropped unheld alike claim, Dev.frameHeader_of_first, Dev.setSlot_setIng]
    · simp only [Dev.pendingSlot, Dev.ingG_setIng_same, tget_tput_same, tput_tput_same]
      rfl
    · simp only [Dev.pendingSlot, Dev.ingG_setIng_same, tget_tput_same]
    · rw [Dev.ingG_setIng_same]
      exact later
  rw [exec_framePacket accepts.1, datagram_of_accepts_frame accepts long size valid, onDev, header]
  rfl

/-! ### What a write to HBM and a count leave of the device -/

theorem Dev.deny_ing_img (d : Dev) (req : Nat) (secure write : Bool) (a : Nat) :
    (d.deny req secure write a).ing = d.ing ∧ (d.deny req secure write a).img = d.img := by
  unfold Dev.deny
  rw [(Dev.raise_frame _ _ _).1]
  constructor <;> (rw [(Dev.count_frame _ _ _ _ _ _).1]; rfl)

theorem writeOne_ing_img (s : State) (req : Nat) (sec : Bool) (a : Nat) (bs : List Byte) :
    (writeOne s req sec a bs).1.dev.ing = s.dev.ing ∧ (writeOne s req sec a bs).1.dev.img = s.dev.img := by
  unfold writeOne
  split
  · split
    · exact ⟨rfl, rfl⟩
    · rw [onDev_dev, Dev.reachDram_only]
      exact ⟨rfl, rfl⟩
  · exact Dev.deny_ing_img _ _ _ _ _

/-- Wherever its bytes go, a write leaves the frame slots and the image. -/
theorem writeHbm_ing_img (s : State) (req : Nat) (sec : Bool) (a : Nat) (bs : List Byte) :
    (writeHbm s req sec a bs).1.dev.ing = s.dev.ing ∧ (writeHbm s req sec a bs).1.dev.img = s.dev.img := by
  unfold writeHbm
  split
  · exact ⟨rfl, rfl⟩
  · refine forUp_keeps (fun st : State × Bool => st.1.dev.ing = s.dev.ing ∧ st.1.dev.img = s.dev.img) _ _ _ ⟨rfl, rfl⟩ ?_
    rintro i ⟨u, b⟩ ⟨ing, img⟩
    exact ⟨(writeOne_ing_img u _ _ _ _).1.trans ing, (writeOne_ing_img u _ _ _ _).2.trans img⟩

theorem Dev.count_ing (d : Dev) (sat cnt : Fld) (n i j : Nat) : (d.count sat cnt n i j).ing = d.ing := by
  rw [(Dev.count_frame d sat cnt n i j).1]

/-! ### DATA and PARITY packets of a frame that holds a slot (R106 to R110) -/

/-- A packet that fits reaches the slot of its frame, which has the packet's parameters already. -/
theorem dataTaken_of_fits {s : State} {g e udp typ sl : Nat} {p : List Byte} {y : IngSlot} {fix : PktFix} (isData : Bool)
    (packet : PacketFits s.dev g e udp typ sl p y fix) (sound : dataCode isData fix (beAt p 12 4) (p.drop 0x18).length = 0) :
    dataTaken s g p isData = placePacket s g sl isData (beAt p 12 4) fix (p.drop 0x18) := by
  obtain ⟨-, long, fixed, inRange, reserved, unadmitted, undropped, slot, -, agreed⟩ := packet
  have known : (s.dev.ingG g).fixOf (beAt p 8 4) = some fix := by simp only [IngGroup.fixOf, slot, agreed]
  have kept : s.dev.fixFrame g (beAt p 8 4) fix = s.dev := by simp only [Dev.fixFrame, known, Option.isSome_some, if_true]
  have place : s.dev.claimSlot g (beAt p 8 4) fix = (s.dev, some sl) := by simp only [Dev.claimSlot, slot]
  have present : (s.dev.ingG g).gone (beAt p 8 4) = false := IngGroup.gone_of_not_dropped (by omega)
  simp only [dataTaken, fixed]
  rw [if_neg (by omega), if_neg (by simp [inRange, reserved]), if_neg (by simp [unadmitted, undropped]), if_neg (by simp [present]),
    if_neg (by simp [known]), if_neg (fun nonzero => nonzero sound), kept, place]

theorem dataCode_data {fix : PktFix} {q n : Nat} (first : 1 ≤ q) (last : q ≤ packetCount fix) (length : n = packetSpan fix q) :
    dataCode true fix q n = 0 := by
  rw [dataCode, if_pos rfl, if_neg (by omega), if_neg (by omega)]

theorem dataCode_parity {fix : PktFix} {q n : Nat} (parity : fix.2.1 ≠ 0) (last : q * fix.2.1 < packetCount fix) (length : n = fix.1) :
    dataCode false fix q n = 0 := by
  rw [dataCode, if_neg (by decide), if_neg parity, if_neg (by omega), if_neg (by omega)]

/-- The slot after the payload of packet m, of a frame with these parameters, has been stored. -/
def IngSlot.stored (z : IngSlot) (fix : PktFix) (m : Nat) (b : List Byte) : IngSlot :=
  { z with
    present := tput z.present m 1,
    acc := if fix.2.1 = 0 then z.acc else tput z.acc ((m - 1) / fix.2.1) (xorBytes fix.1 (tget z.acc ((m - 1) / fix.2.1) []) b) }

theorem storeData_eq (u : State) (g sl m : Nat) (fix : PktFix) (b : List Byte) :
    storeData u g sl m fix b =
      onDev (writeHbm u 16 (u.dev.blockSecure 2) (tget u.dev.img.mem.slotBase (g * 8 + sl) 0 + (m - 1) * fix.1) b).1
        (fun d => d.setSlot g sl ((u.dev.pendingSlot g sl).stored fix m b)) := by
  unfold storeData
  have slot := Dev.pendingSlot_congr (writeHbm_ing_img u 16 (u.dev.blockSecure 2)
    (tget u.dev.img.mem.slotBase (g * 8 + sl) 0 + (m - 1) * fix.1) b).1 g sl
  simp only [onDev, slot]
  rfl

theorem storeData_img (u : State) (g sl m : Nat) (fix : PktFix) (b : List Byte) : (storeData u g sl m fix b).dev.img = u.dev.img := by
  rw [storeData_eq]
  exact (writeHbm_ing_img u _ _ _ b).2

theorem storeData_pendingSlot (u : State) (g sl m : Nat) (fix : PktFix) (b : List Byte) :
    (storeData u g sl m fix b).dev.pendingSlot g sl = (u.dev.pendingSlot g sl).stored fix m b := by
  rw [storeData_eq, onDev_dev, Dev.pendingSlot_setSlot_same]

/-- A packet once marked present stays so when another is stored. -/
theorem IngSlot.present_stored {z : IngSlot} {q : Nat} (fix : PktFix) (m : Nat) (b : List Byte) (marked : (tfind z.present q).isSome = true) :
    (tfind (z.stored fix m b).present q).isSome = true := by
  simp only [IngSlot.stored, tfind_tput]
  split
  · rfl
  · exact marked

theorem repairGroup_of_none {u : State} {g sl k : Nat} {fix : PktFix} (none_ : tfind (u.dev.pendingSlot g sl).parity k = none ∨
    ((u.dev.pendingSlot g sl).missingOf fix k).length ≠ 1) : repairGroup u g sl k fix = u := by
  unfold repairGroup
  dsimp only
  split
  · next parity missing => simp [parity, missing] at none_
  · rfl

theorem repairGroup_of_one {u : State} {g sl k m : Nat} {fix : PktFix} {par : List Byte}
    (parity : tfind (u.dev.pendingSlot g sl).parity k = some par) (missing : (u.dev.pendingSlot g sl).missingOf fix k = [m]) :
    repairGroup u g sl k fix =
      onDev (storeData u g sl m fix ((xorBytes fix.1 par (tget (u.dev.pendingSlot g sl).acc k [])).take (packetSpan fix m)))
        (fun d => d.count ING_REPAIR_CNT.sat ING_REPAIR_CNT.count 1 g) := by
  simp only [repairGroup, parity, missing]

theorem repairGroup_present {u : State} {g sl q : Nat} (k : Nat) (fix : PktFix)
    (marked : (tfind (u.dev.pendingSlot g sl).present q).isSome = true) :
    (tfind ((repairGroup u g sl k fix).dev.pendingSlot g sl).present q).isSome = true := by
  unfold repairGroup
  dsimp only
  split
  · rw [onDev_dev, Dev.pendingSlot_congr (Dev.count_ing _ _ _ _ _ _), storeData_pendingSlot]
    exact IngSlot.present_stored fix _ _ marked
  · exact marked

theorem storeData_present (u : State) (g sl q : Nat) (fix : PktFix) (b : List Byte) :
    (tfind ((storeData u g sl q fix b).dev.pendingSlot g sl).present q).isSome = true := by
  simp only [storeData_pendingSlot, IngSlot.stored, tfind_tput_same, Option.isSome_some]

theorem placePacket_duplicate {s : State} {g sl q : Nat} (fix : PktFix) (bs : List Byte)
    (marked : (tfind (s.dev.pendingSlot g sl).present q).isSome = true) :
    placePacket s g sl true q fix bs = onDev s (fun d => d.count ING_DUP_PKT_CNT.sat ING_DUP_PKT_CNT.count 1 g) := by
  simp only [placePacket, marked, if_true]

theorem placePacket_data {s : State} {g sl q : Nat} (fix : PktFix) (bs : List Byte)
    (unmarked : tfind (s.dev.pendingSlot g sl).present q = none) :
    placePacket s g sl true q fix bs =
      if fix.2.1 = 0 then storeData s g sl q fix bs else repairGroup (storeData s g sl q fix bs) g sl ((q - 1) / fix.2.1) fix := by
  simp only [placePacket, unmarked, Option.isSome_none, Bool.false_eq_true, if_true, if_false]

theorem placePacket_parity_complete {s : State} {g sl k : Nat} {fix : PktFix} (bs : List Byte)
    (complete : (s.dev.pendingSlot g sl).missingOf fix k = []) : placePacket s g sl false k fix bs = s := by
  simp only [placePacket, complete, List.isEmpty_nil, Bool.false_eq_true, if_true, if_false]

theorem placePacket_parity {s : State} {g sl k : Nat} {fix : PktFix} (bs : List Byte)
    (incomplete : (s.dev.pendingSlot g sl).missingOf fix k ≠ []) :
    placePacket s g sl false k fix bs = repairGroup
      (onDev s (fun d => d.setSlot g sl { s.dev.pendingSlot g sl with parity := tput (s.dev.pendingSlot g sl).parity k bs })) g sl k fix := by
  simp only [placePacket, List.isEmpty_iff, incomplete, Bool.false_eq_true, if_false]

/-- Settles O19: a packet that fits is placed in its frame's slot; each case of `placePacket` and of `repairGroup` is then one clause. -/
theorem dataAndParityArrive : Obligations.DataAndParityArrive := by
  unfold Obligations.DataAndParityArrive
  intro g e udp sl p y fix s x q bs put repaired
  have put_eq {u : State} (img : u.dev.img = s.dev.img) (m : Nat) (b : List Byte) :
      put u (u.dev.pendingSlot g sl) m b = storeData u g sl m fix b := by
    rw [storeData_eq, img]
    rfl
  have repairs {u : State} (img : u.dev.img = s.dev.img) (k : Nat) : repaired u (repairGroup u g sl k fix) k := by
    refine ⟨repairGroup_of_none, fun par m parity missing => ?_⟩
    rw [repairGroup_of_one parity missing, put_eq img]
  refine ⟨fun packet first last length => ?_, fun packet grouped last length => ?_⟩ <;>
    obtain ⟨accepts, -, -, -, -, -, -, -, held, -⟩ := id packet <;>
    obtain rfl := Dev.pendingSlot_of_tfind held
  · have placed : exec (.dataPacket e udp p) s = .next (placePacket s g sl true q fix bs) := by
      rw [exec_dataPacket accepts.1, datagram_of_accepts_data accepts (.inl rfl)]
      exact congrArg _ (dataTaken_of_fits true packet (dataCode_data first last length))
    refine ⟨_, placed, ?_⟩
    rw [put_eq rfl]
    cases mark : tfind (s.dev.pendingSlot g sl).present q with
    | some one =>
      have marked : (tfind (s.dev.pendingSlot g sl).present q).isSome = true := by rw [mark]; rfl
      rw [placePacket_duplicate fix bs marked]
      refine ⟨?_, fun _ => rfl, (nomatch ·), (nomatch ·)⟩
      rw [onDev_dev, Dev.pendingSlot_congr (Dev.count_ing _ _ _ _ _ _)]
      exact marked
    | none =>
      rw [placePacket_data fix bs mark]
      refine ⟨?_, (nomatch ·), fun _ ungrouped => if_pos ungrouped, fun _ grouped => ?_⟩
      · split
        · exact storeData_present s g sl q fix bs
        · exact repairGroup_present _ fix (storeData_present s g sl q fix bs)
      · rw [if_neg grouped]
        exact repairs (storeData_img s g sl q fix bs) _
  · have placed : exec (.parityPacket e udp p) s = .next (placePacket s g sl false q fix bs) := by
      rw [exec_parityPacket accepts.1, datagram_of_accepts_data accepts (.inr rfl)]
      exact congrArg _ (dataTaken_of_fits false packet (dataCode_parity grouped last length))
    refine ⟨_, placed, placePacket_parity_complete bs, fun incomplete => ?_⟩
    rw [placePacket_parity bs incomplete]
    exact repairs (u := onDev s fun d => d.setSlot g sl _) rfl q

end Sys2Proof.Machine
end

section
/-!
Loaded coding tables (03_scene_stream.md R127): what each table of a commit does, and statement O20.
-/
namespace Sys2Proof.Machine

/-! ### Folds over rising numbers -/

theorem forUp_succ {σ : Type} (n : Nat) (f : Nat → σ → σ) (s : σ) : forUp (n + 1) f s = f n (forUp n f s) := by
  simp only [forUp, List.range_succ, List.foldl_append, List.foldl_cons, List.foldl_nil]

/-! ### Valid tables -/

/-- R127's test, in the statement's words, of a table with a length for each symbol. -/
theorem tableValid_iff {lens : List Nat} (symbols : lens.length = 11) :
    tableValid lens = true ↔ (∀ l ∈ lens, 1 ≤ l ∧ l ≤ 12) ∧ (lens.map (fun l => 2 ^ (12 - l))).sum = 4096 := by
  have sum : lens.foldl (fun a l => a + 2 ^ (12 - l)) 0 = (lens.map (fun l => 2 ^ (12 - l))).sum := by
    rw [List.sum_eq_foldl, List.foldl_map]
  simp only [tableValid, symbols, sum, Bool.and_eq_true, List.all_eq_true, decide_eq_true_eq, beq_self_eq_true, true_and, beq_iff_eq]

theorem Dev.shadowTable_length (d : Dev) (i : Nat) : (d.shadowTable i).length = 11 := by
  simp [Dev.shadowTable]

/-! ### The commit of one table -/

/-- Table 8 + i of the device is submitted. -/
def Dev.submitTable (d : Dev) (i : Nat) : Dev :=
  if tableValid (d.shadowTable i) then
    ({ d with ltab := tput d.ltab (8 + i) (d.shadowTable i) } : Dev).wrBit ING_LTABLE_CTRL.valid i true
  else ((d.wr ING_LAST_ERR.code 0x41).wr ING_LAST_ERR.group 0).raise 73

theorem Dev.tableCommit_eq (d : Dev) (mask : Nat) :
    d.tableCommit mask = forUp 8 (fun i d => if mask.testBit i then d.submitTable i else d) d := rfl

/-- The cells that the commit of a table may change outside the recorder. -/
def commitCells : List Nat :=
  [ING_LTABLE_CTRL.valid.key 0 0, ING_LAST_ERR.code.key 0 0, ING_LAST_ERR.group.key 0 0, ING_EVT_STATUS.status.key 0 0]

theorem Dev.eventSet_tableReject (d : Dev) : d.eventSet 73 = d.rdBit ING_EVT_STATUS.status 9 := rfl

theorem Dev.submitTable_of_valid {d : Dev} {i : Nat} (valid : tableValid (d.shadowTable i) = true) :
    d.submitTable i = ({ d with ltab := tput d.ltab (8 + i) (d.shadowTable i) } : Dev).wrBit ING_LTABLE_CTRL.valid i true := by
  rw [Dev.submitTable, if_pos valid]

theorem Dev.submitTable_of_invalid {d : Dev} {i : Nat} (invalid : tableValid (d.shadowTable i) = false) :
    d.submitTable i = ((d.wr ING_LAST_ERR.code 0x41).wr ING_LAST_ERR.group 0).raise 73 := by
  rw [Dev.submitTable, invalid, if_neg Bool.false_ne_true]

theorem Dev.submitTable_cells (d : Dev) (i : Nat) {k : Nat} (apart : k ∉ commitCells) (block : blockOf (k / 32) ≠ 15) :
    tfind (d.submitTable i).regs k = tfind d.regs k := by
  simp only [commitCells, List.mem_cons, List.not_mem_nil, or_false, not_or] at apart
  obtain ⟨valid, code, group, status⟩ := apart
  unfold Dev.submitTable
  split
  · exact Dev.wrBit_cells _ _ _ _ _ _ _ valid
  · rw [(Dev.raise_frame _ 73 false).2 k status block, Dev.wr_cells _ _ _ _ _ _ group, Dev.wr_cells _ _ _ _ _ _ code]

/-- No commit reaches a shadow register. -/
theorem shadow_cells_apart : ∀ i < 8,
    (ING_LTABLE_LO.lengths_lo.key i 0 ∉ commitCells ∧ blockOf (ING_LTABLE_LO.lengths_lo.key i 0 / 32) ≠ 15) ∧
    (ING_LTABLE_HI.lengths_hi.key i 0 ∉ commitCells ∧ blockOf (ING_LTABLE_HI.lengths_hi.key i 0 / 32) ≠ 15) := by decide

theorem Dev.shadowTable_submitTable (d : Dev) (i : Nat) {j : Nat} (inRange : j < 8) :
    (d.submitTable i).shadowTable j = d.shadowTable j := by
  obtain ⟨⟨lo, loBlock⟩, hi, hiBlock⟩ := shadow_cells_apart j inRange
  simp only [Dev.shadowTable, Dev.rd_congr (Dev.submitTable_cells d i lo loBlock), Dev.rd_congr (Dev.submitTable_cells d i hi hiBlock)]

theorem Dev.submitTable_ltab (d : Dev) (i k : Nat) : tfind (d.submitTable i).ltab k =
    if k = 8 + i ∧ tableValid (d.shadowTable i) = true then some (d.shadowTable i) else tfind d.ltab k := by
  cases valid : tableValid (d.shadowTable i) with
  | true => simp only [Dev.submitTable_of_valid valid, Dev.wrBit_ltab, tfind_tput, and_true]
  | false =>
    rw [Dev.submitTable_of_invalid valid, (Dev.raise_frame _ 73 false).1]
    simp

/-- A table's valid bit, once set, stays; a table that is taken sets its own. -/
theorem Dev.submitTable_validBit (d : Dev) (i : Nat) {j : Nat} (inRange : j < 8) :
    (d.submitTable i).rdBit ING_LTABLE_CTRL.valid j =
      (d.rdBit ING_LTABLE_CTRL.valid j || (tableValid (d.shadowTable i) && decide (i = j))) := by
  cases valid : tableValid (d.shadowTable i) with
  | true =>
    rw [Dev.submitTable_of_valid valid, Dev.rdBit_wrBit_true _ _ _ _ _ inRange]
    rfl
  | false =>
    rw [Dev.submitTable_of_invalid valid, Dev.rdBit_congr (d := d), Bool.false_and, Bool.or_false]
    rw [(Dev.raise_frame _ 73 false).2 _ (by decide) (by decide), Dev.wr_cells _ _ _ _ _ _ (by decide),
      Dev.wr_cells _ _ _ _ _ _ (by decide)]

/-- TABLE_REJECT is raised with error code 0x41. -/
def Dev.tableRefused (d : Dev) : Prop := d.rd ING_LAST_ERR.code = 0x41 ∧ d.eventSet 73 = true

/-- A table that fails the test leaves the refusal, and no later table takes it back. -/
theorem Dev.submitTable_refused {d : Dev} {i : Nat} (h : d.tableRefused ∨ tableValid (d.shadowTable i) = false) :
    (d.submitTable i).tableRefused := by
  cases valid : tableValid (d.shadowTable i) with
  | true =>
    obtain ⟨code, event⟩ := h.resolve_right (by simp [valid])
    rw [Dev.submitTable_of_valid valid]
    refine ⟨(Dev.rd_congr (Dev.wrBit_cells _ _ _ _ _ _ _ (by decide))).trans code, ?_⟩
    exact (Dev.rdBit_congr 9 (Dev.wrBit_cells _ _ _ _ _ _ _ (by decide))).trans event
  | false =>
    rw [Dev.submitTable_of_invalid valid]
    constructor
    · rw [Dev.rd_congr ((Dev.raise_frame _ 73 false).2 _ (by decide) (by decide)), Dev.rd_wr_ne _ _ (by decide), Dev.rd_wr_same]
      rfl
    · have bit := Dev.rdBit_raiseAt ((d.wr ING_LAST_ERR.code 0x41).wr ING_LAST_ERR.group 0) (n := 73) rfl (by decide) (evInstance 73) false
        (k := 9) (by decide)
      exact bit.trans (Bool.or_true _)

/-! ### The commit of a mask of tables -/

/-- What the commit of tables 8 to 7 + n of the mask has done to the device d that it met. -/
structure CommitDone (mask n : Nat) (d t : Dev) : Prop where
  shadow : ∀ j < 8, t.shadowTable j = d.shadowTable j
  taken : ∀ i < n, mask.testBit i = true → tableValid (d.shadowTable i) = true →
    tfind t.ltab (8 + i) = some (d.shadowTable i) ∧ t.rdBit ING_LTABLE_CTRL.valid i = true
  kept : ∀ k, (∀ i < n, mask.testBit i = true → tableValid (d.shadowTable i) = true → k ≠ 8 + i) → tfind t.ltab k = tfind d.ltab k
  refused : ∀ i < n, mask.testBit i = true → tableValid (d.shadowTable i) = false → t.tableRefused

theorem CommitDone.succ {mask n : Nat} {d t : Dev} (done : CommitDone mask n d t) (inRange : n < 8) :
    CommitDone mask (n + 1) d (if mask.testBit n then t.submitTable n else t) := by
  cases inMask : mask.testBit n with
  | false =>
    have earlier {i : Nat} (hi : i < n + 1) (bit : mask.testBit i = true) : i < n :=
      Nat.lt_of_le_of_ne (Nat.le_of_lt_succ hi) (fun same => by simp [same, inMask] at bit)
    exact ⟨done.shadow, fun i hi bit => done.taken i (earlier hi bit) bit,
      fun k others => done.kept k (fun i hi => others i (Nat.lt_succ_of_lt hi)), fun i hi bit => done.refused i (earlier hi bit) bit⟩
  | true =>
    have table := done.shadow n inRange
    refine ⟨fun j hj => ?_, fun i hi bit valid => ?_, fun k others => ?_, fun i hi bit invalid => ?_⟩ <;> simp only [if_true]
    · rw [Dev.shadowTable_submitTable _ _ hj, done.shadow j hj]
    · rw [Dev.submitTable_ltab, Dev.submitTable_validBit _ _ (by omega), table]
      rcases Nat.lt_succ_iff_lt_or_eq.mp hi with before | rfl
      · obtain ⟨lens, set⟩ := done.taken i before bit valid
        exact ⟨by rw [if_neg (by omega), lens], by rw [set, Bool.true_or]⟩
      · exact ⟨if_pos ⟨rfl, valid⟩, by simp [valid]⟩
    · rw [Dev.submitTable_ltab, table, if_neg (fun ⟨this, valid⟩ => others n (Nat.lt_succ_self n) inMask valid this)]
      exact done.kept k (fun i hi => others i (Nat.lt_succ_of_lt hi))
    · apply Dev.submitTable_refused
      rcases Nat.lt_succ_iff_lt_or_eq.mp hi with before | rfl
      · exact .inl (done.refused i before bit invalid)
      · exact .inr (table ▸ invalid)

theorem Dev.tableCommit_done (d : Dev) (mask : Nat) : CommitDone mask 8 d (d.tableCommit mask) := by
  have upTo (n : Nat) (hn : n ≤ 8) : CommitDone mask n d (forUp n (fun i d => if mask.testBit i then d.submitTable i else d) d) := by
    induction n with
    | zero => exact ⟨fun _ _ => rfl, fun _ h => absurd h (Nat.not_lt_zero _), fun _ _ => rfl, fun _ h => absurd h (Nat.not_lt_zero _)⟩
    | succ n ih =>
      rw [forUp_succ]
      exact (ih (by omega)).succ hn
  exact upTo 8 (Nat.le_refl 8)

theorem exec_ltableCommit {who : Initiator} (v : Nat) {s : State}
    (lets : Lets (settled who (ING_LTABLE_CTRL.ent.at_ 0 0) s) who ING_LTABLE_CTRL.ent 0 0) :
    exec (.ltableCommit who v) s =
      .next (onDev (settled who (ING_LTABLE_CTRL.ent.at_ 0 0) s) (fun d => d.tableCommit (v % 256))) := by
  rw [show exec (.ltableCommit who v) s = execLtableCommit who v s from rfl, execLtableCommit, rowWrite, rowBefore, onDev,
    Dev.gate_done _ lets, onDev]

/-- Settles O20: the tables of the mask are submitted in turn, each by its own shadow lengths, which no commit changes. -/
theorem tableCommit : Obligations.TableCommit := by
  unfold Obligations.TableCommit
  intro who v s u lets lens good
  have good_iff (i : Nat) : good i ↔ tableValid (u.dev.shadowTable i) = true := (tableValid_iff (Dev.shadowTable_length _ i)).symm
  have inMask (i : Nat) (hi : i < 8) : (v % 256).testBit i = v.testBit i := by
    rw [show 256 = 2 ^ 8 from rfl, Nat.testBit_mod_two_pow, decide_eq_true hi, Bool.true_and]
  obtain ⟨-, taken, kept, refused⟩ := Dev.tableCommit_done u.dev (v % 256)
  refine ⟨_, exec_ltableCommit v lets, ⟨rfl, rfl, rfl, rfl⟩, fun i hi bit valid => ?_, fun k others => ?_, fun i hi bit invalid => ?_⟩
  · exact taken i hi ((inMask i hi).trans bit) ((good_iff i).mp valid)
  · exact kept k (fun i hi bit valid => others i hi ((inMask i hi).symm.trans bit) ((good_iff i).mpr valid))
  · exact refused i hi ((inMask i hi).trans bit) (Bool.eq_false_iff.mpr (fun valid => invalid ((good_iff i).mpr valid)))

end Sys2Proof.Machine
end

section
/-!
Band fetch (03_scene_stream.md R116 to R132, 04_ray_synthesis.md R150 to R154): which bytes a row's decode reads, what reading them
leaves, and statement O23.
-/
namespace Sys2Proof.Machine

/-! ### Folds whose steps keep something -/

/-- A fold over 0 to n − 1 keeps what each of those steps keeps. -/
theorem forUp_keeps_below {σ : Type} (P : σ → Prop) {n : Nat} {f : Nat → σ → σ} {s : σ} (start : P s)
    (step : ∀ i < n, ∀ s, P s → P (f i s)) : P (forUp n f s) := by
  induction n with
  | zero => exact start
  | succ n ih =>
    rw [forUp_succ]
    exact step n (Nat.lt_succ_self n) _ (ih (fun i hi => step i (Nat.lt_succ_of_lt hi)))

theorem forEach_keeps {α σ : Type} (P : σ → Prop) {l : List α} {f : α → σ → σ} {s : σ} (start : P s)
    (step : ∀ x ∈ l, ∀ s, P s → P (f x s)) : P (forEach l f s) :=
  List.foldlRecOn l _ start (fun s hs x hx => step x hx s hs)

/-- What one element's step brings about holds at the end, where no element's step undoes it; both may lean on what every step keeps. -/
theorem forEach_establishes {α σ : Type} (Inv P : σ → Prop) {l : List α} {f : α → σ → σ} {s : σ} {x : α} (mem : x ∈ l) (start : Inv s)
    (inv : ∀ y s, Inv s → Inv (f y s)) (establish : ∀ s, Inv s → P (f x s)) (keep : ∀ y s, Inv s → P s → P (f y s)) :
    P (forEach l f s) := by
  obtain ⟨before, after, rfl⟩ := List.append_of_mem mem
  have reached : Inv (forEach before f s) := forEach_keeps Inv start (fun y _ => inv y)
  have later := forEach_keeps (fun t => Inv t ∧ P t) (l := after) ⟨inv x _ reached, establish _ reached⟩
    (fun y _ t ⟨i, p⟩ => ⟨inv y t i, keep y t i p⟩)
  simp only [forEach, List.foldl_append, List.foldl_cons]
  exact later.2

/-! ### Reads that HBM delivers (R360, R381) -/

/-- Nothing but the pseudo-channels' queues and open rows changes. -/
def OnlyPch (s t : State) : Prop := ∃ x, t = { s with dev := { s.dev with pch := x } }

theorem OnlyPch.refl (s : State) : OnlyPch s s := ⟨s.dev.pch, rfl⟩

theorem OnlyPch.trans {s t u : State} (h : OnlyPch s t) (h' : OnlyPch t u) : OnlyPch s u := by
  obtain ⟨x, rfl⟩ := h
  obtain ⟨y, rfl⟩ := h'
  exact ⟨y, rfl⟩

/-- Which reads arrive does not depend on the pseudo-channels' queues. -/
theorem OnlyPch.readsReach {s t : State} (h : OnlyPch s t) {req a n : Nat} {sec : Bool} (reach : ReadsReach s.dev req sec a n) :
    ReadsReach t.dev req sec a n := by
  obtain ⟨x, rfl⟩ := h
  exact reach

theorem ReadsReach.within {d : Dev} {req a n b m : Nat} {sec : Bool} (reach : ReadsReach d req sec a n) (low : a ≤ b)
    (high : 0 < m → b + m ≤ a + n) : ReadsReach d req sec b m :=
  fun x hx hx' => reach x (by omega) (by omega)

theorem readOne_of_reach {s : State} {req a : Nat} {sec : Bool} (n : Nat) (admitted : s.dev.admits req sec false a = true)
    (works : s.dev.pchFailed (s.dev.physPch a) = false) :
    OnlyPch s (readOne s req sec a n).1 ∧ (readOne s req sec a n).2.1 = false := by
  rw [readOne, if_pos admitted, works, if_neg Bool.false_ne_true]
  refine ⟨⟨(s.dev.reachDram a false).pch, ?_⟩, rfl⟩
  exact congrArg (fun d => { s with dev := d }) (Dev.reachDram_only s.dev a false)

theorem readHbmStop_of_reach {s : State} {req a n : Nat} {sec : Bool} (down : Bool) (reach : ReadsReach s.dev req sec a n) :
    OnlyPch s (readHbmStop s req sec a n down).1 ∧ (readHbmStop s req sec a n down).2.1 = false := by
  unfold readHbmStop
  split
  · exact ⟨OnlyPch.refl s, rfl⟩
  · next some_ =>
    refine forUp_keeps_below (fun st : State × Bool × List Byte => OnlyPch s st.1 ∧ st.2.1 = false) ⟨OnlyPch.refl s, rfl⟩ ?_
    rintro i hi ⟨u, e, bs⟩ ⟨only, ok⟩
    obtain rfl : e = false := ok
    dsimp only
    rw [if_neg Bool.false_ne_true]
    generalize hj : (if down then (a + n - 1) / 256 - a / 256 + 1 - 1 - i else i) = j
    have block : j ≤ (a + n - 1) / 256 - a / 256 := by split at hj <;> omega
    obtain ⟨admitted, works⟩ := only.readsReach reach (max a ((a / 256 + j) * 256)) (Nat.le_max_left _ _) (by omega)
    obtain ⟨one, arrives⟩ := readOne_of_reach (min (a + n) ((a / 256 + j + 1) * 256) - max a ((a / 256 + j) * 256)) admitted works
    exact ⟨only.trans one, arrives⟩

/-- Every range of a list ends at or below n. -/
def RangesBelow (n : Nat) (l : List (Nat × Nat)) : Prop := ∀ x ∈ l, x.2 ≤ n

theorem readRanges_of_reach {s : State} {req base n : Nat} {sec : Bool} {l : List (Nat × Nat)} (reach : ReadsReach s.dev req sec base n)
    (below : RangesBelow n l) : OnlyPch s (readRanges s req sec base l).1 ∧ (readRanges s req sec base l).2 = true := by
  refine List.foldlRecOn (motive := fun st : State × Bool => OnlyPch s st.1 ∧ st.2 = true) l _ ⟨OnlyPch.refl s, rfl⟩ ?_
  rintro ⟨u, ok⟩ ⟨only, rfl⟩ x hx
  have last := below x hx
  obtain ⟨range, arrives⟩ := readHbmStop_of_reach false
    ((only.readsReach reach).within (b := base + x.1) (m := x.2 - x.1) (by omega) (by omega))
  simp only [if_true, arrives, Bool.not_false]
  exact ⟨only.trans range, trivial⟩

/-! ### The bytes that a decode reads (R130, R131, R153) -/

theorem header_le_blockSize (rd : Nat → Nat) (d o : Nat) : (if blockType rd o = 2 then 2 else 1) ≤ blockSize rd d o := by
  by_cases coded : blockType rd o = 2
  · simp only [blockSize, coded, if_true]
    omega
  · rw [if_neg coded, blockSize]
    split <;> omega

theorem blockSize_le_of_blockFits {rd : Nat → Nat} {d o e : Nat} (fits : blockFits rd d o e = true) : o + blockSize rd d o ≤ e := by
  unfold blockFits at fits
  split at fits <;> simp only [Bool.and_eq_true, decide_eq_true_eq] at fits <;> exact fits.2

theorem walkReads_below (rd : Nat → Nat) (d e : Nat) (decoded : Nat → Bool) (fuel c o : Nat) :
    RangesBelow e (walkReads rd d e decoded fuel c o) := by
  induction fuel generalizing c o with
  | zero => exact fun x hx => nomatch hx
  | succ fuel ih =>
    simp only [walkReads]
    have header := header_le_blockSize rd d o
    split
    · rintro x hx
      obtain rfl := List.mem_singleton.mp hx
      exact Nat.min_le_right _ _
    · next fits =>
      have size := blockSize_le_of_blockFits (by simpa only [Bool.not_eq_false] using fits)
      rintro x (_ | ⟨_, hx⟩)
      · dsimp only
        split <;> omega
      · exact ih _ _ x hx

theorem joinRanges_below {n : Nat} {l : List (Nat × Nat)} (below : RangesBelow n l) : RangesBelow n (joinRanges l) := by
  induction l with
  | nil => exact below
  | cons x l ih =>
    obtain ⟨a, b⟩ := x
    obtain ⟨first, rest⟩ := List.forall_mem_cons.mp below
    have joined := ih rest
    simp only [joinRanges]
    split
    · exact joined
    · split
      · exact List.forall_mem_cons.mpr ⟨first, fun x hx => nomatch hx⟩
      · next c f r eq =>
        rw [eq] at joined
        obtain ⟨next, others⟩ := List.forall_mem_cons.mp joined
        split
        · exact List.forall_mem_cons.mpr ⟨next, others⟩
        · exact List.forall_mem_cons.mpr ⟨first, joined⟩

/-- A decoder reads a component section no further than its end. -/
theorem rowReads_below (rd : Nat → Nat) (len bc d r : Nat) (runs : List (Nat × Nat)) (decoded : Nat → Bool) :
    RangesBelow len (rowReads rd len bc d r runs decoded) := by
  simp only [rowReads]
  have entry : min len (r * indexEntryBytes bc + indexEntryBytes bc) ≤ len := Nat.min_le_left _ _
  split
  · exact List.forall_mem_cons.mpr ⟨entry, fun x hx => nomatch hx⟩
  · next usable =>
    refine List.forall_mem_cons.mpr ⟨entry, joinRanges_below ?_⟩
    intro x hx
    obtain ⟨c, -, walk⟩ := List.mem_flatMap.mp hx
    exact Nat.le_trans (walkReads_below _ _ _ _ _ _ _ x walk) (by omega)

/-- Runs of numbers below n end at or below it. -/
theorem runsOf_below {n : Nat} {l : List Nat} (below : ∀ x ∈ l, x < n) : ∀ c ∈ runsOf l, 0 < c.2 ∧ c.2 ≤ n := by
  induction l with
  | nil => exact fun c hc => nomatch hc
  | cons a l ih =>
    obtain ⟨first, rest⟩ := List.forall_mem_cons.mp below
    have runs := ih rest
    simp only [runsOf]
    split
    · exact List.forall_mem_cons.mpr ⟨by dsimp only; omega, fun c hc => nomatch hc⟩
    · next b c r eq =>
      rw [eq] at runs
      obtain ⟨next, others⟩ := List.forall_mem_cons.mp runs
      split
      · exact List.forall_mem_cons.mpr ⟨next, others⟩
      · exact List.forall_mem_cons.mpr ⟨by dsimp only; omega, runs⟩

/-- The samples of columns within an uncompressed component row lie in its section. -/
theorem rawRow_le_rawBytes (l : Layer) {k y x : Nat} (row : y < compHeight l.fmt l.height k) (column : x < compWidth l.fmt l.width k) :
    y * rowPitch l.fmt l.width k + (x + 1) * sampleBytes l.fmt k ≤ l.rawBytes k := by
  have pitch : compWidth l.fmt l.width k * sampleBytes l.fmt k ≤ rowPitch l.fmt l.width k := by unfold rowPitch; omega
  calc y * rowPitch l.fmt l.width k + (x + 1) * sampleBytes l.fmt k
      ≤ y * rowPitch l.fmt l.width k + rowPitch l.fmt l.width k :=
        Nat.add_le_add_left (Nat.le_trans (Nat.mul_le_mul_right _ column) pitch) _
    _ = (y + 1) * rowPitch l.fmt l.width k := (Nat.succ_mul _ _).symm
    _ ≤ l.rawBytes k := Nat.mul_le_mul_right _ row

/-- A fetch of a block row brings every byte where the regions and the pseudo-channels deliver its component's section. -/
theorem fetchReads_of_reach {s : State} {g unit k r y : Nat} {src : Option (Admitted × Layer)} {blocks cols : List Nat}
    {decoded : Nat → Bool}
    (reach : ∀ a l, src = some (a, l) → ReadsReach s.dev unit (s.dev.blockSecure 3) (s.dev.compBase g a l k)
      (max (l.compEnd k - lget l.comp k 0) (l.rawBytes k)))
    (raw : ∀ a l, src = some (a, l) → fmtCompressed l.fmt = false →
      y < compHeight l.fmt l.height k ∧ ∀ x ∈ cols, x < compWidth l.fmt l.width k * subX l.fmt k) :
    OnlyPch s (fetchReads s g unit src k r y blocks cols decoded).1 ∧ (fetchReads s g unit src k r y blocks cols decoded).2 = true := by
  unfold fetchReads
  split
  · exact ⟨OnlyPch.refl s, rfl⟩
  · next a l =>
    have section_ := reach a l rfl
    dsimp only
    split
    · exact readRanges_of_reach section_ (fun x hx => Nat.le_trans (rowReads_below _ _ _ _ _ _ _ x hx) (Nat.le_max_left _ _))
    · next uncompressed =>
      obtain ⟨row, columns⟩ := raw a l rfl (by simpa using uncompressed)
      refine readRanges_of_reach section_ (fun x hx => ?_)
      obtain ⟨c, run, rfl⟩ := List.mem_map.mp hx
      obtain ⟨nonempty, last⟩ := runsOf_below (fun x hx => columns x (List.mem_filter.mp hx).1) c run
      have column : (c.2 - 1) / subX l.fmt k < compWidth l.fmt l.width k := Nat.div_lt_of_lt_mul (by rw [Nat.mul_comm]; omega)
      exact Nat.le_trans (rawRow_le_rawBytes l row column) (Nat.le_max_right _ _)

/-- Fetches in turn, each of which brings its bytes, bring them all. -/
theorem forEach_fetches {α : Type} {s : State} {l : List α} {f : α → State → State × Bool} {st : State × Bool}
    (start : OnlyPch s st.1 ∧ st.2 = true) (fetch : ∀ x ∈ l, ∀ u, OnlyPch s u → OnlyPch u (f x u).1 ∧ (f x u).2 = true) :
    OnlyPch s (forEach l (fun x st => if st.2 then f x st.1 else st) st).1 ∧
      (forEach l (fun x st => if st.2 then f x st.1 else st) st).2 = true := by
  refine forEach_keeps (fun st : State × Bool => OnlyPch s st.1 ∧ st.2 = true) start ?_
  rintro x hx ⟨u, ok⟩ ⟨only, rfl⟩
  obtain ⟨one, arrives⟩ := fetch x hx u only
  exact ⟨only.trans one, arrives⟩

/-! ### Rows and columns of a component (R118, R120, R139) -/

/-- A block row is read from a layer of the same format and size (R118). -/
theorem IngGroup.rowFrom_layer {x : IngGroup} {a a' : Admitted} {l l' : Layer} {i k r : Nat}
    (source : x.rowFrom a l i k r = some (a', l')) : l'.fmt = l.fmt ∧ l'.width = l.width ∧ l'.height = l.height := by
  unfold IngGroup.rowFrom at source
  split at source
  · cases source
    exact ⟨rfl, rfl, rfl⟩
  · split at source
    · exact absurd source (by simp)
    · simp only [Option.bind_eq_some_iff, Option.map_eq_some_iff] at source
      obtain ⟨sa, -, m, found, eq⟩ := source
      cases eq
      have conceals := List.find?_some found
      simp only [Layer.conceals, Bool.and_eq_true, beq_iff_eq] at conceals
      obtain ⟨⟨⟨⟨⟨-, fmt⟩, width⟩, height⟩, -⟩, -⟩ := conceals
      exact ⟨fmt, width, height⟩
  · exact absurd source (by simp)

theorem lt_compWidth_mul_subX {f w h x : Nat} (k : Nat) (dims : dimsValid f w h = true) (column : x < w) :
    x < compWidth f w k * subX f k := by
  simp only [dimsValid, Bool.and_eq_true, Bool.or_eq_true, beq_iff_eq] at dims
  obtain ⟨⟨-, even⟩, -⟩ := dims
  simp only [compWidth, subX]
  split
  · next sub => have := even.resolve_left sub.2; omega
  · omega

theorem div_subY_lt_compHeight {f w h y : Nat} (k : Nat) (dims : dimsValid f w h = true) (row : y < h) :
    y / subY f k < compHeight f h k := by
  simp only [dimsValid, Bool.and_eq_true, Bool.or_eq_true, beq_iff_eq, bne_iff_ne] at dims
  obtain ⟨-, even⟩ := dims
  simp only [compHeight, subY]
  split
  · next sub => have := even.resolve_left (fun ne => ne sub.2); omega
  · omega

theorem clampI_row_lt {h : Nat} (some_ : 0 < h) (row : Int) : (clampI row 0 ((h : Int) - 1)).toNat < h := by
  unfold clampI
  split
  · omega
  · split <;> omega

theorem neededCols_lt {w : Nat} {ranges : List (Int × Nat)} : ∀ x ∈ neededCols w ranges, x < w :=
  fun _ hx => List.mem_range.mp (List.mem_filter.mp hx).1

/-! ### What a decoded row leaves of the device -/

/-- The bands, what a schedule entry is read from, and no scan, link or job state changes. -/
structure BandsKept (d d' : Dev) : Prop where
  bands : d'.ray.bands = d.ray.bands
  img : d'.img = d.img
  link : d'.link = d.link
  jobs : d'.jobs = d.jobs
  scn : d'.scn = d.scn

theorem BandsKept.refl (d : Dev) : BandsKept d d := ⟨rfl, rfl, rfl, rfl, rfl⟩

theorem BandsKept.trans {d d' d'' : Dev} (h : BandsKept d d') (h' : BandsKept d' d'') : BandsKept d d'' :=
  ⟨h'.bands.trans h.bands, h'.img.trans h.img, h'.link.trans h.link, h'.jobs.trans h.jobs, h'.scn.trans h.scn⟩

theorem BandsKept.raise {d d' : Dev} (h : BandsKept d d') (n : Nat) : BandsKept d (d'.raise n) := by
  rw [(Dev.raise_frame d' n false).1]
  exact ⟨h.bands, h.img, h.link, h.jobs, h.scn⟩

theorem BandsKept.count {d d' : Dev} (h : BandsKept d d') (sat cnt : Fld) (n i j : Nat) : BandsKept d (d'.count sat cnt n i j) := by
  rw [(Dev.count_frame d' sat cnt n i j).1]
  exact ⟨h.bands, h.img, h.link, h.jobs, h.scn⟩

theorem BandsKept.linorErr {d d' : Dev} (h : BandsKept d d') (g code : Nat) : BandsKept d (d'.linorErr g code) := by
  unfold Dev.linorErr
  refine BandsKept.raise (BandsKept.count ?_ _ _ _ _ _) _
  exact ⟨h.bands, h.img, h.link, h.jobs, h.scn⟩

theorem BandsKept.firstDecode {d d' : Dev} (h : BandsKept d d') (g key : Nat) (faults : List Nat) :
    BandsKept d (d'.firstDecode g key faults) := by
  unfold Dev.firstDecode
  split
  · exact h
  · exact List.foldlRecOn faults _ ⟨h.bands, h.img, h.link, h.jobs, h.scn⟩ (fun _ kept f _ => kept.linorErr g f)

theorem BandsKept.emptyRow {d d' : Dev} (h : BandsKept d d') (g key : Nat) : BandsKept d (d'.emptyRow g key) := by
  unfold Dev.emptyRow
  dsimp only
  split
  · split
    · refine BandsKept.count ?_ _ _ _ _ _
      exact ⟨h.bands, h.img, h.link, h.jobs, h.scn⟩
    · exact h
  · exact h

theorem BandsKept.bellowsOf {d d' : Dev} (h : BandsKept d d') (l i : Nat) (e : StreamEnt) : BandsKept d (d'.bellowsOf l i e) := by
  unfold Dev.bellowsOf
  dsimp only
  split
  · refine BandsKept.raise (BandsKept.count ?_ _ _ _ _ _) _
    exact ⟨h.bands, h.img, h.link, h.jobs, h.scn⟩
  · split
    · exact ⟨h.bands, h.img, h.link, h.jobs, h.scn⟩
    · exact h

/-! ### The subscribers' bands (R150, R154) -/

theorem Dev.rowEntry_congr {d d' : Dev} (img : d'.img = d.img) (n vr k : Nat) : d'.rowEntry n vr k = d.rowEntry n vr k := by
  simp only [Dev.rowEntry, Dev.sched, Dev.schedBody, Dev.schedTable, Dev.portGroup, img]

theorem Dev.band_setBand (d : Dev) (n n' p : Nat) (b : Band) : (d.setBand n p b).band n' p = if n' = n then b else d.band n' p := by
  have key : n' * 16 + p = n * 16 + p ↔ n' = n := by omega
  simp only [Dev.band, Dev.setBand, tget_tput, key]

/-- The line-store samples of a row for a schedule entry's columns. -/
def SchedEntry.samples (en : SchedEntry) (l : Layer) (src : Nat → RowSrc) (row : Int) : Tab Nat :=
  (List.range en.colWidth).map (fun (i : Nat) => (i, lineSample l src (en.colBase + (i : Int)) row))

/-- Port n takes a decoded row of plane position p into its band, where it samples the layer. -/
def Dev.takeRow (d : Dev) (p : Nat) (l : Layer) (src : Nat → RowSrc) (vr : Nat) (row : Int) (n : Nat) : Dev :=
  match d.rowEntry n vr l.slot with
  | none => d
  | some en => d.setBand n p ⟨tput (d.band n p).rows (bandKey vr row) (en.samples l src row)⟩

theorem Dev.broadcast_eq (d : Dev) (e : StreamEnt) (l : Layer) (src : Nat → RowSrc) (vr : Nat) (row : Int) :
    d.broadcast e l src vr row = forEach e.ports (fun n d => d.takeRow e.plane l src vr row n) d := rfl

/-- A band that takes a row leaves the image, and no scan, link or job state changes. -/
theorem Dev.takeRow_kept (d : Dev) (p : Nat) (l : Layer) (src : Nat → RowSrc) (vr : Nat) (row : Int) (n : Nat) :
    (d.takeRow p l src vr row n).img = d.img ∧ (d.takeRow p l src vr row n).link = d.link ∧
    (d.takeRow p l src vr row n).jobs = d.jobs ∧ (d.takeRow p l src vr row n).scn = d.scn := by
  unfold Dev.takeRow
  split <;> exact ⟨rfl, rfl, rfl, rfl⟩

theorem Dev.takeRow_of_entry {d : Dev} {l : Layer} {vr n : Nat} {en : SchedEntry} (entry : d.rowEntry n vr l.slot = some en)
    (p : Nat) (src : Nat → RowSrc) (row : Int) :
    d.takeRow p l src vr row n = d.setBand n p ⟨tput (d.band n p).rows (bandKey vr row) (en.samples l src row)⟩ := by
  simp only [Dev.takeRow, entry]

theorem Dev.takeRow_band_other (d : Dev) (p : Nat) (l : Layer) (src : Nat → RowSrc) (vr : Nat) (row : Int) {n n' : Nat} (other : n ≠ n') :
    (d.takeRow p l src vr row n').band n p = d.band n p := by
  unfold Dev.takeRow
  split
  · rfl
  · rw [Dev.band_setBand, if_neg other]

theorem Dev.broadcast_kept (d : Dev) (e : StreamEnt) (l : Layer) (src : Nat → RowSrc) (vr : Nat) (row : Int) :
    (d.broadcast e l src vr row).img = d.img ∧ (d.broadcast e l src vr row).link = d.link ∧
    (d.broadcast e l src vr row).jobs = d.jobs ∧ (d.broadcast e l src vr row).scn = d.scn := by
  refine forEach_keeps (fun t : Dev => t.img = d.img ∧ t.link = d.link ∧ t.jobs = d.jobs ∧ t.scn = d.scn) ⟨rfl, rfl, rfl, rfl⟩ ?_
  rintro n - t ⟨img, link, jobs, scn⟩
  obtain ⟨img', link', jobs', scn'⟩ := Dev.takeRow_kept t e.plane l src vr row n
  exact ⟨img'.trans img, link'.trans link, jobs'.trans jobs, scn'.trans scn⟩

/-- Every subscriber that samples the layer holds the row after its broadcast. -/
theorem Dev.broadcast_band {d : Dev} {e : StreamEnt} {l : Layer} {vr n : Nat} {en : SchedEntry} (mem : n ∈ e.ports)
    (entry : d.rowEntry n vr l.slot = some en) (src : Nat → RowSrc) (row : Int) :
    tfind ((d.broadcast e l src vr row).band n e.plane).rows (bandKey vr row) = some (en.samples l src row) := by
  have taken (t : Dev) (img : t.img = d.img) :
      tfind ((t.takeRow e.plane l src vr row n).band n e.plane).rows (bandKey vr row) = some (en.samples l src row) := by
    rw [Dev.takeRow_of_entry ((Dev.rowEntry_congr img n vr l.slot).trans entry), Dev.band_setBand, if_pos rfl, tfind_tput_same]
  rw [Dev.broadcast_eq]
  refine forEach_establishes (fun t : Dev => t.img = d.img)
    (fun t : Dev => tfind (t.band n e.plane).rows (bandKey vr row) = some (en.samples l src row)) mem rfl
    (fun n' t img => (Dev.takeRow_kept t e.plane l src vr row n').1.trans img) taken (fun n' t img holds => ?_)
  by_cases same : n = n'
  · exact same ▸ taken t img
  · rw [Dev.takeRow_band_other t e.plane l src vr row same]
    exact holds

/-! ### A plane row that is fetched (R151, R153, R154) -/

/-- The row of the layer that plane row `row` is read from (R140). -/
def Layer.rowWithin (l : Layer) (row : Int) : Nat := (clampI row 0 ((l.height : Int) - 1)).toNat

/-- The layer's columns that the subscribers of a stream need in a view row (R151). -/
def Dev.streamCols (d : Dev) (e : StreamEnt) (l : Layer) (vr : Nat) : List Nat :=
  neededCols l.width ((e.ports.filterMap (fun n => d.rowEntry n vr l.slot)).map (fun en => (en.colBase, en.colWidth)))

/-- The block row of component k that a plane row decodes from. -/
def rowSrc (s : State) (g vr : Nat) (row : Int) (e : StreamEnt) (a : Admitted) (l : Layer) (k : Nat) : RowSrc :=
  compSrc s g ((s.dev.ingG g).rowFrom a l e.plane k (compRow l k (l.rowWithin row))) k (compRow l k (l.rowWithin row))
    (if k = 3 then alphaBlocks l (s.dev.streamCols e l vr) else neededBlocks l.fmt k (s.dev.streamCols e l vr))

/-- HBM delivers to a unit the section of component k that block row r of the admitted frame's layer is read from. -/
def RowReach (s : State) (g unit p : Nat) (a : Admitted) (l : Layer) (k r : Nat) : Prop :=
  ∀ a' l', (s.dev.ingG g).rowFrom a l p k r = some (a', l') →
    ReadsReach s.dev unit (s.dev.blockSecure 3) (s.dev.compBase g a' l' k) (max (l'.compEnd k - lget l'.comp k 0) (l'.rawBytes k))

/-- A fetch of such a block row brings its bytes, after others that changed nothing but pseudo-channels. -/
theorem RowReach.fetchReads {s u : State} {g unit p k r y : Nat} {a : Admitted} {l : Layer} {cols : List Nat}
    (reach : RowReach s g unit p a l k r) (only : OnlyPch s u) (dims : dimsValid l.fmt l.width l.height = true)
    (columns : ∀ x ∈ cols, x < l.width) (row : fmtCompressed l.fmt = false → y < compHeight l.fmt l.height k) (blocks : List Nat)
    (decoded : Nat → Bool) :
    let z := fetchReads u g unit ((s.dev.ingG g).rowFrom a l p k r) k r y blocks cols decoded
    OnlyPch u z.1 ∧ z.2 = true := by
  apply fetchReads_of_reach
  · intro a' l' source
    have section_ := only.readsReach (reach a' l' source)
    obtain ⟨x, rfl⟩ := only
    exact section_
  · intro a' l' source uncompressed
    obtain ⟨fmt, width, height⟩ := IngGroup.rowFrom_layer source
    rw [fmt, width, height]
    rw [fmt] at uncompressed
    exact ⟨row uncompressed, fun x hx => lt_compWidth_mul_subX k dims (columns x hx)⟩

/-- A row whose bytes all come is decoded, enters the bands, and the streams' leads are looked at. -/
theorem fetchRow_eq_broadcast {s : State} {g i vr : Nat} {row : Int} {e : StreamEnt} {a : Admitted} {l : Layer}
    (entry : s.dev.streamEnt g i = some e) (group : e.group = g) (scan : (s.dev.ingG g).scan = some a)
    (layer : s.dev.layerAt g e.plane = some l) (sampled : ∃ n ∈ e.ports, (s.dev.rowEntry n vr l.slot).isSome = true)
    (room : ∀ n ∈ e.ports, (s.dev.band n e.plane).rows.length < 8) (dims : dimsValid l.fmt l.width l.height = true)
    (reach : ∀ k < 4, ∀ r, (r = compRow l k (l.rowWithin row) ∨ k = 3 ∧ r < blockRows l.height) → RowReach s g e.unit e.plane a l k r) :
    ∃ (u : State) (decode leads : Dev → Dev), OnlyPch s u ∧ (∀ d, BandsKept d (decode d)) ∧ (∀ d, BandsKept d (leads d)) ∧
      fetchRow s g i vr row = onDev u (fun d => leads ((decode d).broadcast e l (rowSrc s g vr row e a l) vr row)) := by
  unfold fetchRow
  rw [entry, scan]
  dsimp -zeta only
  rw [layer]
  dsimp -zeta only
  extract_lets subs full x yc cols needed from_ src alpha under dec other alphaReads reads s1 s2 s3
  have height : 0 < l.height := by
    simp only [dimsValid, Bool.and_eq_true, decide_eq_true_eq] at dims
    omega
  have some_ : subs.isEmpty = false := by
    obtain ⟨n, mem, is⟩ := sampled
    obtain ⟨en, eq⟩ := Option.isSome_iff_exists.mp is
    exact List.isEmpty_eq_false_iff_exists_mem.mpr ⟨en, List.mem_filterMap.mpr ⟨n, mem, eq⟩⟩
  have notFull : full = false := List.any_eq_false.mpr (fun n mem => by simpa using room n mem)
  have alphaArrives : OnlyPch s alphaReads.1 ∧ alphaReads.2 = true := by
    refine forEach_fetches (st := (s, true))
      (f := fun r u => fetchReads u g e.unit (x.rowFrom a l e.plane 3 r) 3 r (4 * r) (needed 3) cols (dec 3))
      ⟨OnlyPch.refl s, rfl⟩ (fun r hr u only => ?_)
    obtain ⟨below, compressed⟩ := List.mem_filter.mp hr
    have inPlane : r < blockRows l.height := by simpa using (List.mem_filter.mp below).2
    exact (reach 3 (by decide) r (.inr ⟨rfl, inPlane⟩)).fetchReads only dims neededCols_lt
      (fun uncompressed => by simp [uncompressed] at compressed) _ _
  have arrive : OnlyPch s reads.1 ∧ reads.2 = true := by
    refine forEach_fetches
      (f := fun k u => fetchReads u g e.unit (from_ k) k (compRow l k yc) (yc / subY l.fmt k) (needed k) cols (dec k))
      alphaArrives (fun k hk u only => ?_)
    have component : k < 4 := by simp at hk; omega
    exact (reach k component _ (.inl rfl)).fetchReads only dims neededCols_lt
      (fun _ => div_subY_lt_compHeight k dims (clampI_row_lt height row)) _ _
  rw [if_neg (by simp [group, some_, notFull]), if_neg (by simp [arrive.2])]
  obtain ⟨decode, decoded, afterDecode⟩ : ∃ decode : Dev → Dev, (∀ d, BandsKept d (decode d)) ∧ s2 = onDev s1 decode :=
    ⟨_, fun d => forUp_keeps (BandsKept d) _ _ _ (BandsKept.refl d) (fun k d' kept => (kept.firstDecode _ _ _).emptyRow _ _), rfl⟩
  have afterBroadcast : s3 = onDev s1 (fun d => (decode d).broadcast e l (rowSrc s g vr row e a l) vr row) := by
    rw [show s3 = onDev s2 (fun d => d.broadcast e l src vr row) from rfl, afterDecode]
    rfl
  clear_value s3
  subst afterBroadcast
  split
  · next ln _ => exact ⟨s1, decode, fun d => d.bellowsOf ln i e, arrive.1, decoded, fun d => (BandsKept.refl d).bellowsOf ln i e, rfl⟩
  · exact ⟨s1, decode, id, arrive.1, decoded, BandsKept.refl, rfl⟩

theorem exec_bandRowFetch (g i vr : Nat) (row : Int) {s : State} (runs : s.dev.rayRuns = true) :
    exec (.bandRowFetch g i vr row) s = .next (fetchRow s g i vr row) := by
  rw [show exec (.bandRowFetch g i vr row) s = execBandRowFetch g i vr row s from rfl, execBandRowFetch, if_pos runs]

/-- Settles O23: every byte that the decode reads lies in a section that HBM delivers, so that the row is broadcast; what runs before and
after the broadcast leaves the bands. -/
theorem bandRowArrives : Obligations.BandRowArrives := by
  unfold Obligations.BandRowArrives
  intro g i vr row e a l s runs entry group scan layer sampled room dims y cols src reach
  obtain ⟨u, decode, leads, ⟨pch, rfl⟩, decoded, led, fetched⟩ := fetchRow_eq_broadcast entry group scan layer sampled room dims reach
  rw [exec_bandRowFetch g i vr row runs, fetched]
  have before := decoded { s.dev with pch := pch }
  have after := led ((decode { s.dev with pch := pch }).broadcast e l src vr row)
  obtain ⟨-, link, jobs, scn⟩ := Dev.broadcast_kept (decode { s.dev with pch := pch }) e l src vr row
  refine ⟨_, rfl, ⟨rfl, rfl, rfl, rfl⟩, after.link.trans (link.trans before.link), after.jobs.trans (jobs.trans before.jobs),
    after.scn.trans (scn.trans before.scn), fun n mem en sampledBy => ?_⟩
  have kept : (leads ((decode { s.dev with pch := pch }).broadcast e l src vr row)).band n e.plane =
      ((decode { s.dev with pch := pch }).broadcast e l src vr row).band n e.plane := by rw [Dev.band, after.bands, Dev.band]
  exact (congrArg (fun b => tfind b.rows (bandKey vr row)) kept).trans
    (Dev.broadcast_band mem ((Dev.rowEntry_congr before.img n vr l.slot).trans sampledBy) src row)

end Sys2Proof.Machine
end

section
/-!
Writes of RAY_SPARE_CTRL and RAY_BELLOWS_WM (04_ray_synthesis.md R165, R169): a takeover command for a failed slice whose spare stands
by, the bellows watermarks, and statement O22.
-/
namespace Sys2Proof.Machine

/-! ### A command word with one of its bits set -/

theorem testBit_withBit_same (v k : Nat) : (withBit v k).testBit k = true := by
  unfold withBit bit
  split
  · assumption
  · next clear => rw [Nat.add_comm, Nat.testBit_two_pow_add_eq, Bool.eq_false_iff.mpr clear, Bool.not_false]

theorem testBit_withBit_below (v : Nat) {j k : Nat} (below : j < k) : (withBit v k).testBit j = v.testBit j := by
  unfold withBit
  split
  · rfl
  · rw [Nat.add_comm, Nat.testBit_two_pow_add_gt below]

theorem withBit_mod_two_pow (v : Nat) {n k : Nat} (below : n ≤ k) : withBit v k % 2 ^ n = v % 2 ^ n := by
  unfold withBit
  split
  · rfl
  · obtain ⟨m, power⟩ := Nat.pow_dvd_pow 2 below
    rw [power, Nat.add_mul_mod_self_left]

/-! ### A takeover command (R165) -/

theorem Dev.servedBy_eq_none_iff (d : Dev) (n : Nat) : d.servedBy n = none ↔ d.rd RAY_PORT_SLICE.served n = 0 := by
  rw [Dev.servedBy, Dev.rdb_eq]
  by_cases served : d.rd RAY_PORT_SLICE.served n = 0 <;> simp [served]

theorem Dev.spareStands_pledge (d : Dev) (sl : Nat) : (d.pledge sl).spareStands (sl / 25) = false :=
  Dev.rdBit_wrBit_false _ RAY_STATUS.spares_free (sl / 25) 0 0

/-- No slice's or port's status has the cell of RAY_SPARE_CTRL.slice, whatever its number: the field's lowest bit is another. -/
theorem spareCtrl_cell_apart (sl n : Nat) : RAY_SLICE_STATUS.state.key sl 0 ≠ RAY_SPARE_CTRL.slice.key 0 0 ∧
    RAY_PORT_SLICE.served.key n 0 ≠ RAY_SPARE_CTRL.slice.key 0 0 := by
  simp only [Fld.key, RAY_SLICE_STATUS.state, RAY_PORT_SLICE.served, RAY_SPARE_CTRL.slice]
  omega

theorem Dev.manualTakeover_eq_pledge {d : Dev} {sl n : Nat} (failed : d.sliceState sl = 2) (noSpare : sl % 25 ≠ 24)
    (port : tfind d.ray.takeover sl = some n) (unserved : d.servedBy n = none) (stands : d.spareStands (sl / 25) = true) :
    d.manualTakeover sl = d.pledge sl := by
  rw [Dev.manualTakeover, port]
  exact if_pos ⟨failed, noSpare, unserved, stands⟩

theorem Dev.spareWrite_takeover (d : Dev) {v : Nat} (inRange : v % 128 < 100) (noForce : v.testBit 30 = false) :
    d.spareWrite (withBit v 31) = (d.wr RAY_SPARE_CTRL.slice (v % 128)).manualTakeover (v % 128) := by
  have number : withBit v 31 % 128 = v % 128 := withBit_mod_two_pow v (n := 7) (by decide)
  have force : bit (withBit v 31) 30 = false := (testBit_withBit_below v (by decide)).trans noForce
  have command : bit (withBit v 31) 31 = true := testBit_withBit_same v 31
  rw [Dev.spareWrite, number, force, command, if_neg (by omega)]
  rfl

/-- The store of the slice number leaves what the command looks at. -/
theorem Dev.spareWrite_eq_pledge {d : Dev} {v n : Nat} (noForce : v.testBit 30 = false) (inRange : v % 128 < 100)
    (noSpare : v % 128 % 25 ≠ 24) (failed : d.sliceState (v % 128) = 2) (port : tfind d.ray.takeover (v % 128) = some n)
    (unserved : d.servedBy n = none) (stands : d.spareStands (v % 128 / 25) = true) :
    d.spareWrite (withBit v 31) = (d.wr RAY_SPARE_CTRL.slice (v % 128)).pledge (v % 128) := by
  obtain ⟨state, served⟩ := spareCtrl_cell_apart (v % 128) n
  rw [Dev.spareWrite_takeover d inRange noForce]
  refine Dev.manualTakeover_eq_pledge ((Dev.rd_wr_ne d _ state).trans failed) noSpare port ?_ ?_
  · rw [Dev.servedBy_eq_none_iff] at unserved ⊢
    exact (Dev.rd_wr_ne d _ served).trans unserved
  · exact (Dev.rdBit_congr _ (Dev.wr_cells _ _ _ _ _ _ (by decide))).trans stands

theorem exec_sliceTakeoverCmd {who : Initiator} (v : Nat) {s : State}
    (lets : Lets (settled who (RAY_SPARE_CTRL.ent.at_ 0 0) s) who RAY_SPARE_CTRL.ent 0 0) :
    exec (.sliceTakeoverCmd who v) s =
      .next (onDev (settled who (RAY_SPARE_CTRL.ent.at_ 0 0) s) (fun d => d.spareWrite (withBit v 31))) := by
  rw [show exec (.sliceTakeoverCmd who v) s = execSliceTakeoverCmd who v s from rfl, execSliceTakeoverCmd, rowWrite, rowBefore, onDev,
    Dev.gate_done _ lets, onDev]

/-! ### The bellows watermarks (R169) -/

theorem Dev.bellowsWrite_dropped (d : Dev) {v : Nat} (order : v / 16 % 8 ≤ v % 8) : d.bellowsWrite v = d := by
  rw [Dev.bellowsWrite]
  exact if_pos (by simpa [bits] using order)

theorem Dev.bellowsWrite_taken (d : Dev) {v : Nat} (order : v % 8 < v / 16 % 8) :
    d.bellowsWrite v = (d.wr RAY_BELLOWS_WM.high (v / 16 % 8)).wr RAY_BELLOWS_WM.low (v % 8) := by
  have low : bits v 2 0 = v % 8 := by simp [bits]
  rw [Dev.bellowsWrite, low]
  exact if_neg (Nat.not_le.mpr order)

theorem exec_bellowsWmWrite {who : Initiator} (v : Nat) {s : State}
    (lets : Lets (settled who (RAY_BELLOWS_WM.ent.at_ 0 0) s) who RAY_BELLOWS_WM.ent 0 0) :
    exec (.bellowsWmWrite who v) s = .next (onDev (settled who (RAY_BELLOWS_WM.ent.at_ 0 0) s) (fun d => d.bellowsWrite v)) := by
  rw [show exec (.bellowsWmWrite who v) s = execBellowsWmWrite who v s from rfl, execBellowsWmWrite, rowWrite, rowBefore, onDev,
    Dev.gate_done _ lets, onDev]

/-- Settles O22: the command stores the slice number, which leaves the conditions of R165, and pledges the spare; a write of the
watermarks is two stores or none. -/
theorem takeoverAndBellows : Obligations.TakeoverAndBellows := by
  unfold Obligations.TakeoverAndBellows
  constructor
  · intro who v n s u sl lets noForce inRange noSpare failed port unserved stands
    have pledged := Dev.spareWrite_eq_pledge noForce inRange noSpare failed port unserved stands
    refine ⟨onDev u (fun d => (d.wr RAY_SPARE_CTRL.slice sl).pledge sl), ?_, Dev.spareStands_pledge _ sl, fun k apart => ?_, rfl⟩
    · rw [exec_sliceTakeoverCmd v lets, onDev, pledged]
      rfl
    · obtain ⟨number, free⟩ : k ≠ RAY_SPARE_CTRL.slice.key 0 0 ∧ k ≠ RAY_STATUS.spares_free.key 0 0 := by simpa using apart
      exact (Dev.wrBit_cells _ _ _ _ _ _ _ free).trans (Dev.wr_cells _ _ _ _ _ _ number)
  · intro who v s u lets
    refine ⟨fun order => ?_, fun order => ?_⟩
    · rw [exec_bellowsWmWrite v lets, onDev, Dev.bellowsWrite_dropped _ order]
    · refine ⟨onDev u (fun d => (d.wr RAY_BELLOWS_WM.high (v / 16 % 8)).wr RAY_BELLOWS_WM.low (v % 8)), ?_, ⟨rfl, fun k apart => ?_⟩,
        ?_, ?_⟩
      · rw [exec_bellowsWmWrite v lets, onDev, Dev.bellowsWrite_taken _ order]
        rfl
      · obtain ⟨high, low⟩ : k ≠ RAY_BELLOWS_WM.high.key 0 0 ∧ k ≠ RAY_BELLOWS_WM.low.key 0 0 := by simpa using apart
        exact (Dev.wr_cells _ _ _ _ _ _ low).trans (Dev.wr_cells _ _ _ _ _ _ high)
      · exact ((Dev.rd_wr_ne _ _ (by decide)).trans (Dev.rd_wr_same _ _ _ _ _)).trans (Nat.mod_mod _ _)
      · exact (Dev.rd_wr_same _ _ _ _ _).trans (Nat.mod_mod _ _)

end Sys2Proof.Machine
end

section
/-!
Composition's registers (05_composition.md R179, R183, R199): pending transfer sets, dither, palette entries, and statement O24.
-/
namespace Sys2Proof.Machine

/-! ### A row's write that the fabric lets through -/

theorem rowWrite_of_lets {who : Initiator} {e : RegEnt} {i j : Nat} {s : State} (f : Dev → Dev)
    (lets : Lets (settled who (e.at_ i j) s) who e i j) : rowWrite s who e i j f = onDev (settled who (e.at_ i j) s) f := by
  rw [rowWrite, rowBefore, onDev, Dev.gate_done f lets, onDev]

theorem exec_pendingXferWrite {who : Initiator} {n : Nat} (v : Nat) {s : State}
    (lets : Lets (settled who (CMP_PORT_SEL.ent.at_ n 0) s) who CMP_PORT_SEL.ent n 0) :
    exec (.pendingXferWrite who n v) s = .next (onDev (settled who (CMP_PORT_SEL.ent.at_ n 0) s) (fun d => d.portSelWrite n v)) :=
  congrArg Host.Outcome.next (rowWrite_of_lets _ lets)

theorem exec_ditherOffWrite {who : Initiator} {n : Nat} (v : Nat) {s : State}
    (lets : Lets (settled who (CMP_PORT_SEL.ent.at_ n 0) s) who CMP_PORT_SEL.ent n 0) :
    exec (.ditherOffWrite who n v) s = .next (onDev (settled who (CMP_PORT_SEL.ent.at_ n 0) s) (fun d => d.portSelWrite n v)) :=
  congrArg Host.Outcome.next (rowWrite_of_lets _ lets)

theorem exec_paletteWrite_low {who : Initiator} {bank e : Nat} (v : Nat) {s : State}
    (lets : Lets (settled who (CMP_OVL_PAL_LO.ent.at_ bank e) s) who CMP_OVL_PAL_LO.ent bank e) :
    exec (.paletteWrite who bank e false v) s =
      .next (onDev (settled who (CMP_OVL_PAL_LO.ent.at_ bank e) s) (fun d =>
        (d.wr CMP_OVL_PAL_LO.g (v / 65536) bank e).wr CMP_OVL_PAL_LO.b (v % 65536) bank e)) :=
  congrArg Host.Outcome.next (rowWrite_of_lets _ lets)

theorem exec_paletteWrite_high {who : Initiator} {bank e : Nat} (v : Nat) {s : State}
    (lets : Lets (settled who (CMP_OVL_PAL_HI.ent.at_ bank e) s) who CMP_OVL_PAL_HI.ent bank e) :
    exec (.paletteWrite who bank e true v) s =
      .next (onDev (settled who (CMP_OVL_PAL_HI.ent.at_ bank e) s) (fun d =>
        (d.wr CMP_OVL_PAL_HI.a (v / 65536) bank e).wr CMP_OVL_PAL_HI.r (v % 65536) bank e)) :=
  congrArg Host.Outcome.next (rowWrite_of_lets _ lets)

/-! ### Two fields of one register -/

/-- Two fields of one entry of a register, which start at different bits, have cells of their own. -/
theorem Fld.key_ne_of_lo {f g : Fld} {i j i' j' : Nat} (fits : f.lo < 32) (fits' : g.lo < 32) (apart : f.lo ≠ g.lo) :
    f.key i j ≠ g.key i' j' := by
  simp only [Fld.key]
  omega

theorem wr_onlyCells (s : State) (f : Fld) (v i j : Nat) {keys : List Nat} (listed : f.key i j ∈ keys) :
    OnlyCells s (onDev s (fun d => d.wr f v i j)) keys :=
  ⟨rfl, fun _ outside => Dev.wr_cells _ _ _ _ _ _ (fun same => outside (same ▸ listed))⟩

/-- Two stores change their two cells, and each field holds what was stored. -/
theorem wr_wr_onlyCells (s : State) {f g : Fld} (v w i j : Nat) (apart : f.key i j ≠ g.key i j) :
    OnlyCells s (onDev s (fun d => (d.wr f v i j).wr g w i j)) [f.key i j, g.key i j] ∧
    ((s.dev.wr f v i j).wr g w i j).rd f i j = v % 2 ^ f.w ∧ ((s.dev.wr f v i j).wr g w i j).rd g i j = w % 2 ^ g.w := by
  refine ⟨⟨rfl, fun k outside => ?_⟩, ?_, Dev.rd_wr_same _ _ _ _ _⟩
  · obtain ⟨first, second⟩ : k ≠ f.key i j ∧ k ≠ g.key i j := by simpa using outside
    exact (Dev.wr_cells _ _ _ _ _ _ second).trans (Dev.wr_cells _ _ _ _ _ _ first)
  · rw [Dev.rd_wr_ne _ _ apart, Dev.rd_wr_same]

/-! ### The writes -/

theorem Dev.portSelWrite_of_listed {d : Dev} {n v : Nat} (listed : v % 8 < d.xferSets (d.portGroup n)) :
    d.portSelWrite n v = (d.wr CMP_PORT_SEL.dither_off (b2n (v.testBit 8)) n).wr CMP_PORT_SEL.pending_xfer (v % 8) n := if_pos listed

theorem Dev.portSelWrite_of_unlisted {d : Dev} {n v : Nat} (unlisted : ¬ v % 8 < d.xferSets (d.portGroup n)) :
    d.portSelWrite n v = d.wr CMP_PORT_SEL.dither_off (b2n (v.testBit 8)) n := if_neg unlisted

theorem b2n_mod_two (b : Bool) : b2n b % 2 = b2n b := by cases b <;> rfl

/-- What a write of CMP_PORT_SEL[n] leaves (R179, R199). -/
theorem portSelWrite_stores (u : State) (n v : Nat) :
    OnlyCells u (onDev u (fun d => d.portSelWrite n v)) [CMP_PORT_SEL.dither_off.key n 0, CMP_PORT_SEL.pending_xfer.key n 0] ∧
    (u.dev.portSelWrite n v).rd CMP_PORT_SEL.dither_off n = b2n (v.testBit 8) ∧
    (u.dev.portSelWrite n v).rd CMP_PORT_SEL.pending_xfer n =
      (if v % 8 < u.dev.xferSets (u.dev.portGroup n) then v % 8 else u.dev.rd CMP_PORT_SEL.pending_xfer n) := by
  have apart : CMP_PORT_SEL.dither_off.key n 0 ≠ CMP_PORT_SEL.pending_xfer.key n 0 :=
    Fld.key_ne_of_lo (by decide) (by decide) (by decide)
  rw [onDev]
  by_cases listed : v % 8 < u.dev.xferSets (u.dev.portGroup n)
  · rw [Dev.portSelWrite_of_listed listed, if_pos listed]
    obtain ⟨only, dither, pending⟩ := wr_wr_onlyCells u (b2n (v.testBit 8)) (v % 8) n 0 apart
    exact ⟨only, dither.trans (b2n_mod_two _), pending.trans (Nat.mod_mod v 8)⟩
  · rw [Dev.portSelWrite_of_unlisted listed, if_neg listed]
    exact ⟨wr_onlyCells u _ _ _ _ (by simp), (Dev.rd_wr_same _ _ _ _ _).trans (b2n_mod_two _), Dev.rd_wr_ne _ _ apart.symm⟩

/-- Settles O24: each write is one or two stores to fields of its own register. -/
theorem composeWrites : Obligations.ComposeWrites := by
  unfold Obligations.ComposeWrites
  constructor
  · intro who n v s u lets
    exact ⟨_, exec_pendingXferWrite v lets, exec_ditherOffWrite v lets, portSelWrite_stores u n v⟩
  · intro who bank e v s
    constructor
    · intro u lets
      obtain ⟨only, green, blue⟩ := wr_wr_onlyCells u (f := CMP_OVL_PAL_LO.g) (g := CMP_OVL_PAL_LO.b) (v / 65536) (v % 65536) bank e
        (Fld.key_ne_of_lo (by decide) (by decide) (by decide))
      exact ⟨_, exec_paletteWrite_low v lets, only, green, blue.trans (Nat.mod_mod v 65536)⟩
    · intro u lets
      obtain ⟨only, alpha, red⟩ := wr_wr_onlyCells u (f := CMP_OVL_PAL_HI.a) (g := CMP_OVL_PAL_HI.r) (v / 65536) (v % 65536) bank e
        (Fld.key_ne_of_lo (by decide) (by decide) (by decide))
      exact ⟨_, exec_paletteWrite_high v lets, only, alpha, red.trans (Nat.mod_mod v 65536)⟩

end Sys2Proof.Machine
end

section
/-!
Sensor maps (05_composition.md R189 to R192, 09_memory_arbitration.md R362): commits, the check of a buffer's header and body, and
statement O25.
-/
namespace Sys2Proof.Machine

/-! ### What an event leaves -/

@[simp] theorem Dev.raise_cmp (d : Dev) (n : Nat) (force : Bool) : (d.raise n force).cmp = d.cmp := by rw [(Dev.raise_frame d n force).1]

/-- Outside its status cell an event changes no register but those of the recorder that a trigger reaches. -/
theorem Dev.raise_cells (d : Dev) {n k : Nat} (force : Bool) (status : k ≠ evKey n) (recorder : k ∉ recorderCells) :
    tfind (d.raise n force).regs k = tfind d.regs k := by
  simp only [Dev.raise, Dev.raiseAt]
  cases position : evPos n with
  | none => rfl
  | some p =>
    have key : evKey n = p.st.key p.inst 0 := by simp only [evKey, position]
    have set := Dev.wrBit_cells d p.st p.bit true p.inst 0 k (key ▸ status)
    have sent (b : Bool) : tfind (if b then (d.wrBit p.st p.bit true p.inst).message n else d.wrBit p.st p.bit true p.inst).regs k =
        tfind d.regs k := by
      cases b
      · exact set
      · exact (congrArg (tfind · k) (Dev.message_regs _ n)).trans set
    dsimp only
    split
    · exact (Dev.trigger_cells _ _ _ recorder).trans (sent _)
    · exact sent _

theorem Dev.eventSet_raise_of_evPos (d : Dev) {n : Nat} {p : EvPos} (position : evPos n = some p) (force : Bool) :
    (d.raise n force).eventSet n = true := by
  obtain ⟨-, inField, -⟩ := eventReg_of_evPos position
  simp only [Dev.eventSet, position]
  rw [Dev.raise, Dev.rdBit_raiseAt d position (eventStatus_apart position).1 _ _ inField, decide_eq_true rfl, Bool.or_true]

/-! ### A rejection (R189) -/

/-- CMP_MAP_STATUS is no register that MAP_REJECT reaches, whatever the port: its words lie 8 bytes past a multiple of 32. -/
theorem mapStatus_apart {f : Fld} (n : Nat) (word : f.addr = CMP_MAP_STATUS.baseAddr) (stride : f.s1 = 32) (fits : f.lo < 32) :
    f.key n 0 ≠ evKey 129 ∧ f.key n 0 ∉ recorderCells := by
  have status : evKey 129 = 0x00400080 * 32 := by decide
  have recorder : recorderCells =
      [0x00F0001C * 32, 0x00F000A4 * 32 + 31, 0x00F000A4 * 32, 0x00F000A0 * 32 + 31, 0x00F000A0 * 32] := by decide
  rw [status, recorder]
  simp only [Fld.key, word, stride, CMP_MAP_STATUS.baseAddr, List.mem_cons, List.not_mem_nil, or_false]
  omega

theorem Dev.mapReject_cmp (d : Dev) (n code : Nat) : (d.mapReject n code).cmp = d.cmp := Dev.raise_cmp _ _ _

theorem Dev.mapReject_reports (d : Dev) (n : Nat) {code : Nat} (small : code < 2 ^ 8) :
    (d.mapReject n code).rd CMP_MAP_STATUS.reject n = code ∧ (d.mapReject n code).eventSet 129 = true ∧
    (d.mapReject n code).cmp = d.cmp := by
  obtain ⟨status, recorder⟩ := mapStatus_apart (f := CMP_MAP_STATUS.reject) n rfl rfl (by decide)
  refine ⟨?_, Dev.eventSet_raise_of_evPos _ rfl false, Dev.mapReject_cmp d n code⟩
  rw [Dev.mapReject, Dev.rd_congr (Dev.raise_cells _ false status recorder), Dev.rd_wr_same]
  exact Nat.mod_eq_of_lt small

theorem Dev.mapReject_checking (d : Dev) (n code : Nat) :
    (d.mapReject n code).rd CMP_MAP_STATUS.checking n = d.rd CMP_MAP_STATUS.checking n := by
  obtain ⟨status, recorder⟩ := mapStatus_apart (f := CMP_MAP_STATUS.checking) n rfl rfl (by decide)
  rw [Dev.mapReject, Dev.rd_congr (Dev.raise_cells _ false status recorder),
    Dev.rd_wr_ne _ _ (Fld.key_ne_of_lo (by decide) (by decide) (by decide))]

/-! ### MAP_COMMIT (R189, R192) -/

/-- Buffer b is port n's map in force. -/
def Dev.mapHeld (d : Dev) (n b : Nat) : Prop := d.rd CMP_MAP_STATUS.absent n = 0 ∧ d.rd CMP_MAP_STATUS.active_buf n = b

/-- Port n's CMP_MAP_CTRL holds the named buffer's number b. -/
def Dev.mapNamed (d : Dev) (n b : Nat) : Dev := d.wr CMP_MAP_CTRL.buffer b n

/-- Port n's check of buffer b begins; the pending map, where it lies in that buffer, is none any more. -/
def Dev.beginMapCheck (d : Dev) (n b : Nat) : Dev :=
  let d1 := if (tfind d.cmp.pend n).any (fun m => m.buffer == b) then
      ({ d with cmp := { d.cmp with pend := tdel d.cmp.pend n } } : Dev).wr CMP_MAP_STATUS.pending 0 n else d
  ({ d1 with cmp := { d1.cmp with checks := tput d1.cmp.checks n b } } : Dev).wr CMP_MAP_STATUS.checking 1 n

theorem Dev.beginMapCheck_runs (d : Dev) (n b : Nat) :
    tfind (d.beginMapCheck n b).cmp.checks n = some b ∧ (d.beginMapCheck n b).rd CMP_MAP_STATUS.checking n = 1 :=
  ⟨tfind_tput_same _ _ _, Dev.rd_wr_same _ _ _ _ _⟩

theorem Dev.mapHeld_mapNamed (d : Dev) (n a b : Nat) : (d.mapNamed n a).mapHeld n b ↔ d.mapHeld n b := by
  have apart {f : Fld} (word : f.addr = CMP_MAP_STATUS.baseAddr) (stride : f.s1 = 32) (fits : f.lo < 32) :
      f.key n 0 ≠ CMP_MAP_CTRL.buffer.key n 0 := by
    simp only [Fld.key, word, stride, CMP_MAP_STATUS.baseAddr, CMP_MAP_CTRL.buffer]
    omega
  rw [Dev.mapHeld, Dev.mapHeld, Dev.mapNamed, Dev.rd_wr_ne _ _ (apart rfl rfl (by decide)), Dev.rd_wr_ne _ _ (apart rfl rfl (by decide))]

/-- A commit for an active port, case by case. -/
theorem Dev.mapCtrlWrite_commit {d : Dev} {n : Nat} (v : Nat) (active : (d.img.port n).isSome = true) :
    (d.mapHeld n (v % 2) → d.mapCtrlWrite n (withBit v 31) = (d.mapNamed n (v % 2)).mapReject n 6) ∧
    (¬ d.mapHeld n (v % 2) → (tfind d.cmp.checks n).isSome = true →
      d.mapCtrlWrite n (withBit v 31) = (d.mapNamed n (v % 2)).mapReject n 7) ∧
    (¬ d.mapHeld n (v % 2) → tfind d.cmp.checks n = none →
      d.mapCtrlWrite n (withBit v 31) = (d.mapNamed n (v % 2)).beginMapCheck n (v % 2)) := by
  have buffer : withBit v 31 % 2 = v % 2 := withBit_mod_two_pow v (n := 1) (by decide)
  have command : ¬ (bit (withBit v 31) 31 = false ∨ (d.img.port n).isNone = true) := by
    rw [show bit (withBit v 31) 31 = true from testBit_withBit_same v 31]
    simp [Option.isSome_iff_ne_none.mp active]
  have held_iff : (d.mapNamed n (v % 2)).rdb CMP_MAP_STATUS.absent n = false ∧
      (d.mapNamed n (v % 2)).rd CMP_MAP_STATUS.active_buf n = v % 2 ↔ d.mapHeld n (v % 2) := by
    rw [← Dev.mapHeld_mapNamed d n (v % 2), Dev.mapHeld, Dev.rdb_eq, bne_eq_false_iff_eq]
  rw [Dev.mapCtrlWrite, buffer, if_neg command]
  refine ⟨fun held => if_pos (held_iff.mpr held), fun unheld runs => ?_, fun unheld idle => ?_⟩
  · exact (if_neg (fun held => unheld (held_iff.mp held))).trans (if_pos runs)
  · have none_runs : ¬ (tfind (d.mapNamed n (v % 2)).cmp.checks n).isSome = true := by simp [Dev.mapNamed, idle]
    exact (if_neg (fun held => unheld (held_iff.mp held))).trans (if_neg none_runs)

theorem exec_mapCommit {who : Initiator} {n : Nat} (v : Nat) {s : State}
    (lets : Lets (settled who (CMP_MAP_CTRL.ent.at_ n 0) s) who CMP_MAP_CTRL.ent n 0) :
    exec (.mapCommit who n v) s =
      .next (onDev (settled who (CMP_MAP_CTRL.ent.at_ n 0) s) (fun d => d.mapCtrlWrite n (withBit v 31))) :=
  congrArg Host.Outcome.next (rowWrite_of_lets _ lets)

/-! ### The tests of a header (R189) -/

/-- Magic, version or a reserved field is wrong. -/
abbrev headerForeign (h : List Byte) : Prop :=
  beAt h 0 4 ≠ 0x554D4150 ∨ beAt h 4 2 ≠ 1 ∨ beAt h 7 1 ≠ 0 ∨ beAt h 0x28 24 ≠ 0

/-- Width, height or a coding byte is not port n's. -/
abbrev headerMisshapen (d : Dev) (n : Nat) (h : List Byte) : Prop :=
  beAt h 8 2 ≠ d.lineRays n / 4 ∨ beAt h 10 2 ≠ 4 * d.nActive (d.portGroup n) ∨ beAt h 15 1 ≠ 0 ∨
    ∃ k < 3, bits (beAt h (12 + k) 1) 6 4 ≠ 0

/-- The sections lie wrong, or the map passes the buffer's extent or port n's map read limit. -/
abbrev headerMisplaced (d : Dev) (n extent : Nat) (h : List Byte) : Prop :=
  let o := fun k => beAt h (0x10 + 4 * k) 4
  let stop := 0x40 + beAt h 0x1C 4
  o 0 < 0x40 ∨ o 1 ≤ o 0 ∨ o 2 ≤ o 1 ∨ stop ≤ o 2 ∨ extent < stop ∨ tget d.img.mem.mapLimit n 0 < beAt h 0x1C 4

/-- The header's code is that of the first test that fails. -/
theorem Dev.mapHeaderCode_eq (d : Dev) (n extent : Nat) (h : List Byte) :
    d.mapHeaderCode n extent h =
      if headerForeign h then 1 else if beAt h 6 1 ≠ n then 2 else if headerMisshapen d n h then 3
      else if headerMisplaced d n extent h then 4 else 0 := by
  have coding : (List.range 3).any (fun k => bits (beAt h (12 + k) 1) 6 4 != 0) = true ↔
      ∃ k < 3, bits (beAt h (12 + k) 1) 6 4 ≠ 0 := by simp only [List.any_eq_true, List.mem_range, bne_iff_ne]
  simp only [Dev.mapHeaderCode, coding]

/-! ### The check, as its reads, its verdict and its end -/

/-- The check's read of the header. -/
def mapHeaderRead (s : State) (n b : Nat) : State × Bool × List Byte :=
  readHbmStop s 19 (s.dev.blockSecure 4) (s.dev.mapBuf n b).1 64

/-- Its read of the body, as long as the header says. -/
def mapBodyRead (s : State) (n b : Nat) : State × Bool × List Byte :=
  readHbmStop (mapHeaderRead s n b).1 19 (s.dev.blockSecure 4) ((s.dev.mapBuf n b).1 + 0x40) (beAt (mapHeaderRead s n b).2.2 0x1C 4)

/-- The code that the header brings, or 0. -/
def mapHeaderVerdict (s : State) (n b : Nat) : Nat :=
  if (mapHeaderRead s n b).2.1 then 8 else s.dev.mapHeaderCode n (s.dev.mapBuf n b).2 (mapHeaderRead s n b).2.2

/-- The code that the body brings, or 0. -/
def mapBodyVerdict (s : State) (n b : Nat) : Nat :=
  if (mapBodyRead s n b).2.1 then 8
  else if crc32 ((mapBodyRead s n b).2.2.map (fun x => x.toNat)) ≠ beAt (mapHeaderRead s n b).2.2 0x20 4 then 5
  else 0

/-- The check's code, 0 where the map passes. -/
def mapVerdict (s : State) (n b : Nat) : Nat := if mapHeaderVerdict s n b ≠ 0 then mapHeaderVerdict s n b else mapBodyVerdict s n b

/-- The state once the check has read what it reads: no body after a header that fails. -/
def mapChecked (s : State) (n b : Nat) : State := if mapHeaderVerdict s n b ≠ 0 then (mapHeaderRead s n b).1 else (mapBodyRead s n b).1

/-- Port n's running check is over. -/
def Dev.stopCheck (d : Dev) (n : Nat) : Dev :=
  ({ d with cmp := { d.cmp with checks := tdel d.cmp.checks n } } : Dev).wr CMP_MAP_STATUS.checking 0 n

/-- Map m is pending for port n. -/
def Dev.mapPending (d : Dev) (n : Nat) (m : MapDesc) : Dev :=
  ({ d with cmp := { d.cmp with pend := tput d.cmp.pend n m } } : Dev).wr CMP_MAP_STATUS.pending 1 n

/-- Port n's check of map m ends with this code. -/
def Dev.endCheck (d : Dev) (n code : Nat) (m : MapDesc) : Dev :=
  if code ≠ 0 then (d.stopCheck n).mapReject n code else (d.stopCheck n).mapPending n m

theorem mapCheck_eq (s : State) (n b : Nat) :
    mapCheck s n b = onDev (mapChecked s n b) (fun d => d.endCheck n (mapVerdict s n b) (mapDesc b (mapHeaderRead s n b).2.2)) := by
  have unfolded : mapCheck s n b =
      if mapHeaderVerdict s n b ≠ 0 then onDev (mapHeaderRead s n b).1 (fun d => (d.stopCheck n).mapReject n (mapHeaderVerdict s n b))
      else if (mapBodyRead s n b).2.1 then onDev (mapBodyRead s n b).1 (fun d => (d.stopCheck n).mapReject n 8)
      else if crc32 ((mapBodyRead s n b).2.2.map (fun x => x.toNat)) ≠ beAt (mapHeaderRead s n b).2.2 0x20 4 then
        onDev (mapBodyRead s n b).1 (fun d => (d.stopCheck n).mapReject n 5)
      else onDev (mapBodyRead s n b).1 (fun d => (d.stopCheck n).mapPending n (mapDesc b (mapHeaderRead s n b).2.2)) := rfl
  rw [unfolded, mapChecked, mapVerdict]
  by_cases header : mapHeaderVerdict s n b ≠ 0
  · simp only [if_pos header, Dev.endCheck]
  · simp only [if_neg header, mapBodyVerdict]
    split
    · rfl
    · split <;> rfl

theorem exec_mapCheckDone {n b : Nat} {s : State} (running : tfind s.dev.cmp.checks n = some b) (runs : s.dev.cmpRuns = true) :
    exec (.mapCheckDone n) s = .next (mapCheck s n b) := by
  rw [show exec (.mapCheckDone n) s = execMapCheckDone n s from rfl, execMapCheckDone, running]
  exact congrArg Host.Outcome.next (if_pos runs)

/-! ### The verdict -/

theorem ite_le {c : Prop} [Decidable c] {x y m : Nat} (hx : x ≤ m) (hy : y ≤ m) : (if c then x else y) ≤ m := by
  by_cases hc : c
  · rwa [if_pos hc]
  · rwa [if_neg hc]

theorem Dev.mapHeaderCode_le (d : Dev) (n extent : Nat) (h : List Byte) : d.mapHeaderCode n extent h ≤ 4 := by
  rw [Dev.mapHeaderCode_eq]
  refine ite_le ?_ (ite_le ?_ (ite_le ?_ (ite_le ?_ ?_))) <;> omega

theorem mapVerdict_le (s : State) (n b : Nat) : mapVerdict s n b ≤ 8 := by
  have header := s.dev.mapHeaderCode_le n (s.dev.mapBuf n b).2 (mapHeaderRead s n b).2.2
  have first : mapHeaderVerdict s n b ≤ 8 := ite_le (Nat.le_refl 8) (by omega)
  exact ite_le first (ite_le (Nat.le_refl 8) (ite_le (by decide) (Nat.zero_le 8)))

theorem mapHeaderVerdict_of_read {s : State} {n b : Nat} (came : (mapHeaderRead s n b).2.1 = false) :
    mapHeaderVerdict s n b = s.dev.mapHeaderCode n (s.dev.mapBuf n b).2 (mapHeaderRead s n b).2.2 :=
  if_neg (Bool.eq_false_iff.mp came)

theorem mapVerdict_of_header {s : State} {n b code : Nat} (header : mapHeaderVerdict s n b = code) (fails : code ≠ 0) :
    mapVerdict s n b = code := by
  rw [mapVerdict, header, if_pos fails]

theorem mapVerdict_of_body {s : State} {n b : Nat} (passes : mapHeaderVerdict s n b = 0) :
    mapVerdict s n b = mapBodyVerdict s n b := if_neg (not_not_intro passes)

/-! ### What the reads leave (R362) -/

/-- The stores and composition's own state are as they were. -/
def MapReadKeeps (s t : State) : Prop := SameStores s t ∧ t.dev.cmp = s.dev.cmp

theorem MapReadKeeps.refl (s : State) : MapReadKeeps s s := ⟨⟨rfl, rfl, rfl, rfl⟩, rfl⟩

theorem MapReadKeeps.trans {s t u : State} (h : MapReadKeeps s t) (h' : MapReadKeeps t u) : MapReadKeeps s u := by
  obtain ⟨⟨pending, otp, flash, hbm⟩, cmp⟩ := h
  obtain ⟨⟨pending', otp', flash', hbm'⟩, cmp'⟩ := h'
  exact ⟨⟨pending'.trans pending, otp'.trans otp, flash'.trans flash, hbm'.trans hbm⟩, cmp'.trans cmp⟩

theorem Dev.deny_cmp (d : Dev) (req : Nat) (secure write : Bool) (a : Nat) : (d.deny req secure write a).cmp = d.cmp := by
  rw [Dev.deny, Dev.raise_cmp, (Dev.count_frame _ _ _ _ _ _).1]
  rfl

theorem readOne_keeps (s : State) (req : Nat) (sec : Bool) (a n : Nat) : MapReadKeeps s (readOne s req sec a n).1 := by
  refine ⟨readOne_stores s req sec a n, ?_⟩
  unfold readOne
  split
  · split
    · rfl
    · rw [onDev_dev, Dev.reachDram_only]
  · exact Dev.deny_cmp _ _ _ _ _

theorem readHbmStop_keeps (s : State) (req : Nat) (sec : Bool) (a n : Nat) (down : Bool) :
    MapReadKeeps s (readHbmStop s req sec a n down).1 := by
  unfold readHbmStop
  split
  · exact MapReadKeeps.refl s
  · refine forUp_keeps (fun st : State × Bool × List Byte => MapReadKeeps s st.1) _ _ _ (MapReadKeeps.refl s) (fun i st kept => ?_)
    dsimp only
    split
    · exact kept
    · exact kept.trans (readOne_keeps st.1 _ _ _ _)

theorem mapChecked_keeps (s : State) (n b : Nat) : MapReadKeeps s (mapChecked s n b) := by
  have header : MapReadKeeps s (mapHeaderRead s n b).1 := readHbmStop_keeps _ _ _ _ _ _
  unfold mapChecked
  split
  · exact header
  · exact header.trans (readHbmStop_keeps _ _ _ _ _ _)

/-! ### How a check ends -/

theorem tfind_tdel_same {α : Type} (t : Tab α) (k : Nat) : tfind (tdel t k) k = none := by
  induction t with
  | nil => rfl
  | cons x t ih =>
    rw [tdel]
    split
    · exact ih
    · next other => rw [tfind, if_neg other, ih]

theorem Dev.stopCheck_over (d : Dev) (n : Nat) :
    tfind (d.stopCheck n).cmp.checks n = none ∧ (d.stopCheck n).rd CMP_MAP_STATUS.checking n = 0 :=
  ⟨tfind_tdel_same _ _, Dev.rd_wr_same _ _ _ _ _⟩

/-- However it ends, no check of the port runs any more. -/
theorem Dev.endCheck_over (d : Dev) (n code : Nat) (m : MapDesc) :
    tfind (d.endCheck n code m).cmp.checks n = none ∧ (d.endCheck n code m).rd CMP_MAP_STATUS.checking n = 0 := by
  obtain ⟨none, clear⟩ := d.stopCheck_over n
  unfold Dev.endCheck
  split
  · exact ⟨by rw [Dev.mapReject_cmp, none], by rw [Dev.mapReject_checking, clear]⟩
  · exact ⟨none, (Dev.rd_wr_ne _ _ (Fld.key_ne_of_lo (by decide) (by decide) (by decide))).trans clear⟩

/-- A code is reported, and the pending maps stay. -/
theorem Dev.endCheck_rejects (d : Dev) (n : Nat) {code : Nat} (m : MapDesc) (fails : code ≠ 0) (small : code ≤ 8) :
    (d.endCheck n code m).rd CMP_MAP_STATUS.reject n = code ∧ (d.endCheck n code m).eventSet 129 = true ∧
    (d.endCheck n code m).cmp.pend = d.cmp.pend := by
  obtain ⟨reported, raised, cmp⟩ := (d.stopCheck n).mapReject_reports n (code := code) (by omega)
  rw [Dev.endCheck, if_pos fails]
  exact ⟨reported, raised, by rw [cmp]; rfl⟩

theorem Dev.endCheck_accepts (d : Dev) (n : Nat) (m : MapDesc) :
    tfind (d.endCheck n 0 m).cmp.pend n = some m ∧ (d.endCheck n 0 m).rd CMP_MAP_STATUS.pending n = 1 :=
  ⟨tfind_tput_same _ _ _, Dev.rd_wr_same _ _ _ _ _⟩

theorem mapCheck_ends (s : State) (n b : Nat) :
    SameStores s (mapCheck s n b) ∧ tfind (mapCheck s n b).dev.cmp.checks n = none ∧
    (mapCheck s n b).dev.rd CMP_MAP_STATUS.checking n = 0 := by
  rw [mapCheck_eq]
  exact ⟨(mapChecked_keeps s n b).1, Dev.endCheck_over _ _ _ _⟩

theorem mapCheck_rejects {s : State} {n b code : Nat} (verdict : mapVerdict s n b = code) (fails : code ≠ 0) :
    (mapCheck s n b).dev.rd CMP_MAP_STATUS.reject n = code ∧ (mapCheck s n b).dev.eventSet 129 = true ∧
    (mapCheck s n b).dev.cmp.pend = s.dev.cmp.pend := by
  obtain ⟨-, cmp⟩ := mapChecked_keeps s n b
  rw [mapCheck_eq, onDev_dev, verdict, ← cmp]
  exact Dev.endCheck_rejects _ n _ fails (verdict ▸ mapVerdict_le s n b)

theorem mapCheck_accepts {s : State} {n b : Nat} (verdict : mapVerdict s n b = 0) :
    tfind (mapCheck s n b).dev.cmp.pend n = some (mapDesc b (mapHeaderRead s n b).2.2) ∧
    (mapCheck s n b).dev.rd CMP_MAP_STATUS.pending n = 1 := by
  rw [mapCheck_eq, onDev_dev, verdict]
  exact Dev.endCheck_accepts _ n _

/-- Settles O25: a commit is refused or begins the check, and the check's end follows from its verdict, the code of the first test that
fails. (The model's own function has the name `mapCheck`.) -/
theorem mapCheck_settled : Obligations.MapCheck := by
  unfold Obligations.MapCheck
  constructor
  · intro who n v s u lets active held
    obtain ⟨inForce, busy, free⟩ := Dev.mapCtrlWrite_commit (d := u.dev) v active
    refine ⟨_, exec_mapCommit v lets, ⟨rfl, rfl, rfl, rfl⟩, fun is => ?_, fun isNot running => ?_, fun isNot idle => ?_⟩
    · rw [onDev_dev, inForce is]
      exact (u.dev.mapNamed n (v % 2)).mapReject_reports n (by decide)
    · rw [onDev_dev, busy isNot running]
      exact (u.dev.mapNamed n (v % 2)).mapReject_reports n (by decide)
    · rw [onDev_dev, free isNot idle]
      exact Dev.beginMapCheck_runs _ n _
  · intro n b s running runs base hd
    obtain ⟨stores, ended, clear⟩ := mapCheck_ends s n b
    refine ⟨_, exec_mapCheckDone running runs, stores, ended, clear, ?_⟩
    intro rejected h o stop head port shape place
    refine ⟨fun lost => mapCheck_rejects (mapVerdict_of_header (if_pos lost) (by decide)) (by decide), fun came => ?_⟩
    have code := (mapHeaderVerdict_of_read (n := n) (b := b) came).trans (Dev.mapHeaderCode_eq _ _ _ _)
    have fails (c : Nat) (verdict : mapHeaderVerdict s n b = c) (nonzero : c ≠ 0) : rejected c :=
      mapCheck_rejects (mapVerdict_of_header verdict nonzero) nonzero
    refine ⟨fun foreign => ?_, fun ours other => ?_, fun ours own misshapen => ?_, fun ours own fits misplaced => ?_,
      fun ours own fits placed => ?_⟩
    · exact fails 1 (code.trans (if_pos foreign)) (by decide)
    · exact fails 2 (code.trans ((if_neg ours).trans (if_pos other))) (by decide)
    · exact fails 3 (code.trans ((if_neg ours).trans ((if_neg own).trans (if_pos misshapen)))) (by decide)
    · exact fails 4 (code.trans ((if_neg ours).trans ((if_neg own).trans ((if_neg fits).trans (if_pos misplaced))))) (by decide)
    · have verdict := mapVerdict_of_body (code.trans ((if_neg ours).trans ((if_neg own).trans ((if_neg fits).trans (if_neg placed)))))
      intro bd
      refine ⟨fun lost => ?_, fun whole differs => ?_, fun whole same => ?_⟩
      · exact mapCheck_rejects (verdict.trans (if_pos lost)) (by decide)
      · exact mapCheck_rejects (verdict.trans ((if_neg (Bool.eq_false_iff.mp whole)).trans (if_pos differs))) (by decide)
      · exact mapCheck_accepts (verdict.trans ((if_neg (Bool.eq_false_iff.mp whole)).trans (if_neg (not_not_intro same))))

end Sys2Proof.Machine
end

section
/-!
SCN_COMMIT and SCN_IDLE_CFG (06_scan_timing.md R224, R225, R228, R229, R239): a commit that arms, joins an armed one or is late, a
cancel, the idle enable, and statement O27.
-/
namespace Sys2Proof.Machine

/-! ### Fields of a register array -/

/-- Two fields of register arrays of one stride have cells of their own in one entry, where their first entries' cells differ. -/
theorem Fld.key_ne_of_first {f f' : Fld} (i : Nat) (stride : f.s1 = f'.s1) (apart : f.key 0 0 ≠ f'.key 0 0) : f.key i 0 ≠ f'.key i 0 := by
  simp only [Fld.key, stride] at apart ⊢
  omega

/-- The fields that a write of SCN_COMMIT may change, the event status apart. -/
def commitFields : List Fld :=
  [SCN_COMMIT.pending_hold, SCN_COMMIT.armed, SCN_ARMED_TARGET.frame, SCN_COMMIT.late, SCN_LATE_COMMIT_CNT.sat, SCN_LATE_COMMIT_CNT.count]

theorem commitFields_apart : ∀ f ∈ commitFields, f.s1 = 4096 ∧
    ∀ f' ∈ commitFields, f = f' ∨ f.key 0 0 ≠ f'.key 0 0 := by decide

/-- COMMIT_LATE of group g shows in the group's event status, which no other of these fields shares, nor the recorder (R225). -/
theorem commitFields_late {g : Nat} (group : g < 4) : evPos (160 + 16 * g + 8) = some ⟨SCN_EVT_STATUS.status, SCN_EVT_ENABLE.enable, g, 8⟩ ∧
    ∀ f ∈ commitFields, f.key g 0 ≠ evKey (160 + 16 * g + 8) ∧ f.key g 0 ∉ recorderCells := by
  revert g
  decide

/-! ### What a write changes, one field after another -/

theorem OnlyCells.refl (s : State) (keys : List Nat) : OnlyCells s s keys := ⟨rfl, fun _ _ => rfl⟩

/-- A change of registers that lies within the listed cells. -/
theorem OnlyCells.andRegs {s t : State} {keys : List Nat} (h : OnlyCells s t keys) {f : Dev → Dev}
    (regs : f t.dev = { t.dev with regs := (f t.dev).regs })
    (cells : ∀ k, k ∉ keys → tfind (f t.dev).regs k = tfind t.dev.regs k) : OnlyCells s (onDev t f) keys := by
  obtain ⟨rest, kept⟩ := h
  have dev : t.dev = { s.dev with regs := t.dev.regs } := congrArg State.dev rest
  refine ⟨?_, fun k outside => (cells k outside).trans (kept k outside)⟩
  rw [onDev, regs, rest, dev]

theorem OnlyCells.wr {s t : State} {keys : List Nat} (h : OnlyCells s t keys) {f : Fld} (v : Nat) {i j : Nat} (listed : f.key i j ∈ keys) :
    OnlyCells s (onDev t (fun d => d.wr f v i j)) keys :=
  h.andRegs rfl (fun _ outside => Dev.wr_cells _ _ _ _ _ _ (fun same => outside (same ▸ listed)))

theorem OnlyCells.count {s t : State} {keys : List Nat} (h : OnlyCells s t keys) {sat cnt : Fld} (n : Nat) {i j : Nat}
    (saturation : sat.key i j ∈ keys) (value : cnt.key i j ∈ keys) : OnlyCells s (onDev t (fun d => d.count sat cnt n i j)) keys := by
  obtain ⟨regs, cells⟩ := Dev.count_frame t.dev sat cnt n i j
  exact h.andRegs regs (fun k outside => cells k (fun same => outside (same ▸ saturation)) (fun same => outside (same ▸ value)))

theorem OnlyCells.raise {s t : State} {keys : List Nat} (h : OnlyCells s t keys) {n : Nat} (status : evKey n ∈ keys) :
    RaisedOnly s (onDev t (fun d => d.raise n)) keys := by
  obtain ⟨rest, kept⟩ := h
  obtain ⟨raised, others⟩ := Dev.raise_frame t.dev n false
  have dev : t.dev = { s.dev with regs := t.dev.regs } := congrArg State.dev rest
  refine ⟨?_, fun k outside block => ?_⟩
  · rw [onDev, raised, rest, dev]
  · exact (others k (fun same => outside (same ▸ status)) block).trans (kept k outside)

/-- Entry i of a counter, of which nothing but one occurrence has changed a cell (R43). -/
theorem counted_of_count {s t : State} {d : Dev} {sat cnt : Fld} {i : Nat} (apart : cnt.key i 0 ≠ sat.key i 0) (wide : cnt.w = 31)
    (narrow : sat.w = 1) (satBefore : d.rd sat i = s.dev.rd sat i) (before : d.rd cnt i = s.dev.rd cnt i)
    (satAfter : t.dev.rd sat i = (d.count sat cnt 1 i).rd sat i) (after : t.dev.rd cnt i = (d.count sat cnt 1 i).rd cnt i) :
    Counted s t sat cnt i := by
  rw [Counted, satAfter, after, ← satBefore, ← before]
  refine ⟨fun full => ?_, fun free => ?_⟩
  · have same : d.count sat cnt 1 i = d := if_pos (.inr (by simpa using full))
    rw [same]
    exact ⟨rfl, rfl⟩
  · have counts : ¬ (1 = 0 ∨ d.rdb sat i = true) := by simp [free]
    rw [Dev.count, if_neg counts]
    by_cases below : d.rd cnt i + 1 < 0x7FFFFFFF
    · rw [if_pos below, Dev.rd_wr_same, Dev.rd_wr_ne _ _ apart.symm, free, decide_eq_false (Nat.not_le.mpr below), wide,
        Nat.min_eq_left (Nat.le_of_lt below)]
      exact ⟨Nat.mod_eq_of_lt (Nat.lt_trans below (by decide)), rfl⟩
    · rw [if_neg below, Dev.rd_wr_ne _ _ apart, Dev.rd_wr_same, Dev.rd_wr_same, decide_eq_true (Nat.not_lt.mp below), wide, narrow,
        Nat.min_eq_right (Nat.not_lt.mp below)]
      exact ⟨by decide, rfl⟩

/-! ### A write of SCN_COMMIT -/

/-- pending_hold takes the written bit (R231). -/
def Dev.holdWritten (d : Dev) (g v : Nat) : Dev := d.wr SCN_COMMIT.pending_hold (b2n (v.testBit 18)) g

/-- A commit that finds none armed arms for the k-th scan frame from the present one (R224, R225, R228). -/
def Dev.armFor (d : Dev) (g k : Nat) : Dev :=
  if d.rdb SCN_COMMIT.armed g then d
  else (d.wr SCN_COMMIT.armed 1 g).wr SCN_ARMED_TARGET.frame (d.rd SCN_FRAME_NUM.frame g + k) g

/-- A late commit's mark and count (R225). -/
def Dev.countLate (d : Dev) (g : Nat) : Dev :=
  (d.wr SCN_COMMIT.late 1 g).count SCN_LATE_COMMIT_CNT.sat SCN_LATE_COMMIT_CNT.count 1 g

/-- A commit past the window (R225). -/
def Dev.lateCommit (d : Dev) (g : Nat) : Dev := ((d.armFor g 2).countLate g).raise (160 + 16 * g + 8)

/-- An armed commit is disarmed (R229). -/
def Dev.disarmed (d : Dev) (g : Nat) : Dev :=
  if d.rdb SCN_COMMIT.armed g then (d.wr SCN_COMMIT.armed 0 g).wr SCN_COMMIT.late 0 g else d

/-- Where the window closes is read from no cell that holds pending_hold. -/
theorem Dev.windowClosed_holdWritten (d : Dev) (g v : Nat) : (d.holdWritten g v).windowClosed g = d.windowClosed g := by
  have stays {f : Fld} (stride : f.s1 = 4096) (apart : f.key 0 0 ≠ SCN_COMMIT.pending_hold.key 0 0) :
      (d.holdWritten g v).rd f g = d.rd f g := Dev.rd_wr_ne _ _ (Fld.key_ne_of_first g stride apart)
  have scn : (d.holdWritten g v).scnG g = d.scnG g := rfl
  rw [Dev.windowClosed, Dev.windowClosed, Dev.inExtension, Dev.inExtension, Dev.rdb_eq, Dev.rdb_eq, Dev.lGuard, Dev.lGuard, Dev.curLine,
    Dev.curLine, stays (f := SCN_LINE.extension) rfl (by decide), stays (f := SCN_MODE_MARKS.guard) rfl (by decide),
    stays (f := SCN_LINE.line) rfl (by decide), scn]

theorem Dev.commitWrite_eq (d : Dev) (g v : Nat) :
    d.commitWrite g v =
      if v.testBit 30 then (d.holdWritten g v).disarmed g
      else if v.testBit 31 then
        (if d.windowClosed g then (d.holdWritten g v).lateCommit g else (d.holdWritten g v).armFor g 1)
      else d.holdWritten g v := by
  have bits : d.commitWrite g v =
      if v.testBit 30 then (d.holdWritten g v).disarmed g
      else if v.testBit 31 then
        (if (d.holdWritten g v).windowClosed g then
          (((d.holdWritten g v).armFor g (if (d.holdWritten g v).windowClosed g then 2 else 1)).countLate g).raise (160 + 16 * g + 8)
        else (d.holdWritten g v).armFor g (if (d.holdWritten g v).windowClosed g then 2 else 1))
      else d.holdWritten g v := rfl
  rw [bits, Dev.windowClosed_holdWritten]
  cases d.windowClosed g <;> rfl

/-! ### What the fields read afterwards -/

theorem Dev.rd_wr_commitField (d : Dev) {f f' : Fld} (mem : f ∈ commitFields) (mem' : f' ∈ commitFields) (ne : f ≠ f') (v g : Nat) :
    (d.wr f' v g).rd f g = d.rd f g := by
  obtain ⟨stride, apart⟩ := commitFields_apart f mem
  obtain ⟨stride', -⟩ := commitFields_apart f' mem'
  exact Dev.rd_wr_ne _ _ (Fld.key_ne_of_first g (stride.trans stride'.symm) ((apart f' mem').resolve_left ne))

theorem Dev.rd_frame_holdWritten (d : Dev) (g v : Nat) : (d.holdWritten g v).rd SCN_FRAME_NUM.frame g = d.rd SCN_FRAME_NUM.frame g :=
  Dev.rd_wr_ne _ _ (Fld.key_ne_of_first g rfl (by decide))

theorem Dev.rd_hold_holdWritten (d : Dev) (g v : Nat) : (d.holdWritten g v).rd SCN_COMMIT.pending_hold g = b2n (v.testBit 18) :=
  (Dev.rd_wr_same _ _ _ _ _).trans (b2n_mod_two _)

theorem Dev.rd_holdWritten (d : Dev) (g v : Nat) {f : Fld} (mem : f ∈ commitFields) (ne : f ≠ SCN_COMMIT.pending_hold) :
    (d.holdWritten g v).rd f g = d.rd f g := Dev.rd_wr_commitField d mem (by decide) ne _ g

theorem Dev.armFor_armed {d : Dev} {g : Nat} (k : Nat) (armed : d.rd SCN_COMMIT.armed g ≠ 0) : d.armFor g k = d :=
  if_pos (by simpa using armed)

theorem Dev.armFor_unarmed {d : Dev} {g : Nat} (k : Nat) (unarmed : d.rd SCN_COMMIT.armed g = 0) :
    d.armFor g k = (d.wr SCN_COMMIT.armed 1 g).wr SCN_ARMED_TARGET.frame (d.rd SCN_FRAME_NUM.frame g + k) g :=
  if_neg (by simp [unarmed])

theorem Dev.rd_armFor (d : Dev) (g k : Nat) {f : Fld} (mem : f ∈ commitFields) (ne : f ≠ SCN_COMMIT.armed)
    (ne' : f ≠ SCN_ARMED_TARGET.frame) : (d.armFor g k).rd f g = d.rd f g := by
  by_cases unarmed : d.rd SCN_COMMIT.armed g = 0
  · rw [Dev.armFor_unarmed k unarmed, Dev.rd_wr_commitField _ mem (by decide) ne', Dev.rd_wr_commitField _ mem (by decide) ne]
  · rw [Dev.armFor_armed k unarmed]

/-- A commit that arms names its target frame (R224). -/
theorem Dev.armFor_arms {d : Dev} {g : Nat} (k : Nat) (unarmed : d.rd SCN_COMMIT.armed g = 0) :
    (d.armFor g k).rd SCN_COMMIT.armed g = 1 ∧
    (d.armFor g k).rd SCN_ARMED_TARGET.frame g = (d.rd SCN_FRAME_NUM.frame g + k) % 2 ^ 32 := by
  rw [Dev.armFor_unarmed k unarmed, Dev.rd_wr_commitField _ (by decide) (by decide) (by decide), Dev.rd_wr_same, Dev.rd_wr_same]
  exact ⟨rfl, rfl⟩

theorem Dev.rd_countLate (d : Dev) (g : Nat) {f : Fld} (mem : f ∈ commitFields) (late : f ≠ SCN_COMMIT.late)
    (sat : f ≠ SCN_LATE_COMMIT_CNT.sat) (count : f ≠ SCN_LATE_COMMIT_CNT.count) : (d.countLate g).rd f g = d.rd f g := by
  obtain ⟨stride, apart⟩ := commitFields_apart f mem
  have counted := (Dev.count_frame (d.wr SCN_COMMIT.late 1 g) SCN_LATE_COMMIT_CNT.sat SCN_LATE_COMMIT_CNT.count 1 g 0).2 (f.key g 0)
    (Fld.key_ne_of_first g stride ((apart _ (by decide)).resolve_left sat))
    (Fld.key_ne_of_first g stride ((apart _ (by decide)).resolve_left count))
  rw [Dev.countLate, Dev.rd_congr counted, Dev.rd_wr_commitField d mem (by decide) late]

theorem Dev.rd_late_countLate (d : Dev) (g : Nat) : (d.countLate g).rd SCN_COMMIT.late g = 1 := by
  have counted := (Dev.count_frame (d.wr SCN_COMMIT.late 1 g) SCN_LATE_COMMIT_CNT.sat SCN_LATE_COMMIT_CNT.count 1 g 0).2
    (SCN_COMMIT.late.key g 0) (Fld.key_ne_of_first g rfl (by decide)) (Fld.key_ne_of_first g rfl (by decide))
  rw [Dev.countLate, Dev.rd_congr counted, Dev.rd_wr_same]
  rfl

theorem Dev.rd_raiseLate (d : Dev) {g : Nat} (group : g < 4) {f : Fld} (mem : f ∈ commitFields) :
    (d.raise (160 + 16 * g + 8)).rd f g = d.rd f g := by
  obtain ⟨status, recorder⟩ := (commitFields_late group).2 f mem
  exact Dev.rd_congr (Dev.raise_cells d false status recorder)

/-! ### A commit within the window and past it -/

/-- The cells of group g that a commit within its window may change. -/
def armCells (g : Nat) : List Nat :=
  [SCN_COMMIT.pending_hold.key g 0, SCN_COMMIT.armed.key g 0, SCN_ARMED_TARGET.frame.key g 0]

/-- Those that a late one changes as well. -/
def lateCells (g : Nat) : List Nat :=
  [SCN_COMMIT.late.key g 0, SCN_LATE_COMMIT_CNT.sat.key g 0, SCN_LATE_COMMIT_CNT.count.key g 0, SCN_EVT_STATUS.status.key g 0]

theorem armFor_holdWritten_onlyCells (u : State) (g v k : Nat) {keys : List Nat} (listed : ∀ c ∈ armCells g, c ∈ keys) :
    OnlyCells u (onDev u (fun d => (d.holdWritten g v).armFor g k)) keys := by
  simp only [armCells, List.forall_mem_cons] at listed
  obtain ⟨hold, armed, target, -⟩ := listed
  have held := (OnlyCells.refl u keys).wr (b2n (v.testBit 18)) hold
  by_cases unarmed : (u.dev.holdWritten g v).rd SCN_COMMIT.armed g = 0
  · rw [onDev, Dev.armFor_unarmed k unarmed]
    exact (held.wr 1 armed).wr _ target
  · rw [onDev, Dev.armFor_armed k unarmed]
    exact held

/-- With a commit armed a further one within the window changes pending_hold alone (R228). -/
theorem armFor_joins {u : State} {g : Nat} (v k : Nat) (armed : u.dev.rd SCN_COMMIT.armed g ≠ 0) :
    OnlyCells u (onDev u (fun d => (d.holdWritten g v).armFor g k)) [SCN_COMMIT.pending_hold.key g 0] := by
  have still : (u.dev.holdWritten g v).rd SCN_COMMIT.armed g ≠ 0 := by rwa [Dev.rd_holdWritten _ _ _ (by decide) (by decide)]
  rw [onDev, Dev.armFor_armed k still]
  exact wr_onlyCells u _ _ _ _ (by simp)

theorem armFor_holdWritten_arms {u : State} {g : Nat} (v k : Nat) (unarmed : u.dev.rd SCN_COMMIT.armed g = 0) :
    ((u.dev.holdWritten g v).armFor g k).rd SCN_COMMIT.armed g = 1 ∧
    ((u.dev.holdWritten g v).armFor g k).rd SCN_ARMED_TARGET.frame g = (u.dev.rd SCN_FRAME_NUM.frame g + k) % 2 ^ 32 := by
  rw [← Dev.rd_frame_holdWritten u.dev g v]
  exact Dev.armFor_arms k (by rwa [Dev.rd_holdWritten _ _ _ (by decide) (by decide)])

theorem rd_hold_armFor (d : Dev) (g v k : Nat) :
    ((d.holdWritten g v).armFor g k).rd SCN_COMMIT.pending_hold g = b2n (v.testBit 18) := by
  rw [Dev.rd_armFor _ _ _ (by decide) (by decide) (by decide), Dev.rd_hold_holdWritten]

/-- What a late commit leaves in the fields that it counts in and marks nothing in. -/
theorem Dev.rd_lateCommit (d : Dev) {g : Nat} (group : g < 4) {f : Fld} (mem : f ∈ commitFields) (late : f ≠ SCN_COMMIT.late)
    (sat : f ≠ SCN_LATE_COMMIT_CNT.sat) (count : f ≠ SCN_LATE_COMMIT_CNT.count) :
    (d.lateCommit g).rd f g = (d.armFor g 2).rd f g := by
  rw [Dev.lateCommit, Dev.rd_raiseLate _ group mem, Dev.rd_countLate _ _ mem late sat count]

/-- A late commit changes its own cells and raises COMMIT_LATE (R225). -/
theorem lateCommit_raisedOnly (u : State) {g : Nat} (v : Nat) (group : g < 4) :
    RaisedOnly u (onDev u (fun d => (d.holdWritten g v).lateCommit g)) (armCells g ++ lateCells g) := by
  have armed := armFor_holdWritten_onlyCells u g v 2 (keys := armCells g ++ lateCells g) (fun c mem => List.mem_append_left _ mem)
  have counted := (armed.wr (f := SCN_COMMIT.late) 1 (i := g) (j := 0) (by simp [lateCells])).count (sat := SCN_LATE_COMMIT_CNT.sat)
    (cnt := SCN_LATE_COMMIT_CNT.count) 1 (i := g) (j := 0) (by simp [lateCells]) (by simp [lateCells])
  have status : evKey (160 + 16 * g + 8) = SCN_EVT_STATUS.status.key g 0 := by simp only [evKey, (commitFields_late group).1]
  exact counted.raise (by simp [status, lateCells])

theorem lateCommit_counted (u : State) {g : Nat} (v : Nat) (group : g < 4) :
    Counted u (onDev u (fun d => (d.holdWritten g v).lateCommit g)) SCN_LATE_COMMIT_CNT.sat SCN_LATE_COMMIT_CNT.count g := by
  have before {f : Fld} (mem : f ∈ commitFields) (hold : f ≠ SCN_COMMIT.pending_hold) (armed : f ≠ SCN_COMMIT.armed)
      (target : f ≠ SCN_ARMED_TARGET.frame) (late : f ≠ SCN_COMMIT.late) :
      (((u.dev.holdWritten g v).armFor g 2).wr SCN_COMMIT.late 1 g).rd f g = u.dev.rd f g := by
    rw [Dev.rd_wr_commitField _ mem (by decide) late, Dev.rd_armFor _ _ _ mem armed target, Dev.rd_holdWritten _ _ _ mem hold]
  exact counted_of_count (Fld.key_ne_of_first g rfl (by decide)) rfl rfl
    (before (by decide) (by decide) (by decide) (by decide) (by decide)) (before (by decide) (by decide) (by decide) (by decide) (by decide))
    (Dev.rd_raiseLate _ group (by decide)) (Dev.rd_raiseLate _ group (by decide))

theorem lateCommit_reports (d : Dev) {g : Nat} (group : g < 4) :
    (d.lateCommit g).rd SCN_COMMIT.late g = 1 ∧ (d.lateCommit g).eventSet (168 + 16 * g) = true := by
  constructor
  · rw [Dev.lateCommit, Dev.rd_raiseLate _ group (by decide), Dev.rd_late_countLate]
  · rw [show 168 + 16 * g = 160 + 16 * g + 8 by omega]
    exact Dev.eventSet_raise_of_evPos _ (commitFields_late group).1 false

/-! ### A cancel -/

/-- A cancel leaves none armed (R229). -/
theorem disarmed_holdWritten (u : State) (g v : Nat) :
    OnlyCells u (onDev u (fun d => (d.holdWritten g v).disarmed g))
      [SCN_COMMIT.pending_hold.key g 0, SCN_COMMIT.armed.key g 0, SCN_COMMIT.late.key g 0] ∧
    ((u.dev.holdWritten g v).disarmed g).rd SCN_COMMIT.armed g = 0 := by
  have held := (OnlyCells.refl u [SCN_COMMIT.pending_hold.key g 0, SCN_COMMIT.armed.key g 0, SCN_COMMIT.late.key g 0]).wr
    (f := SCN_COMMIT.pending_hold) (b2n (v.testBit 18)) (i := g) (j := 0) (by simp)
  rw [onDev]
  by_cases unarmed : (u.dev.holdWritten g v).rd SCN_COMMIT.armed g = 0
  · have stays : (u.dev.holdWritten g v).disarmed g = u.dev.holdWritten g v := if_neg (by simp [unarmed])
    rw [stays]
    exact ⟨held, unarmed⟩
  · have cleared : (u.dev.holdWritten g v).disarmed g = ((u.dev.holdWritten g v).wr SCN_COMMIT.armed 0 g).wr SCN_COMMIT.late 0 g :=
      if_pos (by simpa using unarmed)
    rw [cleared, Dev.rd_wr_commitField _ (by decide) (by decide) (by decide), Dev.rd_wr_same]
    exact ⟨(held.wr 0 (by simp)).wr 0 (by simp), rfl⟩

/-! ### The commands -/

theorem exec_commit {who : Initiator} {g : Nat} (v : Nat) {s : State}
    (lets : Lets (settled who (SCN_COMMIT.ent.at_ g 0) s) who SCN_COMMIT.ent g 0) :
    exec (.commit who g v) s = .next (onDev (settled who (SCN_COMMIT.ent.at_ g 0) s) (fun d => d.commitWrite g (withBit v 31))) :=
  congrArg Host.Outcome.next (rowWrite_of_lets _ lets)

theorem exec_cancel {who : Initiator} {g : Nat} (v : Nat) {s : State}
    (lets : Lets (settled who (SCN_COMMIT.ent.at_ g 0) s) who SCN_COMMIT.ent g 0) :
    exec (.cancel who g v) s = .next (onDev (settled who (SCN_COMMIT.ent.at_ g 0) s) (fun d => d.commitWrite g (withBit v 30))) :=
  congrArg Host.Outcome.next (rowWrite_of_lets _ lets)

theorem exec_idleEnableWrite {who : Initiator} {g : Nat} (v : Nat) {s : State}
    (lets : Lets (settled who (SCN_IDLE_CFG.ent.at_ g 0) s) who SCN_IDLE_CFG.ent g 0) :
    exec (.idleEnableWrite who g v) s =
      .next (onDev (settled who (SCN_IDLE_CFG.ent.at_ g 0) s) (fun d => d.wr SCN_IDLE_CFG.enable (b2n (v.testBit 0)) g)) :=
  congrArg Host.Outcome.next (rowWrite_of_lets _ lets)

/-- COMMIT's write within the window and past it. -/
theorem Dev.commitWrite_commit (d : Dev) (g : Nat) {v : Nat} (noCancel : v.testBit 30 = false) :
    d.commitWrite g (withBit v 31) =
      if d.windowClosed g then (d.holdWritten g (withBit v 31)).lateCommit g else (d.holdWritten g (withBit v 31)).armFor g 1 := by
  rw [Dev.commitWrite_eq, testBit_withBit_below v (by decide), testBit_withBit_same, if_neg (Bool.eq_false_iff.mp noCancel), if_pos rfl]

/-- CANCEL's write, whether or not it holds commit (R229). -/
theorem Dev.commitWrite_cancel (d : Dev) (g v : Nat) :
    d.commitWrite g (withBit v 30) = (d.holdWritten g (withBit v 30)).disarmed g := by
  rw [Dev.commitWrite_eq, testBit_withBit_same, if_pos rfl]

/-- Settles O27: by whether the commit window has closed and a commit is armed; every case is a few stores to the group's own cells. -/
theorem commitAndCancel : Obligations.CommitAndCancel := by
  unfold Obligations.CommitAndCancel
  refine ⟨?_, ?_, ?_⟩
  · intro who g v s group noCancel u lets f hold
    refine ⟨_, exec_commit v lets, ?_⟩
    rw [onDev, Dev.commitWrite_commit _ _ noCancel, ← testBit_withBit_below v (j := 18) (k := 31) (by decide)]
    cases closed : u.dev.windowClosed g with
    | false =>
      refine ⟨rd_hold_armFor _ _ _ _, fun _ unarmed => ?_, fun _ armed => ?_, fun late => absurd late (by decide)⟩
      · exact ⟨armFor_holdWritten_onlyCells u g _ 1 (fun _ mem => mem), armFor_holdWritten_arms _ 1 unarmed⟩
      · exact armFor_joins _ 1 armed
    | true =>
      refine ⟨?_, fun within => absurd within (by decide), fun within => absurd within (by decide), fun _ => ?_⟩
      · exact (Dev.rd_lateCommit _ group (by decide) (by decide) (by decide) (by decide)).trans (rd_hold_armFor _ _ _ _)
      · obtain ⟨marked, raised⟩ := lateCommit_reports (u.dev.holdWritten g (withBit v 31)) group
        refine ⟨lateCommit_raisedOnly u _ group, lateCommit_counted u _ group, marked, raised, fun unarmed => ?_⟩
        obtain ⟨armed, target⟩ := armFor_holdWritten_arms (withBit v 31) 2 unarmed
        exact ⟨(Dev.rd_lateCommit _ group (by decide) (by decide) (by decide) (by decide)).trans armed,
          (Dev.rd_lateCommit _ group (by decide) (by decide) (by decide) (by decide)).trans target⟩
  · intro who g v s u lets
    refine ⟨_, exec_cancel v lets, ?_⟩
    rw [onDev, Dev.commitWrite_cancel]
    exact disarmed_holdWritten u g _
  · intro who g v s u lets
    exact ⟨_, exec_idleEnableWrite v lets, wr_onlyCells u _ _ _ _ (by simp), (Dev.rd_wr_same _ _ _ _ _).trans (b2n_mod_two _)⟩

end Sys2Proof.Machine
end

section
/-!
What the map decode of a coming line does to the line counter where a port has a number that no port has, which the first clause of
statement O26 does not rule out.
-/
namespace Sys2Proof.Machine

/-- Port 32,641: the number of no port, whose error counter in the array CMP_MAP_ERR_CNT would be the line counter SCN_LINE[0]. -/
def strayMapPort : Nat := 0x7F81

/-- A map in force whose three component sections are empty: none holds a block row's index entry (R195). -/
def emptyMap : MapDesc := { buffer := 0, coding := [], offs := [0x40, 0x40, 0x40], len := 0, mapId := 0 }

/-- Wall group 0 scans line 0 of 60 active lines. Its only port is the stray one, which a slice serves and for which the empty map is in
force; ray synthesis is held in reset, so that composition alone works on the coming lines. -/
def strayMapState : State :=
  { State.reset with dev := { ((Dev.reset.wr RAY_PORT_SLICE.served 1 strayMapPort).wr SCN_MODE_LINES.n_total 100).wr
        SCN_MODE_LINES.n_active 60 with
      img := { Image.blank with geo := { Image.blank.geo with ports := [(strayMapPort, ⟨0, 0, 0, 1, 0, 0, 0⟩)] } }
      scn := [(0, { ScnGroup.init with running := true, begun := true, scanning := true })]
      glb := { Dev.reset.glb with held := 2 ^ 3 }
      cmp := { Dev.reset.cmp with force := [(strayMapPort, emptyMap)] } } }

/-- The line counter steps from 0 to 1, and then once more: the map decode for line 3 finds no block row, and its error is
counted there. -/
theorem strayMapState_line : (lineStart strayMapState 0).dev.curLine 0 = 2 := by decide

/-- Refutes O26: its first clause says of every image that LINE_START of an ordinary line leaves the line counter at that line. A port
numbered 32,641, which only the last clause rules out, has a map error of the coming line counted in the line counter, which then names
line 2 where line 1 starts. -/
theorem not_lineStarts : ¬ Obligations.LineStarts := by
  unfold Obligations.LineStarts
  intro holds
  obtain ⟨starts, -⟩ := holds
  obtain ⟨ordinary, -⟩ := starts 0 strayMapState (by decide) (by decide) (by decide) (by decide)
  obtain ⟨t, run, -, line, -⟩ := ordinary 1 (by decide) (by decide) (by decide) (by decide) (by decide) (by decide)
  have begins : exec (.lineStart 0) strayMapState = .next (lineStart strayMapState 0) := rfl
  obtain rfl := Host.Outcome.next.inj (begins.symm.trans run)
  exact absurd (strayMapState_line.symm.trans line) (by decide)

end Sys2Proof.Machine
end
